-- ==== Sys2Proof/Word.lean ====
section
/-! DEFINITION. The word types of the part and their plainest arithmetic (00_scope.md, section 4: little-endian
multi-byte fields, two's complement, milliseconds). -/

namespace Sys2Proof

/-- One byte of the RAM bus (00_scope.md, section 1). -/
abbrev Byte := BitVec 8

/-- A 16-bit field: an event argument, the tape counter, a two-byte status field. -/
abbrev Half := BitVec 16

/-- A 32-bit clock value: the uptime clock and the show clock (00_scope.md, "Clocks"). -/
abbrev Word := BitVec 32

/-- A host address, HA19 to HA0 (10_memory_passage_and_window_formats.md). -/
abbrev Address := BitVec 20

/-- The low byte of a number. -/
abbrev byteOf (n : Nat) : Byte := BitVec.ofNat 8 n

/-- The low sixteen bits of a number. -/
abbrev halfOf (n : Nat) : Half := BitVec.ofNat 16 n

end Sys2Proof
end

