-- ==== Sys2Proof/Syntax.lean ====
section
/-! DEFINITION. The commands the block takes: one constructor of `Instr` for each row of spec/opcode_table.json,
with the operands the row's rule gives it. A directive row carries the operand bytes of the directive code table
(10_memory_passage_and_window_formats.md, section 10.6) in the order the host writes them. -/

namespace Sys2Proof

/-- The levels of the four mechanism sensors whose changes have no row of their own: THOME, LTOP, GSEAT and GSLIDE
(01_the_slide_change_mechanism.md, pin table). -/
structure Sensors where
  thome  : Bool
  ltop   : Bool
  gseat  : Bool
  gslide : Bool
  deriving DecidableEq, Repr

/-- Every input level of the part as it stands at the release of RESET (00_scope.md, section 2.2). -/
structure Pins where
  wsel      : BitVec 2
  tcode     : BitVec 2
  sensors   : Sensors
  lcur      : Bool
  thsw      : Bool
  ilockOpen : Bool
  tend      : Bool
  cuein     : Bool
  rline     : Bool
  flim      : Bool
  deriving DecidableEq, Repr

/-- The two inputs the Cutoff Unit filters (R73). -/
inductive FilteredInput where
  | thermostat
  | interlock
  deriving DecidableEq, Repr

/-- The six ways a remote frame fails, numbered 1 to 6 in this order (R116). -/
inductive FrameFailure where
  /-- 1: start pulse outside 1.8..3.0 ms. -/
  | startPulse
  /-- 2: bit pulse outside both bit ranges. -/
  | bitPulse
  /-- 3: space outside 0.45..0.75 ms. -/
  | space
  /-- 4: line low for more than 3.0 ms. -/
  | stuckLow
  /-- 5: fewer or more than twelve bits. -/
  | length
  /-- 6: check mismatch. -/
  | check
  deriving DecidableEq, Repr

/-- The commands of the part, one for each row of spec/opcode_table.json. A host cycle carries `gap`: whether the
host leaves the bus free after it (true) or begins its next cycle at once (false), which R196 and R197 turn on. -/
inductive Instr where
  /-- POWER_ON_RESET (R199): release of RESET with these input levels. -/
  | powerOnReset (pins : Pins)
  /-- HOST_WRITE (R192). -/
  | hostWrite (addr : Address) (value : Byte) (gap : Bool)
  /-- OWN_CYCLE_COMPLETE (R196). -/
  | ownCycleComplete
  /-- LEAD_BYTE (R204): a host write to DLEAD. -/
  | leadByte (code : Byte) (gap : Bool)
  /-- UNKNOWN_CODE (R208): a host write to DLEAD of a code the table does not hold. -/
  | unknownCode (code : Byte) (gap : Bool)
  /-- OPERAND_BYTE (R205): a host write to DOPND. -/
  | operandByte (value : Byte) (gap : Bool)
  /-- RIDX_WRITE (R214). -/
  | ridxWrite (value : Byte) (gap : Bool)
  /-- CURVE_WRITE (R45): point `point` of curve `curve`. -/
  | curveWrite (curve : BitVec 2) (point : BitVec 6) (value : Byte) (gap : Bool)
  /-- KEY_MAP_WRITE (R120): field `field` of entry `key`. -/
  | keyMapWrite (key : BitVec 5) (field : BitVec 2) (value : Byte) (gap : Bool)
  /-- CUE_STORE_WRITE (R187): byte `offset` of record `record`. -/
  | cueStoreWrite (record : BitVec 12) (offset : BitVec 4) (value : Byte) (gap : Bool)
  /-- PART_RESET (R209). -/
  | partReset
  /-- REMOTE_SETUP (R117). -/
  | remoteSetup (unit enable : Byte)
  /-- HOME (R26). -/
  | home
  /-- GOTO_SLOT (R26). -/
  | gotoSlot (slot : Byte)
  /-- MOVE_BY (R26). -/
  | moveBy (step : Byte)
  /-- CLEAR_GATE (R26). -/
  | clearGate
  /-- CHANGE_PROFILE (R27). -/
  | changeProfile (outTime inTime blackout : Byte)
  /-- LAMP_ON (R32). -/
  | lampOn
  /-- LAMP_OFF (R33). -/
  | lampOff
  /-- LAMP_FADE (R43). -/
  | lampFade (levelLo levelHi curve time : Byte)
  /-- LAMP_CEILING (R40). -/
  | lampCeiling (levelLo levelHi : Byte)
  /-- LAMP_SPARE (R39). -/
  | lampSpare (lamps : Byte)
  /-- HEAT_PROFILE (R53). -/
  | heatProfile (lampGain fanGain derateStart overheat restrikeMax : Byte)
  /-- FAN_PROFILE (R69). -/
  | fanProfile (minimum coolDone : Byte)
  /-- CUTOFF_SELECT (R82). -/
  | cutoffSelect (selection0 selection1 : Byte)
  /-- CUTOFF_ENABLE (R83). -/
  | cutoffEnable (causes : Byte)
  /-- CUTOFF_FORCE (R84). -/
  | cutoffForce
  /-- CUTOFF_CLEAR (R85). -/
  | cutoffClear
  /-- TAPE_PLAY (R90). -/
  | tapePlay
  /-- TAPE_STOP (R91). -/
  | tapeStop
  /-- TAPE_WIND (R90). -/
  | tapeWind (direction : Byte)
  /-- TAPE_LOCATE (R95). -/
  | tapeLocate (targetLo targetHi : Byte)
  /-- TAPE_RECORD (R90). -/
  | tapeRecord
  /-- TAPE_ZERO (R94). -/
  | tapeZero
  /-- CUE_WRITE (R106). -/
  | cueWrite (cueClass : Byte)
  /-- CUE_ROUTE (R103). -/
  | cueRoute (mode markChannel : Byte)
  /-- AUDIO_LEVEL (R108). -/
  | audioLevel (level ramp : Byte)
  /-- ARB_LEVELS (R134). -/
  | arbLevels (level0 level1 : Byte)
  /-- ARB_MASK (R134). -/
  | arbMask (sources : Byte)
  /-- RUN_LOAD (R150). -/
  | runLoad (channel baseSlot baseCount mode dwell : Byte)
  /-- RUN_MASK (R151). -/
  | runMask (select values : Byte)
  /-- RUN_TRIGGER (R152). -/
  | runTrigger (channel : Byte)
  /-- RUN_CLEAR_ALL (R162). -/
  | runClearAll
  /-- RUN_ORDER (R161). -/
  | runOrder (order : Byte)
  /-- SHOW_START (R167). -/
  | showStart (indexLo indexHi : Byte)
  /-- SHOW_PAUSE (R168). -/
  | showPause
  /-- SHOW_RESUME (R168). -/
  | showResume
  /-- SHOW_STOP (R169). -/
  | showStop
  /-- CUE_GO (R182). -/
  | cueGo
  /-- SHOW_LEAD (R170). -/
  | showLead (enable extra : Byte)
  /-- TRAY_CODE_CHANGE (R1): the contacts TCODE1-TCODE0 now read `code`. -/
  | trayCodeChange (code : BitVec 2)
  /-- BLACKOUT_REPORT (R7). -/
  | blackoutReport
  /-- DARKEN_LATE (R7). -/
  | darkenLate
  /-- LTOP_ACTIVE (R8). -/
  | ltopActive
  /-- LIFT_TIMER_EXPIRY (R8). -/
  | liftTimerExpiry
  /-- LIFT_LOWERING_END (R8). -/
  | liftLoweringEnd
  /-- ARRIVAL (R2): a TIDX pulse, with THOME as sampled at it. -/
  | arrival (thome : Bool)
  /-- POSITION_TIMER_EXPIRY (R9). -/
  | positionTimerExpiry
  /-- GSEAT_ACTIVE (R10). -/
  | gseatActive
  /-- DROP_TIMER_EXPIRY (R10): with GSLIDE as sampled at it. -/
  | dropTimerExpiry (gslide : Bool)
  /-- SETTLE_END (R11). -/
  | settleEnd
  /-- LAMP_UPDATE (R44). -/
  | lampUpdate
  /-- FADE_COMPLETE (R42). -/
  | fadeComplete
  /-- STRIKE_END (R35). -/
  | strikeEnd
  /-- LCUR_CHANGE (R36): LCUR is now `present`. -/
  | lcurChange (present : Bool)
  /-- FAILURE_WATCH_EXPIRY (R36). -/
  | failureWatchExpiry
  /-- EXCHANGE_MOVE_END (R38). -/
  | exchangeMoveEnd
  /-- HEAT_UPDATE (R52). -/
  | heatUpdate
  /-- FTACH_PULSE (R60). -/
  | ftachPulse
  /-- MEASUREMENT_WINDOW_END (R60). -/
  | measurementWindowEnd
  /-- THSW_CHANGE (R73): the raw input is now `active`. -/
  | thswChange (active : Bool)
  /-- ILOCK_CHANGE (R73): the raw input is now open, or closed. -/
  | ilockChange (opened : Bool)
  /-- FILTER_TIMER_EXPIRY (R73). -/
  | filterTimerExpiry (input : FilteredInput)
  /-- TMOTN_PULSE (R94). -/
  | tmotnPulse
  /-- LEADER_ALLOWANCE_END (R97): the pulse that is the sixty-fourth. -/
  | leaderAllowanceEnd
  /-- TEND_CHANGE (R97): TEND is now `active`. -/
  | tendChange (active : Bool)
  /-- BRAKING_TIMER_EXPIRY (R92). -/
  | brakingTimerExpiry
  /-- STALL_WATCH_EXPIRY (R98). -/
  | stallWatchExpiry
  /-- CUEIN_EDGE (R99): a rising edge, or a falling one. -/
  | cueinEdge (rising : Bool)
  /-- GAP_TIMER_EXPIRY (R99). -/
  | gapTimerExpiry
  /-- STUCK_TIMER_EXPIRY (R101). -/
  | stuckTimerExpiry
  /-- WRITER_TONE_END (R106). -/
  | writerToneEnd
  /-- WRITER_QUIET_END (R106). -/
  | writerQuietEnd
  /-- AUDIO_RAMP_STEP (R108). -/
  | audioRampStep
  /-- REMOTE_FRAME (R115): the frame-end timer expires with twelve bits received. -/
  | remoteFrame
  /-- FRAME_ERROR (R116): the frame in progress fails in this way. -/
  | frameError (failure : FrameFailure)
  /-- LOW_LIMIT_EXPIRY (R113). -/
  | lowLimitExpiry
  /-- IDLE_TIMER_EXPIRY (R116). -/
  | idleTimerExpiry
  /-- RELEASE_TIMER_EXPIRY (R119). -/
  | releaseTimerExpiry
  /-- REPEAT_TIMER_EXPIRY (R123). -/
  | repeatTimerExpiry
  /-- FLIM_CHANGE (R125): FLIM is now `active`. -/
  | flimChange (active : Bool)
  /-- ESCAPE_WATCH_EXPIRY (R125). -/
  | escapeWatchExpiry
  /-- DWELL_TIMER_EXPIRY (R153). -/
  | dwellTimerExpiry (channel : BitVec 2)
  /-- FIRE_INSTANT (R172). -/
  | fireInstant
  /-- TIMELINE_INSTANT (R176). -/
  | timelineInstant
  /-- AWAIT_TIMEOUT (R178). -/
  | awaitTimeout
  /-- UPTIME_TICK (R211): one millisecond passes, after which the mechanism sensors stand at these levels. -/
  | uptimeTick (sensors : Sensors)
  /-- RLINE_EDGE (R113): an edge that ends a level which lasted `micros` microseconds. -/
  | rlineEdge (rising : Bool) (micros : Nat)
  /-- HOST_READ (R197). -/
  | hostRead (addr : Address) (gap : Bool)
  /-- RESET_ASSERTED (R199). -/
  | resetAsserted
  deriving DecidableEq, Repr

end Sys2Proof
end

