-- ==== Sys2Proof/Config.lean ====
section
/-! DEFINITION. What one build of the model fixes. The part's spec leaves no result of a command undefined, so there
is no opaque free value here (NOTES.md, Assumptions); what stands here are the constants the model needs and the
spec either states or leaves to the board. -/

namespace Sys2Proof.Config

/-- What a RAM byte reads as that nothing has written. The spec says the RAM "may hold anything" before the host's
first write (R195). DESIGN CHOICE, unsafe: assumption log 2. -/
def blankByte : Byte := 0

/-- How many internal notices one command carries out at most. The spec's cascades end by themselves far below it.
DESIGN CHOICE: assumption log 4. -/
def cascadeFuel : Nat := 512

/-- Records of the cue store (R193). -/
def cueRecords : Nat := 3968

/-- Offset of the status block in the show window (R193). -/
def statusOffset : Nat := 0x0100

/-- Offset of the event ring in the show window (R193). -/
def ringOffset : Nat := 0x0200

/-- Offset of the curve tables in the show window (R193). -/
def curveOffset : Nat := 0x0600

/-- Offset of the key map in the show window (R193). -/
def keyMapOffset : Nat := 0x0700

/-- Offset of the first cue record in the show window (R193). -/
def cueOffset : Nat := 0x0800

/-- The host-cycle count at which the PU holds the next host cycle (R197). -/
def holdLimit : Nat := 8

end Sys2Proof.Config
end

