-- ==== Sys2Proof/Machine/State.lean ====
section
/-! DEFINITION. The state of the part, block by block (00_scope.md, section 2: "Each block owns its state"), as plain
data, and the state right after reset. Input levels stand in the record of the block that reads the pin. A value the
spec does not keep ("none") is an Option or, where the rule keeps the last value for a report, the plain last value. -/

namespace Sys2Proof.Machine

/-! ## Shared vocabulary -/

/-- A timer: none when not running, otherwise the milliseconds left. Each UPTIME_TICK takes one away; a timer at 0
has run out and waits for its expiry to be taken (assumption log 5). -/
abbrev Timer := Option Nat

/-- The five request origins at the arbiter, in rank order (07, table; R129). -/
inductive Source where
  | directive | cue | remote | tape | run
  deriving DecidableEq, Repr

/-- The kind of a slide request with the target or step it carries (R4, R129). -/
inductive OpKind where
  | changeTo (slot : Nat)
  | moveBy (step : Int)
  | home
  | clearGate
  deriving DecidableEq, Repr

/-- A request record in a pending slot (R129). -/
structure Request where
  kind  : OpKind
  level : BitVec 2
  deriving DecidableEq, Repr

/-- The operation record of a grant and of the in-service record (R4, R129). -/
structure Operation where
  kind   : OpKind
  source : Source
  level  : BitVec 2
  deriving DecidableEq, Repr

/-- The outcomes of a slide request, numbered 0 to 9 in this order (07, section 7.5). -/
inductive OpOutcome where
  | done | emptySlot | preempted | abortedCutoff | jammed
  | refusedUnhomed | refusedNoTray | outOfTray | discarded | withdrawn
  deriving DecidableEq, Repr

/-- The results of a directive, numbered 0 to 5 in this order (R207). -/
inductive Result where
  | done | clamped | badOperand | refusedState | refusedBusy | unknownCode
  deriving DecidableEq, Repr

/-- The causes of cutoff, numbered 0 to 7 in this order (04, section 4.1). -/
inductive Cause where
  | overheat | thermostat | interlock | trayLost | fanStall | trayJam | forced | remoteStop
  deriving DecidableEq, Repr

/-- The events of the ring (10, section 10.10). -/
inductive Event where
  | changeDone | emptySlot | liftRetry | seatRetry | jam | positionSlip | trayInserted | trayRemoved | trayCodeBad
  | homed | darkenLate
  | lampLit | lampOff | lampFail | lampExchanged | strikeDeferred | derateBegin | derateEnd
  | fanStall | cooldownDone
  | cutoffEnter | cutoffCauseAdded | cutoffCleared | clearRefused
  | cueDecoded | cueInvalid | cueOverrun | toneStuck | tapeEnd | tapeStall | locateDone | cueWritten | cueMismatch
  | frameError | key | remoteStop
  | preempted | requestsDiscarded
  | runTc | runRange
  | showStarted | showEnded | showHalted | pathMiss | stageInvalidated | loopTableFull | awaitTimeout | cueLate | mark
  | directiveAbandoned | strayOperand | partReset
  deriving DecidableEq, Repr

/-! ## Tray Mechanism Controller (01) -/

/-- Mechanism state, reported as 0 to 8 in this order (01, section 1.2; line 1). -/
inductive MechState where
  | noTray | unhomed | ready | darken | lift | turn | drop | settle | jammed
  deriving DecidableEq, Repr

/-- Gate content (R3). -/
inductive Gate where
  | empty | loaded
  deriving DecidableEq, Repr

/-- The tray motor drive TMOT (01, pin table). -/
inductive Motor where
  | unpowered | forward | reverse | braked
  deriving DecidableEq, Repr

/-- The tray selection of the Cutoff Unit, 0 to 2 in this order (04, section 4.3). -/
inductive TraySelection where
  | brake | free | ignore
  deriving DecidableEq, Repr

/-- State of the Tray Mechanism Controller. -/
structure Tmc where
  /-- TCODE1-TCODE0 as last read (R1). -/
  tcode : BitVec 2
  /-- Sensor levels (THOME, LTOP, GSEAT, GSLIDE). -/
  sensors : Sensors
  state : MechState
  /-- Tray size N, 0 for none (R1). -/
  n : Nat
  /-- Position count; kept only while homed (R2). -/
  p : Nat
  homed : Bool
  homing : Bool
  gate : Gate
  motor : Motor
  /-- LIFT drive. -/
  lifter : Bool
  /-- Display: three BCD digits, 0xFFF for dashes (R21). -/
  display : BitVec 12
  /-- Target of the operation in service, kept after it ends; none reports 0xFF (R4). -/
  target : Option Nat
  /-- Operation in service. -/
  op : Option Operation
  /-- The operation was granted in UNHOMED (R12). -/
  fromUnhomed : Bool
  /-- The cycle began from a dark gate (R24). -/
  fromDark : Bool
  /-- A darken request is standing: made and not yet released (R7, R29). -/
  darkenStanding : Bool
  /-- The operation's one lift retry is used (R8). -/
  liftRetried : Bool
  /-- The operation's one seat retry is used (R10). -/
  seatRetried : Bool
  /-- A preempting operation recorded in TURN waits for the next arrival (R23). -/
  redirect : Bool
  /-- Arrivals counted in the homing turn (R15). -/
  arrivals : Nat
  /-- An unclean loss stands since the last valid tray (R72). -/
  uncleanLoss : Bool
  /-- The tray imposition in force: BRAKE or FREE while cut off, otherwise none (R24, R25). -/
  imposition : Option TraySelection
  liftRetryCount : Nat
  seatRetryCount : Nat
  /-- Change profile: out time in ms, in time in ms, blackout level (R27). -/
  outTime : Nat
  inTime : Nat
  blackout : Nat
  darkenLimit : Timer
  liftTimer : Timer
  lowerTimer : Timer
  positionTimer : Timer
  dropTimer : Timer
  settleTimer : Timer
  deriving DecidableEq, Repr

/-! ## Lamp Controller (02) -/

/-- Lamp state, reported as 0 to 5 in this order (02, section 2.1; line 2). -/
inductive LampState where
  | off | waitCool | striking | lit | exchange | failed
  deriving DecidableEq, Repr

/-- The two lamps. -/
inductive Lamp where
  | a | b
  deriving DecidableEq, Repr

/-- A fade record (R42); `elapsed` is t. -/
structure Fade where
  start : Nat
  target : Nat
  curve : Nat
  duration : Nat
  elapsed : Nat
  deriving DecidableEq, Repr

/-- The stored fade (R43). -/
structure StoredFade where
  target : Nat
  curve : Nat
  duration : Nat
  deriving DecidableEq, Repr

/-- A strike in progress (R35); `ramp` is the value of the last lamp update. -/
structure Strike where
  target : Nat
  elapsed : Nat
  ramp : Nat
  deriving DecidableEq, Repr

/-- Phase of the blackout hold, reported as 0 to 2 in this order (02, section 2.5). -/
inductive Hold where
  | none | darkening | held
  deriving DecidableEq, Repr

/-- The lamp imposition (02, section 2.6). -/
inductive LampImposition where
  | none | cap | off
  deriving DecidableEq, Repr

/-- State of the Lamp Controller. -/
structure Lc where
  /-- LCUR present. -/
  lcur : Bool
  state : LampState
  active : Lamp
  goodA : Bool
  goodB : Bool
  restrike : Bool
  /-- The restrike intent was cleared by LAMP_OFF or an imposition during the move (R38). -/
  moveCleared : Bool
  output : Nat
  fadeLevel : Nat
  showLevel : Nat
  ceiling : Nat
  derate : Nat
  fade : Option Fade
  stored : Option StoredFade
  strike : Option Strike
  /-- The 1500 ms changer move (R38). -/
  moveTimer : Timer
  /-- The 100 ms failure watch (R36). -/
  failureWatch : Timer
  hold : Hold
  /-- The recorded blackout level b (R46). -/
  holdLevel : Option Nat
  /-- A blackout report sent and not yet taken by the TMC (R7, R47). -/
  report : Bool
  /-- In time of a release held over from a strike (R50). -/
  heldRelease : Option Nat
  imposition : LampImposition
  /-- The cutoff cap: b as CHANGE_PROFILE had set it at the change to CAP (R51). -/
  capLevel : Nat
  /-- The cap stays after a change from CAP to NONE until entry to LIT (R51). -/
  capLingers : Bool
  /-- H (R52). -/
  h : Nat
  lampGain : Nat
  fanGain : Nat
  derateStart : Nat
  overheatLevel : Nat
  restrikeMax : Nat
  overheat : Bool
  /-- The four curve tables, point j of curve k at 64 * k + j (R45). -/
  curves : List Byte
  /-- Milliseconds to the next lamp update (2 ms period). -/
  lampPhase : Timer
  /-- Milliseconds to the next heat update (100 ms period). -/
  heatPhase : Timer
  deriving DecidableEq, Repr

/-! ## Fan Controller (03) -/

/-- Fan state, reported as 0 to 4 in this order (03, section 3.4; line 3). -/
inductive FanState where
  | stopped | spinup | running | cooldown | stalled
  deriving DecidableEq, Repr

/-- State of the Fan Controller (03, section 3.1). -/
structure Fc where
  state : FanState
  demand : Nat
  /-- F. -/
  speed : Nat
  pulses : Nat
  grace : Nat
  stallWindows : Nat
  minimum : Nat
  coolDone : Nat
  /-- The fan imposition is FULL. -/
  full : Bool
  /-- Milliseconds to the end of the measurement window (250 ms). -/
  windowPhase : Timer
  deriving DecidableEq, Repr

/-! ## Cutoff Unit (04) -/

/-- The lamp selection, 0 to 2 in this order (04, section 4.3). -/
inductive LampSelection where
  | off | holdBlackout | ignore
  deriving DecidableEq, Repr

/-- State of the Cutoff Unit (R73, R74). -/
structure Cu where
  flag : Bool
  /-- The cause set, cause n in bit n (10, section 10.7). -/
  causes : Byte
  enables : Byte
  lampSel : LampSelection
  traySel : TraySelection
  /-- Tape selection: true for IGNORE. -/
  tapeIgnore : Bool
  /-- Audio selection: true for IGNORE. -/
  audioIgnore : Bool
  /-- Fan selection: true for IGNORE. -/
  fanIgnore : Bool
  /-- Present values of the four level causes (R72). THERMOSTAT and INTERLOCK are the filtered inputs (R73). -/
  overheat : Bool
  thermostat : Bool
  interlock : Bool
  trayLost : Bool
  /-- The lamp imposition last handed to the LC (R77). -/
  lampHanded : LampImposition
  /-- Raw inputs THSW active, ILOCK open. -/
  thswRaw : Bool
  ilockRaw : Bool
  thswTimer : Timer
  ilockTimer : Timer
  deriving DecidableEq, Repr

/-! ## Tape Transport Controller (05) -/

/-- Transport state, reported as 0 to 6 in this order (05, section 5.1; line 5). -/
inductive Transport where
  | stopped | playing | recording | windFwd | windRev | locating | braking
  deriving DecidableEq, Repr

/-- Motion direction (R89). -/
inductive Direction where
  | none | forward | reverse
  deriving DecidableEq, Repr

/-- A request that moves the tape (R89, R90). -/
inductive TapeRequest where
  | play
  | record
  | wind (reverse : Bool)
  | locate (target : Half)
  deriving DecidableEq, Repr

/-- Decoder state (05, section 5.5). -/
inductive CueDecoder where
  | quiet | tone | gap | stuck | resync | off
  deriving DecidableEq, Repr

/-- Cue class, numbered 0 to 3 in this order (05, section 5.5). -/
inductive CueClass where
  | advance | reverse | mark | stop
  deriving DecidableEq, Repr

/-- An entry of the cue FIFO (R105). -/
structure CueEntry where
  cls : CueClass
  startCount : Half
  ending : Word
  deriving DecidableEq, Repr

/-- Route mode, 0 to 2 in this order (R103). -/
inductive RouteMode where
  | toShow | direct | off
  deriving DecidableEq, Repr

/-- Burst writer (05, section 5.8). -/
inductive Writer where
  | idle
  | tone (cls : CueClass)
  | quiet
  deriving DecidableEq, Repr

/-- A ramp of the current audio level (R108): from `start` to `target` over `time` ms, `steps` steps taken. -/
structure Ramp where
  start : Nat
  target : Nat
  time : Nat
  steps : Nat
  elapsed : Nat
  deriving DecidableEq, Repr

/-- State of the Tape Transport Controller. -/
structure Ttc where
  /-- TEND active. -/
  tend : Bool
  /-- CUEIN high. -/
  cuein : Bool
  state : Transport
  direction : Direction
  latched : Option TapeRequest
  counter : Half
  locateTarget : Option Half
  brakingTimer : Timer
  stallWatch : Timer
  /-- Pulses counted in the leader allowance, none when it does not run (R97). -/
  leader : Option Nat
  decoder : CueDecoder
  burstStart : Word
  burstCount : Half
  lastFall : Word
  gapTimer : Timer
  stuckTimer : Timer
  /-- The stuck timer has expired in GAP: a rising edge is tone past 800 ms (R101). -/
  past800 : Bool
  fifo : List CueEntry
  route : RouteMode
  /-- MARK channel, none for 0xFF (R103). -/
  markChannel : Option (BitVec 2)
  writer : Writer
  writerTimer : Timer
  /-- S. -/
  setLevel : Nat
  /-- A. -/
  level : Nat
  ramp : Option Ramp
  /-- Tape imposition STOP. -/
  stopImposed : Bool
  /-- Audio imposition MUTE. -/
  muteImposed : Bool
  deriving DecidableEq, Repr

/-! ## Remote Receiver (06) -/

/-- Receiver state with the bits received, oldest first (06, section 6.1). -/
inductive Receiver where
  | resync
  | listen
  | start
  | space (bits : List Bool)
  | bit (bits : List Bool)
  deriving DecidableEq, Repr

/-- The held key (06, section 6.3). -/
structure HeldKey where
  key : BitVec 5
  toggle : Bool
  consumed : Bool
  deriving DecidableEq, Repr

/-- Focus state (R124). -/
inductive Focus where
  | stopped | inward | outward
  deriving DecidableEq, Repr

/-- Limit side (R125). -/
inductive LimitSide where
  | unknown | inward | outward
  deriving DecidableEq, Repr

/-- State of the Remote Receiver. -/
structure Rr where
  /-- RLINE high. -/
  rline : Bool
  /-- FLIM active. -/
  flim : Bool
  receiver : Receiver
  lowLimit : Timer
  frameEnd : Timer
  idleTimer : Timer
  unit : BitVec 4
  enabled : Bool
  held : Option HeldKey
  releaseTimer : Timer
  repeatTimer : Timer
  lastKey : Byte
  errors : Nat
  /-- The key-map shadow, field f of entry k at 4 * k + f (R120). -/
  keyMap : List Byte
  focus : Focus
  limitSide : LimitSide
  escapeWatch : Timer
  deriving DecidableEq, Repr

/-! ## Change Arbiter (07) -/

/-- One value for each of the five sources. -/
structure PerSource (α : Type) where
  directive : α
  cue : α
  remote : α
  tape : α
  run : α
  deriving DecidableEq, Repr

/-- State of the Change Arbiter (R129). The request flag of a source is set exactly while its slot holds a record. -/
structure Ca where
  slots : PerSource (Option Request)
  masks : PerSource Bool
  levels : PerSource (BitVec 2)
  inService : Option Operation
  deriving DecidableEq, Repr

/-! ## Run Channel Unit (08) -/

/-- A run channel's record (08, section 8.1). -/
structure Channel where
  baseSlot : Nat
  baseCount : Nat
  slot : Nat
  count : Nat
  /-- Direction DOWN. -/
  down : Bool
  /-- Mode DEMAND. -/
  demand : Bool
  /-- Dwell in units of 100 ms. -/
  dwell : Nat
  reload : Bool
  mask : Bool
  tc : Bool
  range : Bool
  request : Bool
  armed : Bool
  dwellTimer : Timer
  deriving DecidableEq, Repr

/-- One value for each of the four channels. -/
structure PerChannel (α : Type) where
  c0 : α
  c1 : α
  c2 : α
  c3 : α
  deriving DecidableEq, Repr

/-- A marker: the channel it names and its detached flag (R149). -/
structure RunMarker where
  channel : BitVec 2
  detached : Bool
  deriving DecidableEq, Repr

/-- State of the Run Channel Unit (R148, R149). -/
structure Rcu where
  channels : PerChannel Channel
  /-- Order mode ROTATING. -/
  rotating : Bool
  pointer : BitVec 2
  pendingMarker : Option RunMarker
  serviceMarker : Option RunMarker
  deriving DecidableEq, Repr

/-! ## Cue Engine (09) -/

/-- Show state, reported as 0 to 4 in this order (09, section 9.2; line 9). -/
inductive ShowState where
  | idle | running | paused | halted | ended
  deriving DecidableEq, Repr

/-- Halt reason, numbered 0 to 5 in this order (R166). -/
inductive HaltReason where
  | none | badRecord | range | cutoff | refused | jammed
  deriving DecidableEq, Repr

/-- Phase of the current record (09, section 9.3). -/
inductive Phase where
  | loading | waiting | held | fired
  deriving DecidableEq, Repr

/-- Branch tag (R176). -/
inductive BranchTag where
  | sequential | next | alt
  deriving DecidableEq, Repr

/-- An entry of the staging queue (R184). -/
structure StagedEntry where
  index : Nat
  copy : List Byte
  valid : Bool
  tag : BranchTag
  deriving DecidableEq, Repr

/-- An entry of the loop table (R177). -/
structure LoopEntry where
  index : Nat
  remaining : Nat
  deriving DecidableEq, Repr

/-- An entry of the outcome memory; `timedOut` is the outcome TIMEOUT (R183). -/
structure MemoryEntry where
  index : Nat
  timedOut : Bool
  deriving DecidableEq, Repr

/-- State of the Cue Engine (R166). -/
structure Ce where
  showState : ShowState
  reason : HaltReason
  /-- Current index, 0xFFFF for none. -/
  index : Nat
  clock : Word
  leadOn : Bool
  /-- Extra lead time in units of 10 ms. -/
  leadExtra : Nat
  lateMax : Nat
  pathMiss : Nat
  /-- The staging queue; entry 0 is the current record. -/
  queue : List StagedEntry
  phase : Phase
  /-- The start instant S of the current record (R171). -/
  startInstant : Word
  /-- The timeline instant T of a due record (R172, R178). -/
  timelineInstant : Word
  /-- The fire instant from which a due record's lateness is measured (R174). -/
  dueInstant : Word
  /-- The fired copy (R171). -/
  fired : List Byte
  /-- The await was resolved by its timeout (R178). -/
  timedOut : Bool
  loops : List LoopEntry
  memory : List MemoryEntry
  /-- Pending marker and its stale flag (R175). -/
  pendingMarker : Option Bool
  /-- In-service marker and its stale flag (R175). -/
  serviceMarker : Option Bool
  deriving DecidableEq, Repr

/-! ## Passage Unit (10) -/

/-- The two own-cycle requesters (10, section 10.4). -/
inductive Requester where
  | cueEngine | reportWriter
  deriving DecidableEq, Repr

/-- An own cycle in progress; `live` is false once its request was withdrawn or replaced (R196). -/
structure OwnCycle where
  requester : Requester
  offset : Nat
  /-- The byte of a write; none for a read. -/
  data : Option Byte
  live : Bool
  deriving DecidableEq, Repr

/-- A waiting write request of the Report Writer (R196). -/
structure WriteRequest where
  offset : Nat
  data : Byte
  deriving DecidableEq, Repr

/-- State of the Passage Unit. -/
structure Pu where
  /-- Window base (R193). -/
  base : Address
  /-- RESET asserted (R199). -/
  inReset : Bool
  /-- The Cue Engine's waiting read, by offset: it stands before the Report Writer's (R196). -/
  ceRequest : Option Nat
  /-- The Report Writer's waiting write. -/
  rwRequest : Option WriteRequest
  own : Option OwnCycle
  /-- Wait count (R197). -/
  waitCount : Nat
  /-- The host has begun its next cycle with no gap, so the bus is not free. -/
  hostBusy : Bool
  /-- The last host cycle was held at its start with HRDY inactive. -/
  held : Bool
  /-- The byte returned on HD by the last host read (R192). -/
  hostData : Byte
  deriving DecidableEq, Repr

/-! ## Directive Decoder (11) -/

/-- State of the Directive Decoder (R203); `collecting` is the state COLLECTING. -/
structure Dd where
  collecting : Bool
  openCode : Byte
  buffer : List Byte
  expected : Nat
  received : Nat
  lastCode : Byte
  lastResult : Byte
  taken : Byte
  deriving DecidableEq, Repr

/-! ## Report Writer (12) -/

/-- An event entry (R213). -/
structure Entry where
  event : Event
  arg : Half
  uptime : Word
  deriving DecidableEq, Repr

/-- What the RW holds for one status line (R211). -/
structure LineRecord where
  dirty : Bool
  full : Bool
  guard : Byte
  image : List Byte
  deriving DecidableEq, Repr

/-- What the RW is writing: a status line with its snapshot, or a ring entry (R212, R214). -/
inductive JobKind where
  | line (number : Nat) (snapshot : List Byte)
  | entry
  deriving DecidableEq, Repr

/-- A write in progress: the byte writes still to complete, the first of them asked of the PU. -/
structure Job where
  kind : JobKind
  todo : List WriteRequest
  deriving DecidableEq, Repr

/-- State of the Report Writer. -/
structure Rw where
  uptime : Word
  /-- Ring write index W. -/
  writeIndex : BitVec 7
  /-- Ring read index R. -/
  readIndex : BitVec 7
  dropped : Nat
  buffer : List Entry
  /-- Lines 0 to 10. -/
  lines : List LineRecord
  /-- The line last written (R211). -/
  lastLine : Nat
  /-- When both wait, a ring entry is taken next (R212). -/
  entryNext : Bool
  job : Option Job
  deriving DecidableEq, Repr

/-! ## Notices between the blocks -/

/-- The notices and requests the blocks make of each other (00_scope.md, section 2.1). `log` and `dirty` reach the
Report Writer at the instant they are made; the others are taken in the order they were made. -/
inductive Notice where
  /-- An event entry handed to the RW (R213). -/
  | log (event : Event) (arg : Half)
  /-- A changed field marks its line (R211). -/
  | dirty (line : Nat)
  /-- A deposit at the CA (R130). -/
  | deposit (source : Source) (kind : OpKind)
  /-- A selection is due at the CA (R135). -/
  | select
  /-- An operation record handed back with its outcome (R28, R139). -/
  | outcome (op : Operation) (result : OpOutcome)
  /-- Cutoff entry, told to the CA with the tray selection (R143). -/
  | arbiterCutoff (sel : TraySelection)
  /-- The CE's withdrawal of the CUE request (R145). -/
  | withdraw
  /-- An outcome delivered to a source (R138). -/
  | deliver (source : Source) (result : OpOutcome)
  /-- The slot-empty notice (R132). -/
  | slotEmpty (source : Source)
  /-- Darken request to the LC with out time and blackout level (R7, R46). -/
  | darken (outTime level : Nat)
  /-- Snap request (R48). -/
  | snap
  /-- Release with the in time (R49). -/
  | release (inTime : Nat)
  /-- Change of the lamp imposition (R51). -/
  | lampImposition (imposition : LampImposition)
  /-- A cue lamp action: a fade to start now, or a return fade to store (R43, R173). -/
  | lampAction (now : Bool) (level curve duration : Nat)
  /-- The LC reports H, DS and whether the lamp is active, and the FC computes the demand afresh from them (R61). -/
  | fanCompute (h ds : Nat) (active : Bool)
  /-- The fan imposition (R80). -/
  | fanImposition (full : Bool)
  /-- A level cause is reported present or absent (R72). -/
  | levelCause (cause : Cause) (present : Bool)
  /-- An edge cause is raised (R72). -/
  | edgeCause (cause : Cause)
  /-- Cutoff entry with the tray selection BRAKE or FREE, to the TMC (R78). -/
  | trayCutoff (sel : TraySelection)
  /-- The clear, told to the TMC (R78). -/
  | trayClear
  /-- The tape imposition (R79). -/
  | tapeImposition (stop : Bool)
  /-- The audio imposition (R79). -/
  | audioImposition (mute : Bool)
  /-- A play request of a cue action (R89). -/
  | tapePlay
  /-- A stop request of a cue action or of a STOP cue (R89). -/
  | tapeStop
  /-- The cue action AUDIO (R108). -/
  | audioAction (level : Nat)
  /-- The remote's WRITE_CUE action (R106). -/
  | writeCue (cls : CueClass)
  /-- A trigger of a run channel (R152). -/
  | runTrigger (channel : BitVec 2)
  /-- A terminal-count notice (R160). -/
  | terminalCount (channel : BitVec 2)
  /-- A cue has joined the FIFO (R179). -/
  | fifoJoined
  /-- The record that has just entered WAITING, or a resumed one, is looked at (R168, R171). -/
  | progress
  /-- The lead, or the out time, has changed under a waiting DELAY (R172). -/
  | refire
  /-- Cutoff entry, told to the CE (R81). -/
  | showCutoff
  /-- The CE asks for a read cycle at this offset, in place of any it has asked for (R184, R196). -/
  | askRead (offset : Nat)
  /-- The CE withdraws its read request (R196). -/
  | dropRead
  deriving DecidableEq, Repr

/-! ## The whole part -/

/-- The part: its RAM, its twelve blocks, the notices not yet carried out and the commands not yet taken. -/
structure State where
  /-- The RAM on the part's bus: (address, byte) pairs in canonical form (Memory.wf). -/
  mem : List Host.Cell
  pu : Pu
  dd : Dd
  rw : Rw
  ce : Ce
  ca : Ca
  rcu : Rcu
  tmc : Tmc
  lc : Lc
  fc : Fc
  cu : Cu
  ttc : Ttc
  rr : Rr
  /-- MODEL: notices made and not yet taken; empty between commands (assumption log 4). -/
  notices : List Notice
  /-- MODEL: the commands waiting, first in first out. -/
  pending : List Instr
  deriving DecidableEq, Repr

/-- Why the block faults. -/
inductive Fault where
  /-- Raised by CUE_STORE_WRITE of a record index of 3968 or more: the store holds 3,968 records (R193), so there is
  no such address in it. Safe: no claim about a later state is made. -/
  | noSuchCueRecord
  deriving DecidableEq, Repr

/-- Why the block refuses. -/
inductive Refusal where
  /-- Raised by the dispatcher for a row that has no meaning yet; no row is in that case. Safe. -/
  | notModelled (mnemonic : String)
  deriving DecidableEq, Repr

/-! ## Reset -/

/-- The sensors as State.reset takes them: none active (assumption log 3). -/
def Sensors.quiet : Sensors := ⟨false, false, false, false⟩

/-- The TMC after POR with an empty tray well (R29). -/
def Tmc.reset : Tmc where
  tcode := 0
  sensors := Sensors.quiet
  state := .noTray
  n := 0
  p := 0
  homed := false
  homing := false
  gate := .empty
  motor := .unpowered
  lifter := false
  display := 0xFFF
  target := none
  op := none
  fromUnhomed := false
  fromDark := false
  darkenStanding := false
  liftRetried := false
  seatRetried := false
  redirect := false
  arrivals := 0
  uncleanLoss := false
  imposition := none
  liftRetryCount := 0
  seatRetryCount := 0
  outTime := 150
  inTime := 200
  blackout := 16
  darkenLimit := none
  liftTimer := none
  lowerTimer := none
  positionTimer := none
  dropTimer := none
  settleTimer := none

/-- The linear table C[j] = floor(j * 255 / 63) of every curve after POR (R45). -/
def linearCurves : List Byte :=
  let table := (List.range 64).map fun j => byteOf (j * 255 / 63)
  table ++ table ++ table ++ table

/-- The LC after POR (R57). -/
def Lc.reset : Lc where
  lcur := false
  state := .off
  active := .a
  goodA := true
  goodB := true
  restrike := false
  moveCleared := false
  output := 0
  fadeLevel := 0
  showLevel := 900
  ceiling := 1023
  derate := 1023
  fade := none
  stored := none
  strike := none
  moveTimer := none
  failureWatch := none
  hold := .none
  holdLevel := none
  report := false
  heldRelease := none
  imposition := .none
  capLevel := 0
  capLingers := false
  h := 12288
  lampGain := 32
  fanGain := 8
  derateStart := 19968
  overheatLevel := 28160
  restrikeMax := 8192
  overheat := false
  curves := linearCurves
  lampPhase := some 2
  heatPhase := some 100

/-- The FC after POR: the demand computed from H = 12,288 with the lamp OFF is 193 (R70). -/
def Fc.reset : Fc where
  state := .spinup
  demand := 193
  speed := 0
  pulses := 0
  grace := 4
  stallWindows := 0
  minimum := 96
  coolDone := 3072
  full := false
  windowPhase := some 250

/-- The CU after POR with the lid shut and the thermostat inactive (R87). -/
def Cu.reset : Cu where
  flag := false
  causes := 0
  enables := 0xFF
  lampSel := .off
  traySel := .brake
  tapeIgnore := false
  audioIgnore := false
  fanIgnore := false
  overheat := false
  thermostat := false
  interlock := false
  trayLost := false
  lampHanded := .none
  thswRaw := false
  ilockRaw := false
  thswTimer := none
  ilockTimer := none

/-- The TTC after POR with CUEIN low (R111). -/
def Ttc.reset : Ttc where
  tend := false
  cuein := false
  state := .stopped
  direction := .none
  latched := none
  counter := 0
  locateTarget := none
  brakingTimer := none
  stallWatch := none
  leader := none
  decoder := .quiet
  burstStart := 0
  burstCount := 0
  lastFall := 0
  gapTimer := none
  stuckTimer := none
  past800 := false
  fifo := []
  route := .toShow
  markChannel := none
  writer := .idle
  writerTimer := none
  setLevel := 192
  level := 192
  ramp := none
  stopImposed := false
  muteImposed := false

/-- The default key map (R120): action, argument, policy and interval of keys 0 to 31. -/
def defaultKeyMap : List Byte :=
  [1, 0, 1, 5,  2, 0, 1, 5,  6, 0, 1, 0,  7, 0, 1, 0,  5, 0, 0, 0,  8, 0, 0, 0,  11, 0, 0, 0] ++ List.replicate 100 0

/-- The RR after POR with RLINE high (R127). -/
def Rr.reset : Rr where
  rline := true
  flim := false
  receiver := .resync
  lowLimit := none
  frameEnd := none
  idleTimer := some 3
  unit := 0
  enabled := true
  held := none
  releaseTimer := none
  repeatTimer := none
  lastKey := 0xFF
  errors := 0
  keyMap := defaultKeyMap
  focus := .stopped
  limitSide := .unknown
  escapeWatch := none

/-- The CA after POR (R146). -/
def Ca.reset : Ca where
  slots := ⟨none, none, none, none, none⟩
  masks := ⟨false, false, false, false, false⟩
  levels := ⟨0, 1, 1, 2, 2⟩
  inService := none

/-- The master-cleared state of a channel (R162). -/
def Channel.cleared : Channel where
  baseSlot := 1
  baseCount := 0
  slot := 1
  count := 0
  down := false
  demand := false
  dwell := 10
  reload := false
  mask := true
  tc := false
  range := false
  request := false
  armed := false
  dwellTimer := none

/-- The RCU after POR and PRST (R163). -/
def Rcu.reset : Rcu where
  channels := ⟨Channel.cleared, Channel.cleared, Channel.cleared, Channel.cleared⟩
  rotating := false
  pointer := 0
  pendingMarker := none
  serviceMarker := none

/-- The CE after POR and PRST (R191). -/
def Ce.reset : Ce where
  showState := .idle
  reason := .none
  index := 0xFFFF
  clock := 0
  leadOn := true
  leadExtra := 10
  lateMax := 0
  pathMiss := 0
  queue := []
  phase := .loading
  startInstant := 0
  timelineInstant := 0
  dueInstant := 0
  fired := []
  timedOut := false
  loops := []
  memory := []
  pendingMarker := none
  serviceMarker := none

/-- The PU at the release of RESET with both straps low (R193, R199). -/
def Pu.reset : Pu where
  base := 0x40000
  inReset := false
  ceRequest := none
  rwRequest := none
  own := none
  waitCount := 0
  hostBusy := false
  held := false
  hostData := 0

/-- The DD after POR (R210). -/
def Dd.reset : Dd where
  collecting := false
  openCode := 0
  buffer := []
  expected := 0
  received := 0
  lastCode := 0
  lastResult := 0xFF
  taken := 0

/-- A status line's record after POR (R215). -/
def LineRecord.reset : LineRecord where
  dirty := true
  full := true
  guard := 0
  image := List.replicate 14 0

/-- The RW after POR (R215). -/
def Rw.reset : Rw where
  uptime := 0
  writeIndex := 0
  readIndex := 0
  dropped := 0
  buffer := []
  lines := List.replicate 11 LineRecord.reset
  lastLine := 10
  entryNext := false
  job := none

/-- The part right after power-on reset, with the input levels of assumption log 3, RAM in which nothing has been
written and no command waiting. -/
def State.reset : State where
  mem := []
  pu := Pu.reset
  dd := Dd.reset
  rw := Rw.reset
  ce := Ce.reset
  ca := Ca.reset
  rcu := Rcu.reset
  tmc := Tmc.reset
  lc := Lc.reset
  fc := Fc.reset
  cu := Cu.reset
  ttc := Ttc.reset
  rr := Rr.reset
  notices := []
  pending := []

end Sys2Proof.Machine
end

