-- ==== Sys2Proof/Machine/Flags.lean ====
section
/-! DEFINITION. Every code number, packed byte and status field the host sees (10_memory_passage_and_window_formats.md,
sections 10.6, 10.7, 10.9 and 10.10), the availability and presence flags the blocks read of each other, and the
output pins as functions of the state. -/

namespace Sys2Proof.Machine

/-- Two bytes, low byte first (00_scope.md, "Byte order"). -/
def le16 (n : Nat) : List Byte := [byteOf n, byteOf (n / 256)]

/-- Four bytes, low byte first. -/
def le32 (n : Nat) : List Byte := [byteOf n, byteOf (n / 256), byteOf (n / 65536), byteOf (n / 16777216)]

/-- An argument written as two items: the first in the high byte, the second in the low byte (10, section 10.10). -/
def argPair (hi lo : Nat) : Half := halfOf ((hi % 256) * 256 + lo % 256)

/-- A flag as a number. -/
def flagNat (b : Bool) : Nat := if b then 1 else 0

/-- A flag in bit `n` of a byte. -/
def flagBit (b : Bool) (n : Nat) : Nat := if b then 2 ^ n else 0

/-! ## Numbers of the named values -/

/-- A source's number, rank and bit (07, table; R129). -/
def Source.number : Source → Nat
  | .directive => 0 | .cue => 1 | .remote => 2 | .tape => 3 | .run => 4

/-- The five sources in rank order. -/
def Source.all : List Source := [.directive, .cue, .remote, .tape, .run]

/-- Outcome numbers (07, section 7.5). -/
def OpOutcome.number : OpOutcome → Nat
  | .done => 0 | .emptySlot => 1 | .preempted => 2 | .abortedCutoff => 3 | .jammed => 4
  | .refusedUnhomed => 5 | .refusedNoTray => 6 | .outOfTray => 7 | .discarded => 8 | .withdrawn => 9

/-- Result numbers (R207). -/
def Result.number : Result → Byte
  | .done => 0 | .clamped => 1 | .badOperand => 2 | .refusedState => 3 | .refusedBusy => 4 | .unknownCode => 5

/-- Cause numbers (04, section 4.1). -/
def Cause.number : Cause → Nat
  | .overheat => 0 | .thermostat => 1 | .interlock => 2 | .trayLost => 3
  | .fanStall => 4 | .trayJam => 5 | .forced => 6 | .remoteStop => 7

/-- A cause's bit of the cause byte (10, section 10.7). -/
def Cause.bit (c : Cause) : Byte := byteOf (2 ^ c.number)

/-- The four level causes in number order (04, section 4.1). -/
def Cause.levels : List Cause := [.overheat, .thermostat, .interlock, .trayLost]

/-- The heat causes (04, section 4.1). -/
def Cause.heat : List Cause := [.overheat, .thermostat, .fanStall]

def MechState.number : MechState → Nat
  | .noTray => 0 | .unhomed => 1 | .ready => 2 | .darken => 3 | .lift => 4 | .turn => 5 | .drop => 6 | .settle => 7
  | .jammed => 8

def Gate.number : Gate → Nat
  | .empty => 0 | .loaded => 1

def LampState.number : LampState → Nat
  | .off => 0 | .waitCool => 1 | .striking => 2 | .lit => 3 | .exchange => 4 | .failed => 5

def Lamp.number : Lamp → Nat
  | .a => 0 | .b => 1

def Hold.number : Hold → Nat
  | .none => 0 | .darkening => 1 | .held => 2

def FanState.number : FanState → Nat
  | .stopped => 0 | .spinup => 1 | .running => 2 | .cooldown => 3 | .stalled => 4

def LampSelection.number : LampSelection → Nat
  | .off => 0 | .holdBlackout => 1 | .ignore => 2

def TraySelection.number : TraySelection → Nat
  | .brake => 0 | .free => 1 | .ignore => 2

def Transport.number : Transport → Nat
  | .stopped => 0 | .playing => 1 | .recording => 2 | .windFwd => 3 | .windRev => 4 | .locating => 5 | .braking => 6

def CueClass.number : CueClass → Nat
  | .advance => 0 | .reverse => 1 | .mark => 2 | .stop => 3

def RouteMode.number : RouteMode → Nat
  | .toShow => 0 | .direct => 1 | .off => 2

def ShowState.number : ShowState → Nat
  | .idle => 0 | .running => 1 | .paused => 2 | .halted => 3 | .ended => 4

def HaltReason.number : HaltReason → Nat
  | .none => 0 | .badRecord => 1 | .range => 2 | .cutoff => 3 | .refused => 4 | .jammed => 5

/-- Failure kinds of a remote frame (R116). -/
def FrameFailure.number : FrameFailure → Nat
  | .startPulse => 1 | .bitPulse => 2 | .space => 3 | .stuckLow => 4 | .length => 5 | .check => 6

/-- Event codes (10, section 10.10). -/
def Event.code : Event → Byte
  | .changeDone => 0x10 | .emptySlot => 0x11 | .liftRetry => 0x12 | .seatRetry => 0x13 | .jam => 0x14
  | .positionSlip => 0x15 | .trayInserted => 0x16 | .trayRemoved => 0x17 | .trayCodeBad => 0x18 | .homed => 0x19
  | .darkenLate => 0x1A
  | .lampLit => 0x20 | .lampOff => 0x21 | .lampFail => 0x22 | .lampExchanged => 0x23 | .strikeDeferred => 0x24
  | .derateBegin => 0x25 | .derateEnd => 0x26
  | .fanStall => 0x30 | .cooldownDone => 0x31
  | .cutoffEnter => 0x38 | .cutoffCauseAdded => 0x39 | .cutoffCleared => 0x3A | .clearRefused => 0x3B
  | .cueDecoded => 0x40 | .cueInvalid => 0x41 | .cueOverrun => 0x42 | .toneStuck => 0x43 | .tapeEnd => 0x44
  | .tapeStall => 0x45 | .locateDone => 0x46 | .cueWritten => 0x47 | .cueMismatch => 0x48
  | .frameError => 0x50 | .key => 0x51 | .remoteStop => 0x52
  | .preempted => 0x58 | .requestsDiscarded => 0x59
  | .runTc => 0x60 | .runRange => 0x61
  | .showStarted => 0x68 | .showEnded => 0x69 | .showHalted => 0x6A | .pathMiss => 0x6B | .stageInvalidated => 0x6C
  | .loopTableFull => 0x6D | .awaitTimeout => 0x6E | .cueLate => 0x6F | .mark => 0x70
  | .directiveAbandoned => 0x78 | .strayOperand => 0x79 | .partReset => 0x7E

/-- The block byte of an event entry (10, section 10.10). -/
def Event.block : Event → Byte
  | .directiveAbandoned | .strayOperand => 1
  | .partReset => 2
  | .cueMismatch | .showStarted | .showEnded | .showHalted | .pathMiss | .stageInvalidated | .loopTableFull
  | .awaitTimeout | .cueLate | .mark => 3
  | .preempted | .requestsDiscarded => 4
  | .runTc | .runRange => 5
  | .changeDone | .emptySlot | .liftRetry | .seatRetry | .jam | .positionSlip | .trayInserted | .trayRemoved
  | .trayCodeBad | .homed | .darkenLate => 6
  | .lampLit | .lampOff | .lampFail | .lampExchanged | .strikeDeferred | .derateBegin | .derateEnd => 7
  | .fanStall | .cooldownDone => 8
  | .cutoffEnter | .cutoffCauseAdded | .cutoffCleared | .clearRefused => 9
  | .cueDecoded | .cueInvalid | .cueOverrun | .toneStuck | .tapeEnd | .tapeStall | .locateDone | .cueWritten => 10
  | .frameError | .key | .remoteStop => 11

/-- The eight bytes of a ring slot (10, section 10.10). -/
def Entry.bytes (e : Entry) : List Byte :=
  [e.event.code, e.event.block] ++ le16 e.arg.toNat ++ le32 e.uptime.toNat

/-! ## Packed bytes (10, section 10.7) -/

/-- The source byte of a per-source flag. -/
def PerSource.byte (f : PerSource Bool) : Nat :=
  flagBit f.directive 0 + flagBit f.cue 1 + flagBit f.remote 2 + flagBit f.tape 3 + flagBit f.run 4

/-- The pending set: the sources whose request flag is set (R129). -/
def Ca.pendingSet (ca : Ca) : PerSource Bool :=
  ⟨ca.slots.directive.isSome, ca.slots.cue.isSome, ca.slots.remote.isSome, ca.slots.tape.isSome, ca.slots.run.isSome⟩

/-- Level byte 0. -/
def Ca.levelByte0 (ca : Ca) : Nat :=
  ca.levels.directive.toNat + 4 * ca.levels.cue.toNat + 16 * ca.levels.remote.toNat + 64 * ca.levels.tape.toNat

/-- Level byte 1. -/
def Ca.levelByte1 (ca : Ca) : Nat := ca.levels.run.toNat

/-- Selection byte 0. -/
def Cu.selection0 (cu : Cu) : Nat := cu.lampSel.number + 4 * cu.traySel.number

/-- Selection byte 1. -/
def Cu.selection1 (cu : Cu) : Nat := flagBit cu.tapeIgnore 0 + flagBit cu.audioIgnore 1 + flagBit cu.fanIgnore 2

/-- The channel flags byte. -/
def Channel.flags (c : Channel) : Nat :=
  flagBit c.mask 0 + flagBit c.tc 1 + flagBit c.range 2 + flagBit c.request 3 + flagBit c.armed 4 + flagBit c.demand 5 +
    flagBit c.down 6 + flagBit c.reload 7

/-- The remote byte. -/
def Rr.remoteByte (rr : Rr) : Nat := rr.unit.toNat + flagBit rr.enabled 7

/-! ## Reported fields of the mechanism -/

/-- p as reported and as the second item of event arguments: 0xFF while not homed (R2). -/
def Tmc.reportedP (t : Tmc) : Nat := if t.homed then t.p else 0xFF

/-- The target field, 0xFF before the first operation (R4). -/
def Tmc.reportedTarget (t : Tmc) : Nat := t.target.getD 0xFF

/-- The in-service source field (R4). -/
def Tmc.reportedSource (t : Tmc) : Nat := (t.op.map fun o => o.source.number).getD 0xFF

/-- The in-service level field (R4). -/
def Tmc.reportedLevel (t : Tmc) : Nat := (t.op.map fun o => o.level.toNat).getD 0xFF

/-! ## Status lines (10, section 10.9; R201) -/

/-- The three bytes of a channel in lines 7 and 8. -/
def Channel.lineBytes (c : Channel) : List Byte := [byteOf c.slot, byteOf c.count, byteOf c.flags]

/-- Data bytes that the table gives no field read 0 (R201). -/
def unassigned (n : Nat) : List Byte := List.replicate n 0

/-- The fourteen data bytes, bytes 1 to 14, of a status line. -/
def State.lineData (s : State) : Nat → List Byte
  | 0 => [0x46, 0x01, byteOf (flagNat s.dd.collecting), s.dd.lastCode, s.dd.lastResult, s.dd.taken,
      byteOf s.rw.writeIndex.toNat, byteOf s.rw.dropped] ++ le32 s.rw.uptime.toNat ++ unassigned 2
  | 1 => [byteOf s.tmc.state.number, byteOf s.tmc.gate.number, byteOf (flagNat s.tmc.homed), byteOf s.tmc.n,
      byteOf s.tmc.reportedP, byteOf s.tmc.reportedTarget] ++ le16 s.tmc.display.toNat ++
      [byteOf s.tmc.reportedSource, byteOf s.tmc.reportedLevel, byteOf s.tmc.liftRetryCount,
        byteOf s.tmc.seatRetryCount] ++ unassigned 2
  | 2 => [byteOf s.lc.state.number, byteOf s.lc.active.number,
      byteOf (flagBit s.lc.goodA 0 + flagBit s.lc.goodB 1)] ++ le16 s.lc.output ++ le16 s.lc.showLevel ++
      le16 s.lc.ceiling ++ le16 s.lc.derate ++ [byteOf s.lc.hold.number] ++ unassigned 2
  | 3 => le16 s.lc.h ++ [byteOf s.fc.state.number, byteOf s.fc.demand, byteOf s.fc.speed, byteOf s.fc.stallWindows] ++
      unassigned 8
  | 4 => [byteOf (flagNat s.cu.flag), s.cu.causes, s.cu.enables, byteOf s.cu.selection0, byteOf s.cu.selection1] ++
      unassigned 9
  | 5 => [byteOf s.ttc.state.number] ++ le16 s.ttc.counter.toNat ++
      [byteOf s.ttc.fifo.length, byteOf s.ttc.route.number,
        byteOf ((s.ttc.markChannel.map fun c => c.toNat).getD 0xFF), byteOf s.ttc.setLevel, byteOf s.ttc.level] ++
      unassigned 6
  | 6 => [s.rr.lastKey, byteOf s.rr.errors, byteOf s.rr.remoteByte, byteOf s.ca.pendingSet.byte,
      byteOf s.ca.masks.byte, byteOf s.ca.levelByte0, byteOf s.ca.levelByte1] ++ unassigned 7
  | 7 => s.rcu.channels.c0.lineBytes ++ s.rcu.channels.c1.lineBytes ++ unassigned 8
  | 8 => s.rcu.channels.c2.lineBytes ++ s.rcu.channels.c3.lineBytes ++ unassigned 8
  | 9 => [byteOf s.ce.showState.number, byteOf s.ce.reason.number] ++ le16 s.ce.index ++ le32 s.ce.clock.toNat ++
      unassigned 6
  | 10 => [byteOf s.ce.queue.length, byteOf s.ce.loops.length] ++ le16 s.ce.pathMiss ++ le16 s.ce.lateMax ++
      unassigned 8
  | _ => unassigned 14

/-! ## Flags the blocks read of each other -/

/-- The TMC is available: READY, UNHOMED or NO_TRAY (R4). -/
def Tmc.available (t : Tmc) : Bool := t.state == .ready || t.state == .unhomed || t.state == .noTray

/-- The TMC accepts a preemption: in DARKEN, and in a TURN that is not a homing turn (R22). -/
def Tmc.preemptible (t : Tmc) : Bool := t.state == .darken || (t.state == .turn && !t.homing)

/-- A CHANGE_PROFILE is refused in the five phases of a cycle (R27). -/
def Tmc.inCycle (t : Tmc) : Bool :=
  t.state == .darken || t.state == .lift || t.state == .turn || t.state == .drop || t.state == .settle

/-- The lamp is active for the fan: STRIKING, LIT and EXCHANGE (03, section 3.3). -/
def Lc.lampActive (lc : Lc) : Bool := lc.state == .striking || lc.state == .lit || lc.state == .exchange

/-- A cause is enabled (R74). -/
def Cu.enabled (cu : Cu) (c : Cause) : Bool := cu.enables &&& c.bit != 0

/-- A cause is in the cause set (R74). -/
def Cu.inSet (cu : Cu) (c : Cause) : Bool := cu.causes &&& c.bit != 0

/-- A level cause is present; an edge cause has no standing value (R72). -/
def Cu.present (cu : Cu) : Cause → Bool
  | .overheat => cu.overheat
  | .thermostat => cu.thermostat
  | .interlock => cu.interlock
  | .trayLost => cu.trayLost
  | _ => false

/-- The transport is in a moving state (R89). -/
def Transport.moving : Transport → Bool
  | .playing | .recording | .windFwd | .windRev | .locating => true
  | .stopped | .braking => false

/-- The show is RUNNING or PAUSED. -/
def Ce.active (ce : Ce) : Bool := ce.showState == .running || ce.showState == .paused

/-! ## Output pins -/

/-- What one digit of the display shows (R21). -/
inductive Segment where
  | blank
  | dash
  | digit (value : Nat)
  deriving DecidableEq, Repr

/-- LPWM: the duty follows the output level (R31, R41). -/
def State.lpwm (s : State) : Nat := s.lc.output

/-- LSEL: the lamp at the focal point (R31). -/
def State.lsel (s : State) : Lamp := s.lc.active

/-- FPWM: the duty follows the demand, 0 for no drive (R63). -/
def State.fpwm (s : State) : Nat := s.fc.demand

/-- TPLAY: driven in PLAYING and RECORDING (05, section 5.1). -/
def State.tplay (s : State) : Bool := s.ttc.state == .playing || s.ttc.state == .recording

/-- TREC: driven in RECORDING (05, section 5.1). -/
def State.trec (s : State) : Bool := s.ttc.state == .recording

/-- TFWD: driven in WIND_FWD and in a forward locate (05, section 5.1). -/
def State.tfwd (s : State) : Bool :=
  s.ttc.state == .windFwd || (s.ttc.state == .locating && s.ttc.direction == .forward)

/-- TREV: driven in WIND_REV and in a reverse locate (05, section 5.1). -/
def State.trev (s : State) : Bool :=
  s.ttc.state == .windRev || (s.ttc.state == .locating && s.ttc.direction == .reverse)

/-- CUEOUT: driven in the writer's TONE (R106). -/
def State.cueout (s : State) : Bool :=
  match s.ttc.writer with
  | .tone _ => true
  | _ => false

/-- AVOL: the current audio level last shifted out (R108). -/
def State.avol (s : State) : Nat := s.ttc.level

/-- FIN: driven in focus state IN (R124). -/
def State.fin (s : State) : Bool := s.rr.focus == .inward

/-- FOUT: driven in focus state OUT (R124). -/
def State.fout (s : State) : Bool := s.rr.focus == .outward

/-- TMOT: the tray motor drive (01). -/
def State.tmot (s : State) : Motor := s.tmc.motor

/-- LIFT: the lifter drive (01). -/
def State.liftDrive (s : State) : Bool := s.tmc.lifter

/-- One digit of a display value; `k` is 2 for the hundreds, 1 for the tens and 0 for the ones. -/
def displayDigit (d : BitVec 12) (k : Nat) : Nat := d.toNat / 16 ^ k % 16

/-- What DSEG shows of a display value at one digit: a dash, nothing for a leading zero, or the digit. The ones are
never blanked, since position 0 shows "0" (R21). -/
def displaySegment (d : BitVec 12) (k : Nat) : Segment :=
  if d = 0xFFF then .dash
  else if 0 < k ∧ d.toNat / 16 ^ k = 0 then .blank
  else .digit (displayDigit d k)

/-- DSEG: the three digits as they are driven, hundreds first, leading zeros blanked (R21). Line 1 reports the value
itself. -/
def State.dseg (s : State) : List Segment :=
  [displaySegment s.tmc.display 2, displaySegment s.tmc.display 1, displaySegment s.tmc.display 0]

end Sys2Proof.Machine
end

