-- ==== Sys2Proof/Machine/Operands.lean ====
section
/-! DEFINITION. How operand bytes, cue records and key-map entries are read (10_memory_passage_and_window_formats.md,
sections 10.6 to 10.8 and 10.11): sizes, signs, packed fields and the range each owner's rule gives. -/

namespace Sys2Proof.Machine

/-- A 16-bit operand from its two bytes, low byte first (R206). -/
def word16 (lo hi : Byte) : Nat := lo.toNat + 256 * hi.toNat

/-- Bit `n` of a byte. -/
def bitOf (b : Byte) (n : Nat) : Bool := b.getLsbD n

/-- The step of MOVE_BY, clamped to -9..+9 (R26). -/
def clampStep (k : Int) : Int := max (-9) (min 9 k)

/-- The lamp selection of selection byte 0; the fourth value is unassigned (R82). -/
def lampSelection? (b : Byte) : Option LampSelection :=
  match b.toNat % 4 with
  | 0 => some .off
  | 1 => some .holdBlackout
  | 2 => some .ignore
  | _ => none

/-- The tray selection of selection byte 0; the fourth value is unassigned (R82). -/
def traySelection? (b : Byte) : Option TraySelection :=
  match b.toNat / 4 % 4 with
  | 0 => some .brake
  | 1 => some .free
  | 2 => some .ignore
  | _ => none

/-- A cue class operand, 0..3 (R106). -/
def cueClass? (n : Nat) : Option CueClass :=
  match n with
  | 0 => some .advance
  | 1 => some .reverse
  | 2 => some .mark
  | 3 => some .stop
  | _ => none

/-- A route mode operand, 0..2 (R103). -/
def routeMode? (n : Nat) : Option RouteMode :=
  match n with
  | 0 => some .toShow
  | 1 => some .direct
  | 2 => some .off
  | _ => none

/-- A MARK channel operand: 0..3, or 0xFF for none; any other value is out of range (R103). -/
def markChannel? (b : Byte) : Option (Option (BitVec 2)) :=
  if b = 0xFF then some none
  else if b.toNat < 4 then some (some (BitVec.ofNat 2 b.toNat))
  else none

/-! ## The cue record (10, section 10.8; R200) -/

/-- Byte `k` of a record. -/
def recByte (r : List Byte) (k : Nat) : Nat := (r.getD k 0).toNat

/-- The two-byte field at `k`, little-endian. -/
def recHalf (r : List Byte) (k : Nat) : Nat := recByte r k + 256 * recByte r (k + 1)

/-- FORM: 0 END, 1 DELAY, 2 AWAIT_TAPE, 3 AWAIT_KEY, 4 AWAIT_RUN, 5 AWAIT_GO. -/
def recForm (r : List Byte) : Nat := recByte r 0 % 16

/-- SLIDEOP: 0 none, 1 GOTO, 2 STEP, 3 CLEAR. -/
def recSlideOp (r : List Byte) : Nat := recByte r 0 / 16

def recWaitArg (r : List Byte) : Nat := recByte r 1
def recTime (r : List Byte) : Nat := recHalf r 2
def recSlideArg (r : List Byte) : Nat := recByte r 4
/-- SLIDEARG of a STEP, read as a signed byte. -/
def recStep (r : List Byte) : Int := (r.getD 4 0).toInt
def recRepeat (r : List Byte) : Nat := recByte r 5
def recLampLevel (r : List Byte) : Nat := recHalf r 6
def recLampCurve (r : List Byte) : Nat := recByte r 8
def recLampTime (r : List Byte) : Nat := recByte r 9
/-- EXTRAOP: 0 none, 1 TAPE_PLAY, 2 TAPE_STOP, 3 AUDIO, 4 RUN_TRIGGER, 5 MARK. -/
def recExtraOp (r : List Byte) : Nat := recByte r 10
def recExtraArg (r : List Byte) : Nat := recByte r 11
def recNext (r : List Byte) : Nat := recHalf r 12
def recAlt (r : List Byte) : Nat := recHalf r 14

/-- The record has a slide action (R172). -/
def recHasSlide (r : List Byte) : Bool := recSlideOp r != 0

/-- The record has a lamp action (R173). -/
def recHasLamp (r : List Byte) : Bool := recLampLevel r != 0xFFFF

/-- The record is an END (R164). -/
def recIsEnd (r : List Byte) : Bool := recForm r == 0

/-- The record is a DELAY (R164). -/
def recIsDelay (r : List Byte) : Bool := recForm r == 1

/-- The record is an await (R164). -/
def recIsAwait (r : List Byte) : Bool := decide (2 ≤ recForm r)

/-- The record is bad (R165). -/
def recBad (r : List Byte) : Bool :=
  decide (6 ≤ recForm r) ||
  (!recIsEnd r &&
    ((recIsAwait r && decide (0 < recRepeat r)) ||
     ((recForm r == 2 || recForm r == 4) && decide (3 < recWaitArg r)) ||
     (recForm r == 3 && decide (31 < recWaitArg r)) ||
     decide (3 < recSlideOp r) ||
     (recSlideOp r == 2 && (decide (recStep r < -9) || decide (9 < recStep r))) ||
     (decide (1024 ≤ recLampLevel r) && decide (recLampLevel r ≤ 0xFFFE)) ||
     (recHasLamp r && decide (4 < recLampCurve r)) ||
     decide (5 < recExtraOp r) ||
     (recExtraOp r == 4 && decide (3 < recExtraArg r))))

/-- The request kind of the record's slide action (R173). -/
def recSlideKind (r : List Byte) : OpKind :=
  match recSlideOp r with
  | 1 => .changeTo (recSlideArg r)
  | 2 => .moveBy (recStep r)
  | _ => .clearGate

/-- NEXT with 0xFFFF standing for the following record, and its branch tag (R164, R176). -/
def recNextIndex (i : Nat) (r : List Byte) : Nat × BranchTag :=
  if recNext r = 0xFFFF then (i + 1, .sequential) else (recNext r, .next)

/-- ALT with 0xFFFF standing for the following record, tagged ALT (R164, R176). -/
def recAltIndex (i : Nat) (r : List Byte) : Nat × BranchTag :=
  (if recAlt r = 0xFFFF then i + 1 else recAlt r, .alt)

/-! ## The key-map entry (10, section 10.11; R120) -/

/-- A key's map entry. -/
structure KeyEntry where
  action : Nat
  argument : Nat
  policy : Nat
  interval : Nat
  deriving DecidableEq, Repr

/-- The entry of a key in the shadow. -/
def Rr.entry (rr : Rr) (key : BitVec 5) : KeyEntry where
  action := (rr.keyMap.getD (4 * key.toNat) 0).toNat
  argument := (rr.keyMap.getD (4 * key.toNat + 1) 0).toNat
  policy := (rr.keyMap.getD (4 * key.toNat + 2) 0).toNat
  interval := (rr.keyMap.getD (4 * key.toNat + 3) 0).toNat

/-- An inert entry acts like action NONE (R120). -/
def KeyEntry.inert (e : KeyEntry) : Bool := decide (11 < e.action) || decide (2 < e.policy)

/-- The entry's action, NONE when it is inert (R120). -/
def KeyEntry.effective (e : KeyEntry) : Nat := if e.inert then 0 else e.action

/-! ## The remote frame (R115) -/

/-- A field of the received bits, least significant first: `width` bits from bit `lo` up. -/
def frameField (bits : List Bool) (lo width : Nat) : Nat :=
  ((bits.drop lo).take width).foldr (fun b acc => (if b then 1 else 0) + 2 * acc) 0

/-- The number of 1 bits among the first ten, mod 4 (R115). -/
def frameCheck (bits : List Bool) : Nat := (bits.take 10).count true % 4

end Sys2Proof.Machine
end

