-- ==== Sys2Proof/Machine/Ops.lean ====
section
/-! DEFINITION. The shared operations: RAM bytes, timers, handing entries and dirty marks to the Report Writer, posting
notices, and replacing one block's record with what its handler answered. Taking an exception is not asked of a block:
the part has none (INVENTORY.md, Faults). -/

namespace Sys2Proof.Machine

/-! ## RAM -/

/-- The byte the RAM holds at an address; an unlisted address reads `Config.blankByte`. -/
def Memory.read : List Host.Cell → Nat → Byte
  | [], _ => Config.blankByte
  | (a, v) :: rest, k => if a = k then v else Memory.read rest k

/-- A byte written to the RAM, keeping the canonical form (R192). -/
def Memory.write : List Host.Cell → Nat → Byte → List Host.Cell
  | [], k, v => if v = Config.blankByte then [] else [(k, v)]
  | (a, w) :: rest, k, v =>
    if k < a then (if v = Config.blankByte then (a, w) :: rest else (k, v) :: (a, w) :: rest)
    else if k = a then (if v = Config.blankByte then rest else (k, v) :: rest)
    else (a, w) :: Memory.write rest k v

/-- The canonical form from an address up: addresses rise strictly from `lo`, stay inside HA19 to HA0, and no entry
holds what an unlisted address reads as. -/
def Memory.wfFrom : Nat → List Host.Cell → Bool
  | _, [] => true
  | lo, (a, v) :: rest => decide (lo ≤ a) && decide (a < 1048576) && v != Config.blankByte && Memory.wfFrom (a + 1) rest

/-- The canonical form of the RAM list. -/
def Memory.wf (m : List Host.Cell) : Bool := Memory.wfFrom 0 m

/-- The address of a window offset on the RAM bus (R193). -/
def Pu.address (pu : Pu) (offset : Nat) : Nat := (pu.base + BitVec.ofNat 20 offset).toNat

/-! ## Timers -/

/-- One millisecond passes. -/
def Timer.tick (t : Timer) : Timer := t.map (· - 1)

/-- The timer runs and its time has passed, so its expiry may be taken (assumption log 5). -/
def Timer.due (t : Timer) : Bool := t == some 0

/-! ## Show-clock instants, compared by difference (R166) -/

/-- `now` is at or past `instant`. -/
def reached (now instant : Word) : Bool := !(now - instant).msb

/-! ## The Report Writer's two inlets -/

/-- An event entry is handed over: stamped and buffered, or dropped and counted when eight wait (R213). -/
def Rw.handOver (rw : Rw) (event : Event) (arg : Half) : Rw :=
  if rw.buffer.length < 8 then { rw with buffer := rw.buffer ++ [⟨event, arg, rw.uptime⟩] }
  else { rw with dropped := min 255 (rw.dropped + 1) }

/-- A status line is marked dirty (R211). -/
def Rw.markDirty (rw : Rw) (line : Nat) : Rw :=
  { rw with lines := rw.lines.modify line fun l => { l with dirty := true } }

/-! ## Posting notices -/

/-- One notice: `log` and `dirty` reach the RW at once, the others join the queue. -/
def State.post1 (s : State) (n : Notice) : State :=
  match n with
  | .log e arg => { s with rw := s.rw.handOver e arg }
  | .dirty line => { s with rw := s.rw.markDirty line }
  | n => { s with notices := s.notices ++ [n] }

/-- Notices in the order they were made. -/
def State.post (s : State) (ns : List Notice) : State := ns.foldl State.post1 s

/-- Every line whose fields differ from before is marked dirty (R211: "A block that changes a field marks the line
dirty at the instant of the change"). Where a field changes and changes back inside one act, or a rule marks a line whose
fields stand, the definition that does it posts `dirty` itself (assumption log 4). -/
def State.markChanged (before after : State) : State :=
  let mark (rw : Rw) (n : Nat) : Rw := if before.lineData n = after.lineData n then rw else rw.markDirty n
  { after with rw := (List.range 11).foldl mark after.rw }

/-- An act with its dirty marks. -/
def State.act (s : State) (f : State → State) : State := State.markChanged s (f s)

/-! ## Replacing a block's record with its handler's answer -/

/-- What a block's handler answers: its new record and the notices it makes. -/
abbrev Reaction (α : Type) := α × List Notice

/-- One reaction after another, the notices in order. -/
def Reaction.andThen {α : Type} (r : Reaction α) (f : α → Reaction α) : Reaction α :=
  let next := f r.1
  (next.1, r.2 ++ next.2)

def State.putTmc (s : State) (r : Reaction Tmc) : State := ({ s with tmc := r.1 }).post r.2

/-- The LC's notice to the FC when its lamp group, H or DS has changed, with what it reports at that instant (R61: "the H,
the DS and the lamp state last reported"): one computation for one act of the LC, also where the act changes more than
one of them (assumption log 32). -/
def Lc.fanNotices (before after : Lc) : List Notice :=
  if before.lampActive = after.lampActive ∧ before.h = after.h ∧ before.derateStart = after.derateStart then []
  else [.fanCompute after.h after.derateStart after.lampActive]

def State.putLc (s : State) (r : Reaction Lc) : State :=
  ({ s with lc := r.1 }).post (r.2 ++ Lc.fanNotices s.lc r.1)

def State.putFc (s : State) (r : Reaction Fc) : State := ({ s with fc := r.1 }).post r.2

def State.putCu (s : State) (r : Reaction Cu) : State := ({ s with cu := r.1 }).post r.2

def State.putTtc (s : State) (r : Reaction Ttc) : State := ({ s with ttc := r.1 }).post r.2

def State.putRr (s : State) (r : Reaction Rr) : State := ({ s with rr := r.1 }).post r.2

def State.putCa (s : State) (r : Reaction Ca) : State := ({ s with ca := r.1 }).post r.2

def State.putRcu (s : State) (r : Reaction Rcu) : State := ({ s with rcu := r.1 }).post r.2

def State.putCe (s : State) (r : Reaction Ce) : State := ({ s with ce := r.1 }).post r.2

/-! ## Per-source and per-channel values -/

def PerSource.get {α : Type} (f : PerSource α) : Source → α
  | .directive => f.directive
  | .cue => f.cue
  | .remote => f.remote
  | .tape => f.tape
  | .run => f.run

def PerSource.set {α : Type} (f : PerSource α) (s : Source) (v : α) : PerSource α :=
  match s with
  | .directive => { f with directive := v }
  | .cue => { f with cue := v }
  | .remote => { f with remote := v }
  | .tape => { f with tape := v }
  | .run => { f with run := v }

def PerSource.map {α β : Type} (f : PerSource α) (g : Source → α → β) : PerSource β :=
  ⟨g .directive f.directive, g .cue f.cue, g .remote f.remote, g .tape f.tape, g .run f.run⟩

def PerChannel.get {α : Type} (f : PerChannel α) (c : BitVec 2) : α :=
  match c.toNat with
  | 0 => f.c0
  | 1 => f.c1
  | 2 => f.c2
  | _ => f.c3

def PerChannel.set {α : Type} (f : PerChannel α) (c : BitVec 2) (v : α) : PerChannel α :=
  match c.toNat with
  | 0 => { f with c0 := v }
  | 1 => { f with c1 := v }
  | 2 => { f with c2 := v }
  | _ => { f with c3 := v }

def PerChannel.map {α β : Type} (f : PerChannel α) (g : BitVec 2 → α → β) : PerChannel β :=
  ⟨g 0 f.c0, g 1 f.c1, g 2 f.c2, g 3 f.c3⟩

/-- The status line that shows a channel: line 7 for channels 0 and 1, line 8 for 2 and 3 (R148). -/
def channelLine (c : BitVec 2) : Nat := if c.toNat < 2 then 7 else 8

/-- A count that saturates at a limit. -/
def satInc (limit n : Nat) : Nat := min limit (n + 1)

end Sys2Proof.Machine
end

