-- ==== Sys2Proof/Machine/Tray.lean ====
section
/-! DEFINITION. The Tray Mechanism Controller (01_the_slide_change_mechanism.md): each function takes the block's record
and answers its new record with the notices it makes. -/

namespace Sys2Proof.Machine

/-! ## Tray code, display and directions -/

/-- The tray size of a tray code, 0 for no tray and for the invalid code (R1). -/
def codeSize (c : BitVec 2) : Nat := if c = 1 then 80 else if c = 2 then 120 else 0

/-- The BCD form of a position (R21). -/
def bcd (n : Nat) : BitVec 12 := BitVec.ofNat 12 (n / 100 * 256 + n / 10 % 10 * 16 + n % 10)

/-- The display showing dashes (R21). -/
def dashes : BitVec 12 := 0xFFF

/-- One up in BCD with decimal adjust (R21). -/
def bcdUp (d : BitVec 12) : BitVec 12 :=
  let raw := d.toNat + 1
  let low := if 9 < raw % 16 then raw + 6 else raw
  BitVec.ofNat 12 (if 9 < low / 16 % 16 then low + 96 else low)

/-- One down in BCD with decimal adjust (R21). -/
def bcdDown (d : BitVec 12) : BitVec 12 :=
  let raw := d.toNat - 1
  let low := if d.toNat % 16 = 0 then raw - 6 else raw
  BitVec.ofNat 12 (if d.toNat % 16 = 0 ∧ d.toNat / 16 % 16 = 0 then low - 96 else low)

/-- The direction of a turn from `p` to `target` on a ring of `n + 1` positions (R9). -/
def turnDirection (p target n : Nat) : Motor :=
  let d := (target + (n + 1) - p) % (n + 1)
  if d ≤ (n + 1) - d then .forward else .reverse

/-- The count one position on in the driven direction, wrapping on the ring (R2). -/
def Tmc.stepP (t : Tmc) : Nat :=
  if t.motor = .reverse then (if t.p = 0 then t.n else t.p - 1)
  else if t.p = t.n then 0 else t.p + 1

/-- The display one position on (R21). -/
def Tmc.stepDisplay (t : Tmc) : BitVec 12 :=
  if t.motor = .reverse then (if t.p = 0 then bcd t.n else bcdDown t.display)
  else if t.p = t.n then 0 else bcdUp t.display

/-- The position count and the display one position on; both are kept only while homed (R2, R21). -/
def Tmc.count (t : Tmc) : Tmc := if t.homed then { t with p := t.stepP, display := t.stepDisplay } else t

/-- The drive of a tray motor at rest: braked while cutoff holds it braked, otherwise unpowered (R24, R25). -/
def Tmc.rest (t : Tmc) : Motor := if t.imposition = some .brake then .braked else .unpowered

/-- The gate content the sensors show (R3). -/
def Tmc.sampleGate (t : Tmc) : Gate := if t.sensors.gslide then .loaded else .empty

/-- TRAY_LOST is present while the code is 11, and from an unclean loss until the next insertion (R72). -/
def Tmc.trayLost (t : Tmc) : Bool := t.tcode == 3 || t.uncleanLoss

/-- All six timers cancelled. -/
def Tmc.stopTimers (t : Tmc) : Tmc :=
  { t with darkenLimit := none, liftTimer := none, lowerTimer := none, positionTimer := none, dropTimer := none,
           settleTimer := none }

/-- The homed flag cleared: the display shows dashes (R21). -/
def Tmc.unhome (t : Tmc) : Tmc := { t with homed := false, display := dashes }

/-- The target of a CHANGE_TO or MOVE_BY, taken against the present p (R5). -/
def Tmc.resolve (t : Tmc) : OpKind → Nat
  | .changeTo s => s
  | .moveBy k => (((t.p : Int) + k) % ((t.n : Int) + 1)).toNat
  | _ => 0

/-- The kind of the operation in service. -/
def Tmc.opKind (t : Tmc) : Option OpKind := t.op.map (·.kind)

/-! ## Endings -/

/-- The operation ends with its events and its outcome, handed over with the operation record (R28). -/
def Tmc.conclude (t : Tmc) (result : OpOutcome) (events : List Notice) : Reaction Tmc :=
  match t.op with
  | none => (t, events)
  | some op => ({ t with op := none, redirect := false }, events ++ [.outcome op result])

/-- The end of an operation with no DROP phase (R12). A CLEAR_GATE leaves a driven lifter driven; the hold stays. Any other
operation removes the drive here, a change to 0 that had no phase but DARKEN among them, for which R12 names no instant of
removal (DESIGN CHOICE, assumption log 37). -/
def Tmc.endNoDrop (t : Tmc) : Reaction Tmc :=
  let clear := t.opKind == some .clearGate
  Tmc.conclude
    { t with state := if clear && t.fromUnhomed then .unhomed else .ready, motor := .unpowered,
             lifter := clear && t.lifter, positionTimer := none }
    .done [.log .changeDone (argPair t.reportedSource t.reportedP)]

/-- The short path: DONE at once (R6). The source and the level in service come and go within it, so line 1 is marked dirty
outright (R4). -/
def Tmc.shortPath (t : Tmc) : Reaction Tmc :=
  Tmc.conclude { t with state := .ready } .done [.dirty 1, .log .changeDone (argPair t.reportedSource t.reportedP)]

/-- The mechanism jams (R13). TRAY_JAM is raised before the outcome is handed over, so with TRAY_JAM enabled the Cue Engine
takes the cutoff entry before the JAMMED outcome of a CUE change, an order that R13 gives for the raising and not for the
taking (DESIGN CHOICE, assumption log 41). -/
def Tmc.jam (t : Tmc) : Reaction Tmc :=
  Tmc.conclude
    (Tmc.unhome { t.stopTimers with state := .jammed, motor := t.rest, lifter := false, homing := false })
    .jammed [.edgeCause .trayJam, .log .jam (argPair t.reportedSource t.reportedP)]

/-! ## The phases of a cycle -/

/-- DARKEN is entered: the darken request is made and the darken limit starts (R7). -/
def Tmc.enterDarken (t : Tmc) : Reaction Tmc :=
  ({ t with state := .darken, darkenLimit := some 1000, darkenStanding := true }, [.darken t.outTime t.blackout])

/-- DROP ends and SETTLE begins (R10, R11). -/
def Tmc.enterSettle (t : Tmc) (g : Gate) : Tmc :=
  { t with state := .settle, gate := g, dropTimer := none, settleTimer := some 40 }

/-- DROP is entered; a GSEAT already active ends it (R10). -/
def Tmc.enterDrop (t : Tmc) : Tmc :=
  let t := { t with state := .drop, lifter := false, motor := .unpowered, positionTimer := none }
  if t.sensors.gseat then t.enterSettle .loaded else { t with dropTimer := some 300 }

/-- TURN ends at the target: DROP, unless the target is 0 (R9, R12). -/
def Tmc.turnEnd (t : Tmc) : Reaction Tmc :=
  let t := { t with motor := .unpowered, positionTimer := none }
  if t.target = some 0 then t.endNoDrop else (t.enterDrop, [])

/-- TURN toward the target in the direction of R9, with the lifter driven and a fresh position timer. -/
def Tmc.enterTurn (t : Tmc) : Tmc :=
  { t with state := .turn, lifter := true, motor := turnDirection t.p (t.target.getD 0) t.n, positionTimer := some 250 }

/-- Homing finds THOME active (R14, R17): p is 0 and the mechanism is homed. A HOME ends; a turn that had become a
homing turn goes on toward its own target. -/
def Tmc.homingFound (t : Tmc) : Reaction Tmc :=
  let logged := Notice.log .homed (argPair t.reportedSource 0)
  let t := { t with motor := .unpowered, p := 0, homed := true, homing := false, display := 0, positionTimer := none,
                    redirect := false }
  match t.opKind with
  | some .home => Tmc.conclude { t with state := .ready, lifter := false } .done [logged]
  | some .clearGate => let r := t.endNoDrop; (r.1, logged :: r.2)
  | _ =>
    if t.target = some 0 then let r := t.turnEnd; (r.1, logged :: r.2)
    else (t.enterTurn, [logged])

/-- The tray turns forward in a homing turn, its arrivals counted afresh (R14, R15). -/
def Tmc.turnHoming (t : Tmc) : Tmc :=
  { t with state := .turn, lifter := true, motor := .forward, positionTimer := some 250, arrivals := 0, redirect := false }

/-- The start of a HOME's homing turn: THOME is sampled first (R14). -/
def Tmc.startHoming (t : Tmc) : Reaction Tmc :=
  if t.sensors.thome then t.homingFound else (t.turnHoming, [])

/-- What follows a gate that is EMPTY, with the plan of R5, R12 and R14. -/
def Tmc.afterLift (t : Tmc) : Reaction Tmc :=
  match t.opKind with
  | some .home => t.startHoming
  | some .clearGate => t.endNoDrop
  | _ => if t.target = some t.p then t.turnEnd else (t.enterTurn, [])

/-- LIFT ends: the gate is EMPTY (R8). -/
def Tmc.liftDone (t : Tmc) : Reaction Tmc :=
  Tmc.afterLift { t with liftTimer := none, lowerTimer := none, gate := .empty }

/-- LIFT is entered, or its drive is given again: the lifter is driven and a fresh lift timer starts; an LTOP already
active ends it (R8). -/
def Tmc.enterLift (t : Tmc) : Reaction Tmc :=
  let t := { t with state := .lift, lifter := true, lowerTimer := none, dropTimer := none }
  if t.sensors.ltop then t.liftDone else ({ t with liftTimer := some 400 }, [])

/-- The blackout report ends DARKEN (R7). -/
def Tmc.endDarken (t : Tmc) : Reaction Tmc :=
  let t := { t with darkenLimit := none }
  if t.gate = .loaded then t.enterLift else t.afterLift

/-! ## Grant and preemption -/

/-- A HOME begins: HOMING set, not homed, gate content from GSLIDE, target 0 (R14, R3, R201). -/
def Tmc.beginHome (t : Tmc) : Tmc :=
  Tmc.unhome { t with homing := true, gate := t.sampleGate, target := some 0 }

/-- The operation record of a grant is taken (R4 to R7, R12, R14). -/
def Tmc.begin (t : Tmc) (op : Operation) : Reaction Tmc :=
  let t := { t with op := some op, fromUnhomed := t.state == MechState.unhomed,
                    fromDark := t.gate == Gate.empty && t.darkenStanding, liftRetried := false, seatRetried := false,
                    redirect := false, homing := false, arrivals := 0 }
  match op.kind with
  | .home => t.beginHome.enterDarken
  | .clearGate => Tmc.enterDarken { t with target := if t.homed then some t.p else none }
  | kind =>
    let target := t.resolve kind
    let t := { t with target := some target }
    if target = t.p ∧ t.gate = .loaded then t.shortPath else t.enterDarken

/-- A preempting operation in DARKEN: planned again, with the darken request and the limit standing (R22). -/
def Tmc.preemptDarken (t : Tmc) (op : Operation) : Reaction Tmc :=
  let t := { t with op := some op, fromUnhomed := false, liftRetried := false, seatRetried := false }
  match op.kind with
  | .home => (t.beginHome, [])
  | .clearGate => ({ t with target := if t.homed then some t.p else none }, [])
  | kind =>
    let target := t.resolve kind
    let t := { t with target := some target }
    if target = t.p ∧ t.gate = .loaded then
      let r := Tmc.shortPath { t with darkenLimit := none, darkenStanding := false }
      (r.1, .release t.inTime :: r.2)
    else (t, [])

/-- A preempting operation in TURN: recorded at once, acted on at the next arrival (R23). -/
def Tmc.preemptTurn (t : Tmc) (op : Operation) : Reaction Tmc :=
  let target :=
    match op.kind with
    | .home => some 0
    | .clearGate => if t.homed then some t.p else none
    | kind => some (t.resolve kind)
  ({ t with op := some op, fromUnhomed := false, liftRetried := false, seatRetried := false, redirect := true,
            target := target }, [])

/-- The new operation record of a preemption (R22, R23). -/
def Tmc.preempt (t : Tmc) (op : Operation) : Reaction Tmc :=
  if t.state = .darken then t.preemptDarken op else t.preemptTurn op

/-! ## Events of the cycle -/

/-- The blackout report is taken: in DARKEN it ends the phase, elsewhere nothing waits for it (R7, R48). -/
def Tmc.takeReport (t : Tmc) : Reaction Tmc :=
  if t.state = .darken then t.endDarken else (t, [])

/-- The darken limit expires (R7). -/
def Tmc.darkenLate (t : Tmc) : Reaction Tmc :=
  if t.state = .darken ∧ t.darkenLimit.due then
    ({ t with darkenLimit := none },
      [.log .darkenLate (argPair t.reportedSource t.reportedTarget), .snap])
  else (t, [])

/-- LTOP becomes active: it ends LIFT while the lifter is driven (R8). -/
def Tmc.ltopActive (t : Tmc) : Reaction Tmc :=
  let t := { t with sensors := { t.sensors with ltop := true } }
  if t.state = .lift ∧ t.lifter then t.liftDone else (t, [])

/-- The lift timer expires: a retry, or a jam (R8). -/
def Tmc.liftExpiry (t : Tmc) : Reaction Tmc :=
  if t.state = .lift ∧ t.liftTimer.due then
    if t.liftRetried then t.jam
    else
      ({ t with liftRetried := true, liftRetryCount := satInc 255 t.liftRetryCount, lifter := false, liftTimer := none,
                lowerTimer := some 150 },
        [.log .liftRetry (halfOf t.reportedP)])
  else (t, [])

/-- The 150 ms lowering ends: the lifter is driven again (R8). -/
def Tmc.loweringEnd (t : Tmc) : Reaction Tmc :=
  if t.state = .lift ∧ t.lowerTimer.due then t.enterLift else (t, [])

/-- An arrival in a homing turn (R14, R15). -/
def Tmc.arriveHoming (t : Tmc) : Reaction Tmc :=
  let t := { t with arrivals := t.arrivals + 1, positionTimer := some 250 }
  if t.sensors.thome then t.homingFound
  else if t.n + 2 ≤ t.arrivals then t.jam
  else (t, [])

/-- A recorded preemption is acted on at the arrival, after counting and the slip check (R23). -/
def Tmc.actRedirect (t : Tmc) : Reaction Tmc :=
  let t := { t with redirect := false }
  match t.opKind with
  | some .clearGate => t.endNoDrop
  | some .home =>
    let t := Tmc.unhome { t with homing := true, arrivals := 0 }
    if t.sensors.thome then t.homingFound else (t.turnHoming, [])
  | _ =>
    if t.target = some t.p then t.turnEnd
    else ({ t with motor := turnDirection t.p (t.target.getD 0) t.n }, [])

/-- An arrival in a turn that is not a homing turn: count, slip check, then the recorded operation or the target
(R2, R9, R16, R17, R23). -/
def Tmc.arriveCounting (t : Tmc) : Reaction Tmc :=
  let t := { t.count with positionTimer := some 250 }
  if t.p ≠ 0 ∧ t.sensors.thome then
    let logged := Notice.log .positionSlip (halfOf t.p)
    let t := { t with p := 0, display := 0 }
    let r :=
      if t.redirect then t.actRedirect
      else if t.target = some 0 then t.turnEnd
      else ({ t with motor := turnDirection t.p (t.target.getD 0) t.n }, [])
    (r.1, .dirty 1 :: logged :: r.2)
  else if t.p = 0 ∧ ¬ t.sensors.thome then
    (Tmc.turnHoming (Tmc.unhome { t with homing := true }), [.log .positionSlip 0])
  else if t.redirect then t.actRedirect
  else if t.target = some t.p then t.turnEnd
  else (t, [])

/-- A TIDX pulse, with THOME as sampled: counted while the tray motor is driven, otherwise ignored (R2). -/
def Tmc.arrive (t : Tmc) (thome : Bool) : Reaction Tmc :=
  let t := { t with sensors := { t.sensors with thome := thome } }
  if t.state = .turn ∧ (t.motor = .forward ∨ t.motor = .reverse) then
    if t.homing then t.arriveHoming else t.arriveCounting
  else (t, [])

/-- The position timer expires in TURN (R9). -/
def Tmc.positionExpiry (t : Tmc) : Reaction Tmc :=
  if t.state = .turn ∧ t.positionTimer.due then t.jam else (t, [])

/-- GSEAT becomes active: it ends DROP with the gate LOADED (R10). -/
def Tmc.gseatActive (t : Tmc) : Reaction Tmc :=
  let t := { t with sensors := { t.sensors with gseat := true } }
  if t.state = .drop then (t.enterSettle .loaded, []) else (t, [])

/-- The drop timer expires: GSLIDE decides (R10). A seat retry goes back to LIFT, and with LTOP active on to DROP again at
the same instant (R8), so line 1 is marked dirty outright (R4). -/
def Tmc.dropExpiry (t : Tmc) (gslide : Bool) : Reaction Tmc :=
  let t := { t with sensors := { t.sensors with gslide := gslide } }
  if t.state = .drop ∧ t.dropTimer.due then
    if ¬ gslide then (t.enterSettle .empty, [])
    else if t.seatRetried then t.jam
    else
      let r := Tmc.enterLift
        { t with seatRetried := true, seatRetryCount := satInc 255 t.seatRetryCount, dropTimer := none }
      (r.1, .dirty 1 :: .log .seatRetry (halfOf t.reportedP) :: r.2)
  else (t, [])

/-- SETTLE ends (R11). -/
def Tmc.settleEnd (t : Tmc) : Reaction Tmc :=
  if t.state = .settle ∧ t.settleTimer.due then
    let arg := argPair t.reportedSource t.reportedP
    let event := if t.gate = .empty then Event.emptySlot else Event.changeDone
    let r := Tmc.conclude { t with state := .ready, settleTimer := none, darkenStanding := false }
      (if t.gate = .empty then .emptySlot else .done) [.log event arg]
    (r.1, .release t.inTime :: r.2)
  else (t, [])

/-! ## Tray insertion and removal -/

/-- A valid tray is inserted (R18). A JAMMED mechanism stays JAMMED, as R18 says and R13's list of the ways out agrees;
R19 says that it leaves JAMMED then (DESIGN CHOICE, assumption log 35). -/
def Tmc.insert (t : Tmc) : Reaction Tmc :=
  (Tmc.unhome { t with n := codeSize t.tcode, gate := t.sampleGate, uncleanLoss := false,
                       state := if t.state = .jammed then .jammed else .unhomed },
    [.log .trayInserted (halfOf (codeSize t.tcode))])

/-- The tray is lost (R19). `enabled` is TRAY_LOST's enable. A mechanism that leaves JAMMED asks for the arbiter's
selection before the loss is reported to the CU (R135; assumption log 4). With an operation in flight TRAY_REMOVED is logged
before JAM, an order that R19 leaves open (DESIGN CHOICE, assumption log 45). -/
def Tmc.lose (t : Tmc) (enabled : Bool) : Reaction Tmc :=
  let clean := t.state == .ready && t.p == 0 && t.gate == .empty
  let removed := Notice.log .trayRemoved (if clean then 0 else argPair 1 t.reportedP)
  let jam := if t.op.isSome then [Notice.log .jam (argPair t.reportedSource t.reportedP)] else []
  let stays := t.state == .jammed && !enabled
  let freed := if t.state = .jammed ∧ enabled then [Notice.select] else []
  let r := Tmc.conclude
    (Tmc.unhome { t.stopTimers with state := if stays then .jammed else .noTray, motor := t.rest, lifter := false,
                                    homing := false, n := 0, uncleanLoss := t.uncleanLoss || !clean })
    .jammed (removed :: jam)
  (r.1, r.2 ++ freed)

/-- The TRAY_LOST value as it now stands, reported to the CU (R72). -/
def Tmc.lostNotice (t : Tmc) : Notice := .levelCause .trayLost t.trayLost

/-- The tray code reads `code` (R1, R18 to R20). A change from one valid code to the other is the loss followed at once by
the insertion, so a mechanism that leaves JAMMED by it is UNHOMED when the selection for leaving JAMMED is taken, and
that selection comes before TRAY_LOST arrives, where R20 and R135 leave the order open (DESIGN CHOICE, assumption
log 4). With an operation in flight TRAY_LOST arrives after the JAMMED outcome has been handed over and before that outcome
is delivered and the selection is made, where R19 and R139 leave the order open (DESIGN CHOICE, assumption log 39). -/
def Tmc.codeChange (t : Tmc) (enabled : Bool) (code : BitVec 2) : Reaction Tmc :=
  if code = t.tcode then (t, [])
  else
    let had := codeSize t.tcode ≠ 0
    let t := { t with tcode := code }
    let lost := if had then t.lose enabled else (t, [])
    let afterLoss := lost.2 ++ [lost.1.lostNotice]
    if codeSize code ≠ 0 then
      let r := lost.1.insert
      (r.1, afterLoss ++ r.2 ++ [r.1.lostNotice])
    else if code = 3 then (lost.1, .log .trayCodeBad 3 :: afterLoss)
    else (lost.1, afterLoss)

/-! ## Cutoff -/

/-- The ending of the operation in service at a cutoff entry with BRAKE or FREE, by phase (R24, R25). In SETTLE the gate
content becomes LOADED, as R24's table gives it, also where the DROP had ended EMPTY (assumption log 9). -/
def Tmc.abort (t : Tmc) : Reaction Tmc :=
  let events := [Notice.log .jam (argPair (t.reportedSource + 0x80) t.reportedP)]
  if t.state = .darken then
    let unhomed := t.opKind == some .home || (t.opKind == some .clearGate && t.fromUnhomed)
    let after := { t.stopTimers with state := if unhomed then .unhomed else .ready, homing := false,
                                     darkenStanding := t.fromDark }
    let r := Tmc.conclude after .abortedCutoff events
    (r.1, (if t.fromDark then [] else [.release t.inTime]) ++ r.2)
  else if t.state = .settle then
    let r := Tmc.conclude { t.stopTimers with state := .ready, gate := .loaded, darkenStanding := false } .abortedCutoff
      events
    (r.1, .release t.inTime :: r.2)
  else
    Tmc.conclude (Tmc.unhome { t.stopTimers with state := .jammed, lifter := false, homing := false })
      .abortedCutoff events

/-- Cutoff entry with the tray selection BRAKE or FREE (R24, R25). -/
def Tmc.cutoff (t : Tmc) (sel : TraySelection) : Reaction Tmc :=
  let t := { t with imposition := some sel }
  let t := { t with motor := t.rest }
  if t.op.isSome then t.abort else (t, [])

/-- A CUTOFF_CLEAR is taken: JAMMED is left and the motor returns to unpowered if cutoff held it (R13, R25). -/
def Tmc.clear (t : Tmc) : Reaction Tmc :=
  let motor := if t.motor = .braked then Motor.unpowered else t.motor
  let t := { t with imposition := none, motor := motor }
  if t.state = .jammed then
    ({ t with state := if t.n = 0 then .noTray else .unhomed }, [])
  else (t, [])

/-! ## Directives -/

/-- The operand check of GOTO_SLOT (R26): true when the slot may be deposited. -/
def Tmc.slotAllowed (t : Tmc) (slot : Nat) : Bool :=
  decide (slot ≤ 120) && (t.n == 0 || decide (slot ≤ t.n))

/-- CHANGE_PROFILE (R27). -/
def Tmc.changeProfile (t : Tmc) (outTime inTime blackout : Byte) : Reaction Tmc × Result :=
  if t.inCycle then ((t, []), .refusedState)
  else
    (({ t with outTime := outTime.toNat * 10, inTime := inTime.toNat * 10, blackout := blackout.toNat }, [.refire]),
      .done)

/-! ## Time and reset -/

/-- The sensors after a millisecond: THOME and GSLIDE stand as given; LTOP and GSEAT can only fall here, since each
becomes active by a command of its own (assumption log 8). -/
def Tmc.senseTick (t : Tmc) (sensors : Sensors) : Sensors :=
  { sensors with ltop := t.sensors.ltop && sensors.ltop, gseat := t.sensors.gseat && sensors.gseat }

/-- One millisecond passes; the sensors stand at the given levels. -/
def Tmc.tick (t : Tmc) (sensors : Sensors) : Tmc :=
  { t with sensors := t.senseTick sensors, darkenLimit := t.darkenLimit.tick, liftTimer := t.liftTimer.tick,
           lowerTimer := t.lowerTimer.tick, positionTimer := t.positionTimer.tick, dropTimer := t.dropTimer.tick,
           settleTimer := t.settleTimer.tick }

/-- The state after POR and after PRST, with the tray code and GSLIDE read afresh (R29, R30). -/
def Tmc.fresh (tcode : BitVec 2) (sensors : Sensors) : Reaction Tmc :=
  let t : Tmc := { Tmc.reset with tcode := tcode, sensors := sensors }
  ({ t with n := codeSize tcode, gate := t.sampleGate, state := if codeSize tcode = 0 then .noTray else .unhomed },
    if tcode = 3 then [.log .trayCodeBad 3] else [])

end Sys2Proof.Machine
end

