-- ==== Sys2Proof/Machine/Arbiter.lean ====
section
/-! DEFINITION. The Change Arbiter (07_change_arbitration.md): slots, selection, grant, preemption and outcomes. A grant
and a preemption reach the mechanism at the same instant, so these functions work on the whole state. -/

namespace Sys2Proof.Machine

/-! ## Reading the mechanism and the cutoff flag -/

/-- Cutoff permits a grant (R135). -/
def State.arbiterOpen (s : State) : Bool := !s.cu.flag || s.cu.traySel == .ignore

/-- The mechanism can be granted an operation: it is available and the last outcome has been handed over (R135, R139). -/
def State.mechanismFree (s : State) : Bool := s.tmc.available && s.ca.inService.isNone

/-- A source whose owner is told when its slot empties (R132). -/
def Source.notified : Source → Bool
  | .cue | .run => true
  | _ => false

/-- The slot-empty notice of a source that takes one (R132). -/
def slotEmptyNotice (source : Source) : List Notice := if source.notified then [.slotEmpty source] else []

/-- The delivery of an outcome to the block behind its source, if there is one (R138). -/
def deliverNotice (source : Source) (result : OpOutcome) : List Notice :=
  if source.notified then [.deliver source result] else []

/-- REQUESTS_DISCARDED with an outcome and a set of sources (R140). -/
def discardedLog (result : OpOutcome) (set : Nat) : Notice := .log .requestsDiscarded (argPair result.number set)

/-- A source's bit in a set of sources (07, table). -/
def Source.bit (source : Source) : Nat := 2 ^ source.number

/-! ## Slots -/

/-- The pending record of a source. -/
def Ca.slot (ca : Ca) (source : Source) : Option Request := ca.slots.get source

/-- A record written into a slot with the source's level (R130, R133). -/
def Ca.fill (ca : Ca) (source : Source) (kind : OpKind) : Ca :=
  { ca with slots := ca.slots.set source (some ⟨kind, ca.levels.get source⟩) }

/-- A slot emptied. -/
def Ca.empty (ca : Ca) (source : Source) : Ca := { ca with slots := ca.slots.set source none }

/-- A new REMOTE or TAPE request combined with the pending record, with tray size `n`, 0 for no valid tray (R133). -/
def mergeKinds (n : Nat) (old new : OpKind) : OpKind :=
  match old, new with
  | .moveBy k, .moveBy j => .moveBy (clampStep (k + j))
  | .changeTo t, .moveBy j =>
    if n ≠ 0 ∧ t ≤ n then .changeTo (((t : Int) + j) % ((n : Int) + 1)).toNat else .moveBy j
  | _, new => new

/-- The slot after a deposit (R130 to R133): none when the deposit is turned away from an occupied slot. -/
def Ca.accept (ca : Ca) (n : Nat) (source : Source) (kind : OpKind) : Option Ca :=
  match ca.slot source with
  | none => some (ca.fill source kind)
  | some old =>
    if source = .remote ∨ source = .tape then some (ca.fill source (mergeKinds n old.kind kind)) else none

/-! ## Selection and grant -/

/-- The candidates of a selection with their records, in rank order (R135). -/
def Ca.candidates (ca : Ca) : List (Source × Request) :=
  Source.all.filterMap fun source =>
    if ca.masks.get source then none else (ca.slot source).map fun r => (source, r)

/-- The better of two candidates, the first standing first in rank order (R136). -/
def better (a b : Source × Request) : Source × Request := if b.2.level < a.2.level then b else a

/-- The chosen candidate: lowest level number, then lowest rank (R136). -/
def Ca.best? (ca : Ca) : Option (Source × Request) :=
  match ca.candidates with
  | [] => none
  | c :: rest => some (rest.foldl better c)

/-- The outcome with which the chosen record is refused, if it is (R137). -/
def Tmc.refusal? (t : Tmc) (kind : OpKind) : Option OpOutcome :=
  match t.state, kind with
  | .noTray, _ => some .refusedNoTray
  | .unhomed, .changeTo _ => some .refusedUnhomed
  | .unhomed, .moveBy _ => some .refusedUnhomed
  | .ready, .changeTo slot => if t.n < slot then some .outOfTray else none
  | _, _ => none

/-- The record is granted (R136). -/
def State.grant (s : State) (source : Source) (r : Request) : State :=
  let op : Operation := ⟨r.kind, source, r.level⟩
  let s := s.putCa ({ s.ca.empty source with inService := some op }, .dirty 6 :: slotEmptyNotice source)
  s.putTmc (s.tmc.begin op)

/-- The record is refused at selection (R137). -/
def State.refuse (s : State) (source : Source) (result : OpOutcome) : State :=
  s.putCa (s.ca.empty source,
    deliverNotice source result ++ [discardedLog result source.bit, .dirty 6] ++ slotEmptyNotice source)

/-- A selection that repeats over refused records, at most once for each source (R135 to R137). -/
def State.selectLoop : Nat → State → State
  | 0, s => s
  | fuel + 1, s =>
    match s.ca.best? with
    | none => s
    | some (source, r) =>
      match s.tmc.refusal? r.kind with
      | some result => State.selectLoop fuel (s.refuse source result)
      | none => s.grant source r

/-- A selection (R135). -/
def State.select (s : State) : State := if s.mechanismFree && s.arbiterOpen then s.selectLoop 5 else s

/-! ## Preemption -/

/-- The record of a source preempts the operation in service (R141). -/
def State.preempts (s : State) (source : Source) (r : Request) : Bool :=
  match s.ca.inService with
  | none => false
  | some op =>
    !s.ca.masks.get source && decide (r.level < op.level) && s.tmc.preemptible && s.tmc.homed && s.arbiterOpen &&
      (match r.kind with
       | .changeTo slot => decide (slot ≤ s.tmc.n)
       | _ => true)

/-- The record is moved into service over the operation there (R142). -/
def State.preemptWith (s : State) (source : Source) (r : Request) : State :=
  match s.ca.inService with
  | none => s
  | some old =>
    let op : Operation := ⟨r.kind, source, r.level⟩
    let s := s.putCa ({ s.ca.empty source with inService := some op },
      deliverNotice old.source .preempted ++
        [.log .preempted (argPair old.source.number s.tmc.reportedP), .dirty 6] ++ slotEmptyNotice source)
    s.putTmc (s.tmc.preempt op)

/-- What follows a deposit, by the mechanism's condition at that instant (R130, R141). -/
def State.afterDeposit (s : State) (source : Source) : State :=
  if s.mechanismFree then s.select
  else
    match s.ca.slot source with
    | some r => if s.preempts source r then s.preemptWith source r else s
    | none => s

/-- A deposit (R130 to R133): one into an empty slot marks status line 6 dirty. -/
def State.deposit (s : State) (source : Source) (kind : OpKind) : State :=
  match s.ca.accept s.tmc.n source kind with
  | some ca => (s.putCa (ca, if (s.ca.slot source).isNone then [.dirty 6] else [])).afterDeposit source
  | none => s

/-! ## Outcomes, cutoff and withdrawal -/

/-- The mechanism hands an operation record back with its outcome (R139). The delivery and the selection are notices, taken
after those that were made before the outcome was handed over, such as the arrival of TRAY_LOST at a tray loss (DESIGN
CHOICE, assumption log 39), and before those that the delivery leads to, such as a halted show's withdrawal (DESIGN CHOICE,
assumption log 40). -/
def State.takeOutcome (s : State) (op : Operation) (result : OpOutcome) : State :=
  if s.ca.inService = some op then
    (s.putCa ({ s.ca with inService := none }, deliverNotice op.source result ++ [.select]))
  else s

/-- The sources with a pending record, in rank order. -/
def Ca.holders (ca : Ca) : List Source := Source.all.filter fun source => (ca.slot source).isSome

/-- Cutoff entry, told with the tray selection (R143). -/
def Ca.cutoff (ca : Ca) (sel : TraySelection) : Reaction Ca :=
  if sel = .ignore ∨ ca.holders = [] then (ca, [])
  else
    ({ ca with slots := ⟨none, none, none, none, none⟩ },
      ca.holders.flatMap (fun source => deliverNotice source .discarded) ++
        [discardedLog .discarded ((ca.holders.map Source.bit).sum), .dirty 6] ++ ca.holders.flatMap slotEmptyNotice)

/-- The Cue Engine's withdrawal (R145). -/
def Ca.withdraw (ca : Ca) : Reaction Ca :=
  if (ca.slot .cue).isSome then
    (ca.empty .cue, [.deliver .cue .withdrawn, discardedLog .withdrawn (Source.bit .cue), .dirty 6, .slotEmpty .cue])
  else (ca, [])

/-! ## Directives -/

/-- A request directive deposited once its operand check has passed (R131). `result` is the one the check set. -/
def State.depositDirective (s : State) (kind : OpKind) (result : Result) : State × Result :=
  if (s.ca.slot .directive).isSome then (s, .refusedBusy) else (s.post [.deposit .directive kind], result)

/-- The five levels of the two operand bytes (R134). -/
def levelsOf (b0 b1 : Byte) : PerSource (BitVec 2) :=
  ⟨BitVec.ofNat 2 b0.toNat, BitVec.ofNat 2 (b0.toNat / 4), BitVec.ofNat 2 (b0.toNat / 16),
    BitVec.ofNat 2 (b0.toNat / 64), BitVec.ofNat 2 b1.toNat⟩

/-- ARB_LEVELS: pending records are restamped at once (R134). -/
def Ca.setLevels (ca : Ca) (b0 b1 : Byte) : Ca × Result :=
  if 4 ≤ b1.toNat then (ca, .badOperand)
  else
    let levels := levelsOf b0 b1
    ({ ca with levels := levels,
               slots := ca.slots.map fun source r => r.map fun q => { q with level := levels.get source } }, .done)

/-- The mask set of the operand byte (R134). -/
def masksOf (b : Byte) : PerSource Bool := ⟨bitOf b 0, bitOf b 1, bitOf b 2, bitOf b 3, bitOf b 4⟩

/-- ARB_MASK clears a mask (R135). -/
def Ca.unmasks (ca : Ca) (masks : PerSource Bool) : Bool :=
  Source.all.any fun source => ca.masks.get source && !masks.get source

/-- ARB_MASK (R134, R135). -/
def Ca.setMasks (ca : Ca) (b : Byte) : Reaction Ca × Result :=
  if 32 ≤ b.toNat then ((ca, []), .badOperand)
  else (({ ca with masks := masksOf b }, if ca.unmasks (masksOf b) then [.select] else []), .done)

end Sys2Proof.Machine
end

