-- ==== Sys2Proof/Machine/Cutoff.lean ====
section
/-! DEFINITION. The Cutoff Unit (04_forced_cutoff.md): each function takes the block's record and answers its new record
with the notices it makes. -/

namespace Sys2Proof.Machine

/-! ## Impositions -/

/-- A heat cause is in the set (R77). -/
def Cu.heatInSet (cu : Cu) : Bool := Cause.heat.any cu.inSet

/-- The lamp imposition of the flag, the cause set and the lamp selection (R77). -/
def Cu.lampImposition (cu : Cu) : LampImposition :=
  if ¬ cu.flag then .none
  else if cu.heatInSet then .off
  else
    match cu.lampSel with
    | .off => .off
    | .holdBlackout => .cap
    | .ignore => .none

/-- The lamp imposition handed to the LC when it changes (R77). -/
def Cu.handLamp (cu : Cu) : Reaction Cu :=
  let now := cu.lampImposition
  if now = cu.lampHanded then (cu, []) else ({ cu with lampHanded := now }, [.lampImposition now])

/-- What the CU hands to the tray, tape, audio and fan owners at entry (R78 to R80). FULL stands here, ahead of the lamp
group that the lamp imposition's owner reports to the FC (DESIGN CHOICE, assumption log 4). -/
def Cu.entryNotices (cu : Cu) : List Notice :=
  (if cu.traySel = .ignore then [] else [.trayCutoff cu.traySel]) ++
  (if cu.tapeIgnore then [] else [.tapeImposition true]) ++
  (if cu.audioIgnore then [] else [.audioImposition true]) ++
  (if cu.fanIgnore then [] else [.fanImposition true]) ++
  [.arbiterCutoff cu.traySel, .showCutoff]

/-- What the CU hands on at the clear (R86). -/
def Cu.clearNotices (cu : Cu) : List Notice :=
  (if cu.tapeIgnore then [] else [.tapeImposition false]) ++
  (if cu.audioIgnore then [] else [.audioImposition false]) ++
  (if cu.fanIgnore then [] else [.fanImposition false]) ++
  [.trayClear, .select]

/-! ## Arrivals -/

/-- An enabled cause arrives: cutoff is entered, the cause is added, or it is in the set already (R75, R76). At an entry by
any cause FULL reaches the FC before the notice of the lamp's leaving the active group, so a burning lamp with H at or
below CD leaves no demand of 0 between, and no COOLDOWN_DONE (R68, R75; DESIGN CHOICE, assumption log 4). -/
def Cu.take (cu : Cu) (c : Cause) : Reaction Cu :=
  if ¬ cu.flag then
    let r := Cu.handLamp { cu with flag := true, causes := cu.causes ||| c.bit }
    (r.1, .log .cutoffEnter (halfOf c.number) :: r.2 ++ r.1.entryNotices)
  else if cu.inSet c then (cu, [])
  else
    let r := Cu.handLamp { cu with causes := cu.causes ||| c.bit }
    (r.1, .log .cutoffCauseAdded (halfOf c.number) :: r.2)

/-- A cause arrives: recorded when enabled, dropped when not (R75, R84). -/
def Cu.arrive (cu : Cu) (c : Cause) : Reaction Cu := if cu.enabled c then cu.take c else (cu, [])

/-- The arrivals of several causes, in the order given. -/
def Cu.arriveAll (cu : Cu) (cs : List Cause) : Reaction Cu :=
  cs.foldl (fun r c => let next := Cu.arrive r.1 c; (next.1, r.2 ++ next.2)) (cu, [])

/-- A level cause's value is set, with no arrival taken. -/
def Cu.setValue (cu : Cu) (c : Cause) (v : Bool) : Cu :=
  match c with
  | .overheat => { cu with overheat := v }
  | .thermostat => { cu with thermostat := v }
  | .interlock => { cu with interlock := v }
  | .trayLost => { cu with trayLost := v }
  | _ => cu

/-- A level cause is reported: it arrives when it changes from absent to present (R72). -/
def Cu.report (cu : Cu) (c : Cause) (v : Bool) : Reaction Cu :=
  if v = true ∧ cu.present c = false then (cu.setValue c v).arrive c else (cu.setValue c v, [])

/-! ## Input filters -/

/-- The filter timer of an input whose raw level is now `raw` (R73). -/
def filterTimer (raw filtered : Bool) (t : Timer) : Timer := if raw = filtered then none else some (t.getD 10)

/-- THSW changes (R73). -/
def Cu.setThsw (cu : Cu) (active : Bool) : Cu :=
  { cu with thswRaw := active, thswTimer := filterTimer active cu.thermostat cu.thswTimer }

/-- ILOCK changes (R73). -/
def Cu.setIlock (cu : Cu) (opened : Bool) : Cu :=
  { cu with ilockRaw := opened, ilockTimer := filterTimer opened cu.interlock cu.ilockTimer }

/-- A filter timer expires: the filtered value takes the raw level (R73). -/
def Cu.filterExpiry (cu : Cu) (input : FilteredInput) : Reaction Cu :=
  match input with
  | .thermostat =>
    if cu.thswTimer.due then Cu.report { cu with thswTimer := none } .thermostat cu.thswRaw else (cu, [])
  | .interlock =>
    if cu.ilockTimer.due then Cu.report { cu with ilockTimer := none } .interlock cu.ilockRaw else (cu, [])

/-! ## Directives -/

/-- CUTOFF_SELECT (R82). -/
def Cu.select (cu : Cu) (b0 b1 : Byte) : Cu × Result :=
  if cu.flag then (cu, .refusedState)
  else
    match lampSelection? b0, traySelection? b0 with
    | some lamp, some tray =>
      if 16 ≤ b0.toNat ∨ 8 ≤ b1.toNat then (cu, .badOperand)
      else
        ({ cu with lampSel := lamp, traySel := tray, tapeIgnore := bitOf b1 0, audioIgnore := bitOf b1 1,
                   fanIgnore := bitOf b1 2 }, .done)
    | _, _ => (cu, .badOperand)

/-- The level causes newly enabled, present and not in the set, in number order (R83). -/
def Cu.awakened (before after : Cu) : List Cause :=
  Cause.levels.filter fun c => !before.enabled c && after.enabled c && after.present c && !after.inSet c

/-- CUTOFF_ENABLE (R83). -/
def Cu.enable (cu : Cu) (enables : Byte) : Reaction Cu :=
  let after : Cu := { cu with enables := enables }
  after.arriveAll (Cu.awakened cu after)

/-- CUTOFF_FORCE (R84). -/
def Cu.force (cu : Cu) : Reaction Cu × Result :=
  if cu.enabled .forced then (cu.arrive .forced, .done) else ((cu, []), .refusedState)

/-- The level causes of the set that are present, as a cause byte (R85). -/
def Cu.blocking (cu : Cu) : Byte :=
  (Cause.levels.filter fun c => cu.inSet c && cu.present c).foldl (fun b c => b ||| c.bit) 0

/-- CUTOFF_CLEAR (R85, R86). -/
def Cu.clear (cu : Cu) : Reaction Cu × Result :=
  if ¬ cu.flag then ((cu, []), .refusedState)
  else if cu.blocking ≠ 0 then ((cu, [.log .clearRefused (halfOf cu.blocking.toNat)]), .refusedState)
  else
    let r := Cu.handLamp { cu with flag := false, causes := 0 }
    ((r.1, .log .cutoffCleared (halfOf cu.causes.toNat) :: r.2 ++ cu.clearNotices), .done)

/-! ## Time and reset -/

/-- One millisecond passes. -/
def Cu.tick (cu : Cu) : Cu := { cu with thswTimer := cu.thswTimer.tick, ilockTimer := cu.ilockTimer.tick }

/-- The state of the POR table (R87, R88) with the level causes as the other blocks hold them. -/
def Cu.fresh (thsw ilock overheat trayLost : Bool) : Cu :=
  { Cu.reset with overheat := overheat, thermostat := thsw, interlock := ilock, trayLost := trayLost, thswRaw := thsw,
                  ilockRaw := ilock }

/-- The evaluation at the end of a reset: every present level cause is taken as an arrival, in number order (R87, R88). -/
def Cu.evaluate (cu : Cu) : Reaction Cu := cu.arriveAll (Cause.levels.filter cu.present)

end Sys2Proof.Machine
end

