-- ==== Sys2Proof/Machine/Fan.lean ====
section
/-! DEFINITION. The Fan Controller (03_cooling_fan.md): each function takes the block's record and answers its new
record with the notices it makes. H, DS and the lamp group are read of the Lamp Controller, which reports them. -/

namespace Sys2Proof.Machine

/-- The base demand of an H (R62). -/
def baseDemand (minimum h ds : Nat) : Nat := minimum + (255 - minimum) * min h ds / ds

/-- The demand by the cases of R62. -/
def Fc.computed (fc : Fc) (h ds : Nat) (active : Bool) : Nat :=
  if fc.full then 255
  else if active ∨ fc.coolDone < h then baseDemand fc.minimum h ds
  else 0

/-- The state a turning fan takes from the lamp group (R64, R65, R67). -/
def turningState (active : Bool) : FanState := if active then .running else .cooldown

/-- RUNNING and COOLDOWN follow the lamp group (R65). -/
def Fc.follow (fc : Fc) (active : Bool) : Fc :=
  if fc.state = .running ∨ fc.state = .cooldown then { fc with state := turningState active } else fc

/-- SPINUP is entered (R64). -/
def Fc.spinUp (fc : Fc) : Fc := { fc with state := .spinup, grace := 4, stallWindows := 0 }

/-- STOPPED is entered (R64). -/
def Fc.stop (fc : Fc) : Fc := { fc with state := .stopped, grace := 0, stallWindows := 0 }

/-- The demand computed afresh with the state changes it calls for (R61, R64, R65, R68). -/
def Fc.compute (fc : Fc) (h ds : Nat) (active : Bool) : Reaction Fc :=
  let new := fc.computed h ds active
  let turned : Fc := { fc.follow active with demand := new }
  if fc.demand = 0 ∧ new ≠ 0 then (turned.spinUp, [])
  else if fc.demand ≠ 0 ∧ new = 0 then
    (turned.stop,
      if ¬ fc.full ∧ ¬ active ∧ h ≤ fc.coolDone then [.log .cooldownDone (halfOf h)] else [])
  else (turned, [])

/-- The fan imposition changes (R61, R80). -/
def Fc.impose (fc : Fc) (full : Bool) (h ds : Nat) (active : Bool) : Reaction Fc :=
  Fc.compute { fc with full := full } h ds active

/-- An FTACH pulse is counted (R60). -/
def Fc.pulse (fc : Fc) : Fc := { fc with pulses := satInc 65535 fc.pulses }

/-- A stall window (R66). -/
def Fc.stalls (fc : Fc) : Bool := decide (64 ≤ fc.demand) && decide (4 * fc.speed < fc.demand)

/-- The window check of the fan state in force (R64, R66, R67). -/
def Fc.check (fc : Fc) (active : Bool) : Reaction Fc :=
  match fc.state with
  | .stopped => (fc, [])
  | .spinup =>
    let left := fc.grace - 1
    if left = 0 then ({ fc with grace := 0, state := turningState active }, []) else ({ fc with grace := left }, [])
  | .running | .cooldown =>
    if fc.stalls then
      let count := fc.stallWindows + 1
      if 3 ≤ count then
        ({ fc with stallWindows := 3, state := .stalled },
          [.log .fanStall (argPair fc.demand fc.speed), .edgeCause .fanStall])
      else ({ fc with stallWindows := count }, [])
    else ({ fc with stallWindows := 0 }, [])
  | .stalled =>
    if fc.demand ≤ 4 * fc.speed then ({ fc with state := turningState active, stallWindows := 0 }, []) else (fc, [])

/-- The measurement window ends (R60). -/
def Fc.windowEnd (fc : Fc) (active : Bool) : Reaction Fc :=
  Fc.check { fc with speed := min 255 (4 * fc.pulses), pulses := 0, windowPhase := some 250 } active

/-- FAN_PROFILE (R69). `rm` is the restrike maximum the Lamp Controller holds. -/
def Fc.profile (fc : Fc) (minimum coolDone : Byte) (rm h ds : Nat) (active : Bool) : Reaction Fc × Result :=
  if coolDone.toNat * 256 < rm then
    (Fc.compute { fc with minimum := minimum.toNat, coolDone := coolDone.toNat * 256 } h ds active, .done)
  else ((fc, []), .badOperand)

/-- One millisecond passes. -/
def Fc.tick (fc : Fc) : Fc := { fc with windowPhase := fc.windowPhase.tick }

/-- The state after PRST (R71), computed from the Lamp Controller's own PRST state. -/
def Fc.partReset (fc : Fc) (h ds : Nat) (active : Bool) : Fc :=
  let base : Fc := { fc with pulses := 0, stallWindows := 0, minimum := 96, coolDone := 3072, full := false }
  let cleared : Fc := { base with demand := base.computed h ds active }
  if cleared.demand = 0 then cleared.stop else cleared.spinUp

end Sys2Proof.Machine
end

