-- ==== Sys2Proof/Machine/CueEngine.lean ====
section
/-! DEFINITION. The Cue Engine (09_cue_lists_and_the_cue_engine.md): each function takes the block's record and answers
its new record with the notices it makes. `free` says that the arbiter's CUE slot is empty; `outTime` is the out time
of the change profile. -/

namespace Sys2Proof.Machine

/-! ## The current record -/

/-- The window offset of a cue record (R193). -/
def recordOffset (i : Nat) : Nat := Config.cueOffset + 16 * i

/-- The current record is due: its fired copy stands (R171). -/
def Ce.due (ce : Ce) : Bool := ce.phase == .held || ce.phase == .fired

/-- The copy of a record WAITING with a valid copy in a RUNNING show (R178). -/
def Ce.waiting? (ce : Ce) : Option (List Byte) :=
  if ce.showState = .running ∧ ce.phase = .waiting then
    (ce.queue.head?).bind fun e => if e.valid then some e.copy else none
  else none

/-- 10 ms units after the start instant S (R172, R178). -/
def Ce.afterStart (ce : Ce) (units : Nat) : Word := ce.startInstant + BitVec.ofNat 32 (10 * units)

/-- The lead time of a slide change (R172). -/
def Ce.lead (ce : Ce) (outTime : Nat) : Nat := outTime + 10 * ce.leadExtra

/-- The fire instant of a DELAY (R172). -/
def Ce.fireInstant (ce : Ce) (r : List Byte) (outTime : Nat) : Word :=
  if recHasSlide r ∧ ce.leadOn = true then
    if ce.lead outTime ≤ 10 * recTime r then
      ce.startInstant + BitVec.ofNat 32 (10 * recTime r - ce.lead outTime)
    else ce.startInstant
  else ce.afterStart (recTime r)

/-! ## Loop table and outcome memory -/

/-- The successor step of a DELAY with REPEAT `n` above 0 on a loop table: the table after it, whether the successor is
ALT, and whether the table was full (R177). -/
def loopStep (loops : List LoopEntry) (i n : Nat) : List LoopEntry × Bool × Bool :=
  match loops.find? (·.index == i) with
  | some e =>
    if 0 < e.remaining then
      (loops.map fun k => if k.index = i then { k with remaining := k.remaining - 1 } else k, true, false)
    else (loops.filter fun k => k.index != i, false, false)
  | none => if loops.length < 4 then (loops ++ [⟨i, n - 1⟩], true, false) else (loops, false, true)

/-- The record looks at the loop table (R177). -/
def recRepeats (r : List Byte) : Bool := recIsDelay r && decide (0 < recRepeat r)

/-- The loop table after the successor step of record `i` (R177, R185). -/
def loopsAfter (loops : List LoopEntry) (i : Nat) (r : List Byte) : List LoopEntry :=
  if recRepeats r then (loopStep loops i (recRepeat r)).1 else loops

/-- A resolution recorded in the outcome memory (R183). -/
def remember (memory : List MemoryEntry) (i : Nat) (timedOut : Bool) : List MemoryEntry :=
  let others := memory.filter fun e => e.index != i
  (if others.length < 8 then others else others.drop 1) ++ [⟨i, timedOut⟩]

/-- The memory holds TIMEOUT for an index (R185). -/
def remembersTimeout (memory : List MemoryEntry) (i : Nat) : Bool := memory.any fun e => e.index == i && e.timedOut

/-! ## Prediction -/

/-- The successor predicted for a record, none after an END, a bad record or an index beyond the store (R185). -/
def predicted? (loops : List LoopEntry) (memory : List MemoryEntry) (i : Nat) (r : List Byte) :
    Option (Nat × BranchTag) :=
  if recIsEnd r ∨ recBad r then none
  else
    let target :=
      if recRepeats r then (if (loopStep loops i (recRepeat r)).2.1 then recAltIndex i r else recNextIndex i r)
      else if recIsAwait r ∧ 0 < recTime r ∧ remembersTimeout memory i then recAltIndex i r
      else recNextIndex i r
    if target.1 < Config.cueRecords then some target else none

/-- The entries with the copies prediction uses: the fired copy for a due entry 0 (R185). -/
def Ce.pathCopies (ce : Ce) : List (Nat × List Byte) :=
  match ce.queue with
  | [] => []
  | e :: rest =>
    (e.index, if ce.due then ce.fired else e.copy) :: rest.map fun k => (k.index, k.copy)

/-- The working copy of the loop table before the last entry (R185). -/
def Ce.workingLoops (ce : Ce) : List LoopEntry :=
  ce.pathCopies.dropLast.foldl (fun t e => loopsAfter t e.1 e.2) ce.loops

/-- The last entry holds a usable copy (R185). -/
def Ce.lastUsable (ce : Ce) : Bool :=
  match ce.queue.getLast? with
  | none => false
  | some e => e.valid || (ce.queue.length == 1 && ce.due)

/-- The successor of the last entry is predicted, staged and its fetch begun (R185). -/
def Ce.predict (ce : Ce) : Reaction Ce :=
  if ce.active ∧ ce.queue.length < 4 ∧ ce.lastUsable then
    match ce.pathCopies.getLast? with
    | none => (ce, [])
    | some (i, r) =>
      match predicted? ce.workingLoops ce.memory i r with
      | none => (ce, [])
      | some (j, tag) => ({ ce with queue := ce.queue ++ [⟨j, [], false, tag⟩] }, [.askRead (recordOffset j)])
  else (ce, [])

/-! ## Ending, halting and judging -/

/-- The staging queue is emptied and a fetch in progress abandoned. -/
def Ce.unstage (ce : Ce) : Ce := { ce with queue := [], phase := .loading, fired := [] }

/-- The show halts (R189). The withdrawal is asked for by a notice, so a selection that the mechanism's outcome has led to
already comes before it (DESIGN CHOICE, assumption log 40). -/
def Ce.halt (ce : Ce) (reason : HaltReason) : Reaction Ce :=
  if ce.active then
    ({ ce.unstage with reason := reason, showState := .halted },
      [.log .showHalted (halfOf (reason.number * 4096 + ce.index % 4096)), .dropRead] ++
        (if reason = .cutoff then [] else [.withdraw]))
  else (ce, [])

/-- The show ends at an END record (R171). -/
def Ce.finish (ce : Ce) : Reaction Ce :=
  ({ ce.unstage with showState := .ended }, [.log .showEnded (halfOf ce.index), .dropRead])

/-- A current record with a valid copy is judged (R165, R171). -/
def Ce.judge (ce : Ce) (r : List Byte) : Reaction Ce :=
  if recBad r then ce.halt .badRecord
  else if recIsEnd r then ce.finish
  else ({ ce with phase := .waiting }, [.progress])

/-- Entry 0 becomes current (R171). -/
def Ce.becomeCurrent (ce : Ce) : Reaction Ce :=
  match ce.queue with
  | e :: _ => if e.valid then ce.judge e.copy else ({ ce with phase := .loading }, [])
  | [] => (ce, [])

/-! ## Successors -/

/-- The successor placed alone as entry 0, its fetch begun (R186). -/
def Ce.place (ce : Ce) (i : Nat) (tag : BranchTag) : Reaction Ce :=
  ({ ce with queue := [⟨i, [], false, tag⟩], phase := .loading }, [.askRead (recordOffset i)])

/-- The queue advances to the actual successor, current from T (R186). An entry leaves the queue and another may join it
at the same instant, so the staged count's line is marked dirty outright (R166). A path miss abandons the fetch in progress
and withdraws its request (R196). The prediction comes before the acts of a new current record that is due, or timed out,
at once (DESIGN CHOICE, assumption log 34). -/
def Ce.advance (ce : Ce) (i : Nat) (tag : BranchTag) : Reaction Ce :=
  Reaction.andThen ({ ce with index := i, startInstant := ce.timelineInstant }, [.dirty 10]) fun ce =>
    match ce.queue with
    | _ :: e :: rest =>
      if e.index = i ∧ e.tag = tag then
        Reaction.andThen (Ce.becomeCurrent { ce with queue := e :: rest, phase := .loading, fired := [] }) Ce.predict
      else
        Reaction.andThen ({ ce with pathMiss := satInc 65535 ce.pathMiss }, [.log .pathMiss (halfOf i), .dropRead])
          (fun c => c.place i tag)
    | _ => ce.place i tag

/-- The successor and branch tag chosen from the fired copy, with the loop table and LOOP_TABLE_FULL (R176, R177). -/
def Ce.choose (ce : Ce) : (Nat × BranchTag) × List LoopEntry × List Notice :=
  let r := ce.fired
  if recIsAwait r then (if ce.timedOut then recAltIndex ce.index r else recNextIndex ce.index r, ce.loops, [])
  else if recRepeats r then
    let k := loopStep ce.loops ce.index (recRepeat r)
    (if k.2.1 then recAltIndex ce.index r else recNextIndex ce.index r, k.1,
      if k.2.2 then [.log .loopTableFull (halfOf ce.index)] else [])
  else (recNextIndex ce.index r, ce.loops, [])

/-- The successor step (R176). -/
def Ce.successor (ce : Ce) : Reaction Ce :=
  let k := ce.choose
  Reaction.andThen ({ ce with loops := k.2.1 }, k.2.2) fun ce =>
    if Config.cueRecords ≤ k.1.1 then ce.halt .range else ce.advance k.1.1 k.1.2

/-! ## Issuing -/

/-- The slide action's deposit (R173). -/
def slideNotices (r : List Byte) : List Notice :=
  if recHasSlide r then [.deposit .cue (recSlideKind r)] else []

/-- The lamp action: a return fade to store beside a slide action, otherwise a fade to start now (R173). -/
def lampNotices (r : List Byte) : List Notice :=
  if recHasLamp r then [.lampAction (!recHasSlide r) (recLampLevel r) (recLampCurve r) (recLampTime r * 20)] else []

/-- The extra action (R173). -/
def extraNotices (r : List Byte) : List Notice :=
  match recExtraOp r with
  | 1 => [.tapePlay]
  | 2 => [.tapeStop]
  | 3 => [.audioAction (recExtraArg r)]
  | 4 => [.runTrigger (BitVec.ofNat 2 (recExtraArg r))]
  | 5 => [.log .mark (halfOf (recExtraArg r))]
  | _ => []

/-- The lateness of an issue: the show clock past the fire instant (R174). -/
def Ce.lateness (ce : Ce) : Nat := (ce.clock - ce.dueInstant).toNat

/-- CUE_LATE and the late maximum (R174). -/
def Ce.noteLate (ce : Ce) : Reaction Ce :=
  let late := min 65535 ce.lateness
  if late = 0 then (ce, []) else ({ ce with lateMax := max ce.lateMax late }, [.log .cueLate (halfOf late)])

/-- The actions of a due record are issued and it passes on (R172 to R174, R178). The deposit is a notice, so where the
arbiter refuses it at once the record has passed on, and a successor that is due at once has acted, before the outcome halts
the show, an order that R138 and R175 leave open (DESIGN CHOICE, assumption log 44). -/
def Ce.issueNow (ce : Ce) : Reaction Ce :=
  let r := ce.fired
  let issued : Ce := { ce with phase := .fired, pendingMarker := if recHasSlide r then some false else ce.pendingMarker }
  Reaction.andThen
    (Reaction.andThen (issued, slideNotices r ++ lampNotices r ++ extraNotices r) Ce.noteLate)
    fun ce => if recIsAwait r ∨ reached ce.clock ce.timelineInstant then ce.successor else (ce, [])

/-- A due record's issue: at once, or HELD while its slide deposit would be answered occupied (R173, R174). -/
def Ce.issue (ce : Ce) (free : Bool) : Reaction Ce :=
  if recHasSlide ce.fired ∧ ¬ (free = true ∧ ce.pendingMarker = none) then ({ ce with phase := .held }, [])
  else ce.issueNow

/-- A DELAY becomes due at its fire instant (R172). -/
def Ce.fire (ce : Ce) (r : List Byte) (outTime : Nat) (free : Bool) : Reaction Ce :=
  Ce.issue { ce with fired := r, timelineInstant := ce.afterStart (recTime r), dueInstant := ce.fireInstant r outTime }
    free

/-- A DELAY in WAITING whose fire instant has been reached (R172). -/
def Ce.fireReady (ce : Ce) (r : List Byte) (outTime : Nat) : Bool :=
  recIsDelay r && reached ce.clock (ce.fireInstant r outTime)

/-- The await's timeout has been reached (R178). -/
def Ce.timeoutReady (ce : Ce) (r : List Byte) : Bool :=
  recIsAwait r && decide (0 < recTime r) && reached ce.clock (ce.afterStart (recTime r))

/-- An await is resolved, by its event or by its timeout (R178, R183). -/
def Ce.resolve (ce : Ce) (r : List Byte) (timedOut free : Bool) : Reaction Ce :=
  Reaction.andThen
    ({ ce with timelineInstant := ce.clock, dueInstant := ce.clock, timedOut := timedOut, fired := r,
               memory := remember ce.memory ce.index timedOut },
      if timedOut then [.log .awaitTimeout (halfOf ce.index)] else [])
    fun ce => ce.issue free

/-- FIRE_INSTANT: a WAITING DELAY whose fire instant is reached becomes due (R172). -/
def Ce.fireInstantReached (ce : Ce) (outTime : Nat) (free : Bool) : Reaction Ce :=
  match ce.waiting? with
  | some r => if ce.fireReady r outTime then ce.fire r outTime free else (ce, [])
  | none => (ce, [])

/-- TIMELINE_INSTANT: a FIRED record whose T is reached takes its successor step (R172, R176). -/
def Ce.timelineReached (ce : Ce) : Reaction Ce :=
  if ce.showState = .running ∧ ce.phase = .fired ∧ reached ce.clock ce.timelineInstant then ce.successor else (ce, [])

/-- AWAIT_TIMEOUT: a WAITING await whose timeout is reached is resolved by it (R178). -/
def Ce.timeoutReached (ce : Ce) (free : Bool) : Reaction Ce :=
  match ce.waiting? with
  | some r => if ce.timeoutReady r then ce.resolve r true free else (ce, [])
  | none => (ce, [])

/-- A HELD record is offered again in a RUNNING show (R174). -/
def Ce.offer (ce : Ce) (free : Bool) : Reaction Ce :=
  if ce.showState = .running ∧ ce.phase = .held then ce.issue free else (ce, [])

/-- The current record is an await of this form for this argument, WAITING in a RUNNING show (R179 to R182). -/
def Ce.awaits? (ce : Ce) (form : Nat) : Option (List Byte) :=
  match ce.waiting? with
  | some r => if recForm r = form then some r else none
  | none => none

/-- The engine takes a press of this key (R180). -/
def Ce.takesKey (ce : Ce) (key : BitVec 5) : Bool :=
  match ce.awaits? 3 with
  | some r => recWaitArg r == key.toNat
  | none => false

/-- A press that the engine takes resolves the await (R180). -/
def Ce.takeKey (ce : Ce) (free : Bool) : Reaction Ce :=
  match ce.awaits? 3 with
  | some r => ce.resolve r false free
  | none => (ce, [])

/-- One look at the cue FIFO for a class: what stays in the FIFO, the mismatches discarded and whether a match was found
(R179). -/
def lookFifo (cls : Nat) : List CueEntry → List CueEntry × List Notice × Bool
  | [] => ([], [], false)
  | e :: rest =>
    if e.cls.number = cls then (rest, [], true)
    else
      let k := lookFifo cls rest
      (k.1, .log .cueMismatch (argPair cls e.cls.number) :: k.2.1, k.2.2)

/-! ## Outcomes -/

/-- The halt a pending or in-service outcome brings, if any (R175). -/
def haltOf? : OpOutcome → Option HaltReason
  | .jammed => some .jammed
  | .abortedCutoff => some .cutoff
  | .refusedUnhomed | .refusedNoTray => some .refused
  | .outOfTray => some .range
  | .discarded => some .cutoff
  | .done | .emptySlot | .preempted | .withdrawn => none

/-- The outcome frees the pending marker; the others free the in-service marker (R175). -/
def freesPending : OpOutcome → Bool
  | .refusedUnhomed | .refusedNoTray | .outOfTray | .discarded | .withdrawn => true
  | _ => false

/-- A CUE outcome is delivered (R175). -/
def Ce.takeOutcome (ce : Ce) (result : OpOutcome) : Reaction Ce :=
  let marker := if freesPending result then ce.pendingMarker else ce.serviceMarker
  let freed : Ce := if freesPending result then { ce with pendingMarker := none } else { ce with serviceMarker := none }
  match marker, haltOf? result with
  | some false, some reason => freed.halt reason
  | _, _ => (freed, [])

/-- A slot-empty notice: the marker moves, then a HELD record is offered (R174, R175). `free` is the CUE slot as it
stands. -/
def Ce.slotEmptied (ce : Ce) (free : Bool) : Reaction Ce :=
  match ce.pendingMarker with
  | some stale => Ce.offer { ce with serviceMarker := some stale, pendingMarker := none } free
  | none => ce.offer free

/-! ## Fetches and host edits -/

/-- The entry being fetched: the last one, unless it is a due entry 0 (R184). -/
def Ce.fetching? (ce : Ce) : Option StagedEntry :=
  match ce.queue.getLast? with
  | some e => if e.valid = true ∨ (ce.queue.length = 1 ∧ ce.due = true) then none else some e
  | none => none

/-- What follows the end of a fetch: entry 0 is judged, then the successor is predicted (R171, R184, R185). A record that is
judged into WAITING is looked at by a notice, so the predicted successor is staged before a record that is due, or timed
out, at that same instant acts (DESIGN CHOICE, assumption log 34). -/
def Ce.fetchEnd (ce : Ce) (r : List Byte) : Reaction Ce :=
  Reaction.andThen (if ce.queue.length = 1 then ce.judge r else (ce, [])) Ce.predict

/-- A byte of the fetch is returned by an own read cycle (R184). -/
def Ce.takeByte (ce : Ce) (b : Byte) : Reaction Ce :=
  match ce.fetching? with
  | none => (ce, [])
  | some e =>
    let copy := e.copy ++ [b]
    if copy.length < 16 then
      ({ ce with queue := ce.queue.dropLast ++ [{ e with copy := copy }] }, [.askRead (recordOffset e.index + copy.length)])
    else Ce.fetchEnd { ce with queue := ce.queue.dropLast ++ [{ e with copy := copy, valid := true }] } copy

/-- An entry invalidated for its fetch to start from byte 0 (R187, R188). -/
def StagedEntry.restart (e : StagedEntry) : StagedEntry := { e with copy := [], valid := false }

/-- The entries from the first that holds `x` on: those before it, and it with those after it (R187). -/
def splitAtIndex (x : Nat) : List StagedEntry → Option (List StagedEntry × StagedEntry × List StagedEntry)
  | [] => none
  | e :: rest =>
    if e.index = x then some ([], e, rest)
    else
      match splitAtIndex x rest with
      | none => none
      | some (pre, k, post) => some (e :: pre, k, post)

/-- The read asked for when the fetch of record `x` starts from byte 0, with `removed` the entries taken out behind it. A
fetch of one of those is abandoned, and its request withdrawn first. With nothing removed, the record's own fetch is
restarted by the replacement of its request (R187, R188, R196; assumption log 30). -/
def refetch (x : Nat) (removed : List StagedEntry) : List Notice :=
  (if removed = [] then [] else [.dropRead]) ++ [.askRead (recordOffset x)]

/-- A snoop notice for the entries after entry 0 (R187). `cleared` says entry 0's valid flag was cleared. -/
def Ce.editLater (ce : Ce) (head : StagedEntry) (rest : List StagedEntry) (x : Nat) (cleared : Bool) : Reaction Ce :=
  match splitAtIndex x rest with
  | none => ({ ce with queue := head :: rest }, if cleared then [.log .stageInvalidated (halfOf x)] else [])
  | some (pre, e, post) =>
    ({ ce with queue := head :: pre ++ [e.restart] },
      (if cleared = true ∨ e.valid = true ∨ post ≠ [] then [.log .stageInvalidated (halfOf x)] else []) ++
        refetch x post)

/-- A host write to record `x` is snooped (R187, R188). -/
def Ce.edit (ce : Ce) (x : Nat) : Reaction Ce :=
  match ce.queue with
  | [] => (ce, [])
  | e :: rest =>
    if e.index = x then
      if ce.due then ce.editLater { e with valid := false } rest x e.valid
      else
        ({ ce with queue := [e.restart], phase := .loading },
          (if e.valid = true ∨ rest ≠ [] then [.log .stageInvalidated (halfOf x)] else []) ++ refetch x rest)
    else ce.editLater e rest x false

/-! ## Directives -/

/-- SHOW_START (R167). `cut` is the cutoff flag. -/
def Ce.start (ce : Ce) (i : Nat) (cut : Bool) : Reaction Ce × Result :=
  if ce.active = true ∨ cut = true then ((ce, []), .refusedState)
  else if Config.cueRecords ≤ i then ((ce, []), .badOperand)
  else
    (({ ce with showState := .running, reason := .none, index := i, clock := 0, lateMax := 0, pathMiss := 0,
                queue := [⟨i, [], false, .sequential⟩], phase := .loading, startInstant := 0, timelineInstant := 0,
                dueInstant := 0, fired := [], timedOut := false, loops := [], memory := [],
                pendingMarker := ce.pendingMarker.map fun _ => true,
                serviceMarker := ce.serviceMarker.map fun _ => true },
      [.log .showStarted (halfOf i), .askRead (recordOffset i)]), .done)

/-- SHOW_PAUSE (R168). -/
def Ce.pause (ce : Ce) : Ce × Result :=
  if ce.showState = .running then ({ ce with showState := .paused }, .done) else (ce, .refusedState)

/-- SHOW_RESUME (R168). -/
def Ce.resume (ce : Ce) : Reaction Ce × Result :=
  if ce.showState = .paused then (({ ce with showState := .running }, [.progress]), .done) else ((ce, []), .refusedState)

/-- SHOW_STOP (R169). -/
def Ce.stop (ce : Ce) : Reaction Ce := ({ ce.unstage with showState := .idle }, [.withdraw, .dropRead])

/-- CUE_GO (R182). -/
def Ce.go (ce : Ce) (free : Bool) : Reaction Ce × Result :=
  match ce.awaits? 5 with
  | some r => (ce.resolve r false free, .done)
  | none => ((ce, []), .refusedState)

/-- SHOW_LEAD (R170). -/
def Ce.setLead (ce : Ce) (enable extra : Byte) : Reaction Ce × Result :=
  if 1 < enable.toNat then ((ce, []), .badOperand)
  else (({ ce with leadOn := enable == 1, leadExtra := extra.toNat }, [.refire]), .done)

/-- One millisecond passes: the show clock counts while RUNNING (R166). -/
def Ce.tick (ce : Ce) : Ce := if ce.showState = .running then { ce with clock := ce.clock + 1 } else ce

end Sys2Proof.Machine
end

