-- ==== Sys2Proof/Machine/Lamp.lean ====
section
/-! DEFINITION. The Lamp Controller (02_lamp_fades_and_the_heat_estimate.md): each function takes the block's record and
answers its new record, with the notices it makes where it makes any. -/

namespace Sys2Proof.Machine

/-! ## The output -/

/-- The level that the state drives before any bound: the fade level in LIT, the ramp in STRIKING (R41). -/
def Lc.drive (lc : Lc) : Nat :=
  match lc.state with
  | .lit => lc.fadeLevel
  | .striking => (lc.strike.map (·.ramp)).getD 0
  | _ => 0

/-- The hold cap, a term only in HELD (R41, R47). -/
def Lc.holdCap (lc : Lc) : Nat := if lc.hold = .held then lc.holdLevel.getD 1023 else 1023

/-- The cutoff cap, a term under CAP and while it lingers through a strike (R41, R51). -/
def Lc.cutoffCap (lc : Lc) : Nat := if lc.imposition = .cap ∨ lc.capLingers = true then lc.capLevel else 1023

/-- The output by R41: the least of the drive and its bounds in LIT and STRIKING, 0 otherwise. -/
def Lc.computedOutput (lc : Lc) : Nat :=
  if lc.state = .lit ∨ lc.state = .striking then
    min lc.drive (min lc.ceiling (min lc.derate (min lc.holdCap lc.cutoffCap)))
  else 0

/-- The condition under which the failure watch runs (R36). -/
def Lc.watched (lc : Lc) : Bool := lc.state == .lit && !lc.lcur && decide (64 < lc.output)

/-- The failure watch as its condition asks: running on, started afresh, or cancelled (R36). -/
def Lc.rewatch (lc : Lc) : Lc :=
  { lc with failureWatch := if lc.watched then some (lc.failureWatch.getD 100) else none }

/-- In DARKENING, an output at or below b moves the hold to HELD and sends the report (R47). -/
def Lc.checkDark (lc : Lc) : Lc :=
  if lc.hold = .darkening ∧ lc.output ≤ lc.holdLevel.getD 1023 then { lc with hold := .held, report := true } else lc

/-- The output computed afresh, with the blackout check and the failure watch that follow from it (R36, R41, R47). -/
def Lc.recompute (lc : Lc) : Lc := (Lc.checkDark { lc with output := lc.computedOutput }).rewatch

/-! ## Fades -/

/-- A fraction rounded half away from zero, with a positive divisor. -/
def roundHalfAway (num : Int) (den : Nat) : Int :=
  let r : Nat := (2 * num.natAbs + den) / (2 * den)
  if num < 0 then -(r : Int) else r

/-- The course value c of a fade (R44, steps 1 to 3). -/
def Lc.course (lc : Lc) (f : Fade) : Nat :=
  let u := f.elapsed * 16128 / f.duration
  if f.curve = 4 then (u * 255 + 8064) / 16128
  else
    let i := u / 256
    let w := u % 256
    let point (j : Nat) : Nat := (lc.curves.getD (64 * f.curve + j) 0).toNat
    if i = 63 then point 63 else (point i * (256 - w) + point (i + 1) * w + 128) / 256

/-- The fade level of a fade that has not completed (R44, step 4). -/
def Lc.fadeValue (lc : Lc) (f : Fade) : Nat :=
  ((f.start : Int) + roundHalfAway (((f.target : Int) - f.start) * lc.course f) 255).toNat

/-- The fade's time has run: D = 0 or t at or past D (R42). -/
def Fade.complete (f : Fade) : Bool := f.duration == 0 || decide (f.duration ≤ f.elapsed)

/-- A fade starts from the output at this instant, replacing any in progress (R42). -/
def Lc.startFade (lc : Lc) (target curve duration : Nat) : Lc :=
  { lc with fade := some ⟨lc.output, target, curve, duration, 0⟩, fadeLevel := lc.output }

/-- The fade in progress evaluated at a lamp update (R42, R44). -/
def Lc.evalFade (lc : Lc) : Lc :=
  match lc.fade with
  | none => lc
  | some f =>
    if f.complete then { lc with fade := none, fadeLevel := f.target } else { lc with fadeLevel := lc.fadeValue f }

/-- The strike's ramp evaluated at a lamp update (R35). -/
def Lc.evalStrike (lc : Lc) : Lc :=
  { lc with strike := lc.strike.map fun k => { k with ramp := k.target * min k.elapsed 600 / 600 } }

/-- A lamp update: strikes and fades advance, and the next update is 2 ms away (R35, R42, R44). -/
def Lc.update (lc : Lc) : Lc := (Lc.evalStrike (Lc.evalFade { lc with lampPhase := some 2 })).recompute

/-! ## Lamp states -/

/-- A lamp's good flag. -/
def Lc.good (lc : Lc) : Lamp → Bool
  | .a => lc.goodA
  | .b => lc.goodB

/-- The lamp that is not at the focal point. -/
def Lamp.other : Lamp → Lamp
  | .a => .b
  | .b => .a

/-- At least one lamp is good. -/
def Lc.anyGood (lc : Lc) : Bool := lc.goodA || lc.goodB

/-- OFF is entered: fades and strike are discarded and LAMP_OFF is logged with `arg` (R33, R51). A cap that lingers after
its lift is kept for the next strike (assumption log 15). -/
def Lc.enterOff (lc : Lc) (arg : Half) : Reaction Lc :=
  (Lc.recompute { lc with state := .off, fade := none, stored := none, strike := none }, [.log .lampOff arg])

/-- STRIKING is entered with the show level of this instant as target (R35). -/
def Lc.enterStriking (lc : Lc) : Lc :=
  Lc.recompute { lc with state := .striking, strike := some ⟨lc.showLevel, 0, 0⟩ }

/-- STRIKING, or WAIT_COOL with STRIKE_DEFERRED, as H compares with RM (R34). -/
def Lc.strikeOrWait (lc : Lc) : Reaction Lc :=
  if lc.h ≤ lc.restrikeMax then (lc.enterStriking, [])
  else (Lc.recompute { lc with state := .waitCool }, [.log .strikeDeferred (halfOf lc.h)])

/-- EXCHANGE is entered toward the other lamp (R38). -/
def Lc.enterExchange (lc : Lc) (intent : Bool) : Lc :=
  Lc.recompute
    { lc with state := .exchange, active := lc.active.other, restrike := intent, moveCleared := false,
              moveTimer := some 1500, strike := none, fade := none }

/-- The restrike intent is cleared during a move (R33, R51). -/
def Lc.clearIntent (lc : Lc) : Lc := { lc with restrike := false, moveCleared := lc.moveCleared || lc.restrike }

/-- A lamp in WAIT_COOL strikes as soon as H is at or below RM (R34). -/
def Lc.checkWait (lc : Lc) : Lc :=
  if lc.state = .waitCool ∧ lc.h ≤ lc.restrikeMax then lc.enterStriking else lc

/-- The lamp fails (R37). A cap that lingers after its lift is kept for the next strike (assumption log 15). -/
def Lc.fail (lc : Lc) : Reaction Lc :=
  let logged := [Notice.log .lampFail (halfOf lc.active.number)]
  let lc := { lc with goodA := lc.goodA && lc.active != Lamp.a, goodB := lc.goodB && lc.active != Lamp.b, fade := none,
                      heldRelease := none, strike := none }
  if lc.good lc.active.other then
    let moved : Lc := lc.enterExchange true
    (if moved.imposition = .off then moved.clearIntent else moved, logged)
  else (Lc.recompute { lc with state := .failed, stored := none }, logged)

/-- LAMP_ON (R32). In EXCHANGE it also drops the mark of an intent that was cleared earlier in the move, so an intent that
PRST then clears brings no LAMP_OFF at the end of the move, where R38 leaves open whether the earlier clearing still counts
(DESIGN CHOICE, assumption log 43). -/
def Lc.on (lc : Lc) : Reaction Lc × Result :=
  if lc.imposition = .off then ((lc, []), .refusedState)
  else
    match lc.state with
    | .off => if lc.good lc.active then (lc.strikeOrWait, .done) else ((lc.enterExchange true, []), .done)
    | .exchange => (({ lc with restrike := true, moveCleared := false }, []), .done)
    | .failed => ((lc, []), .refusedState)
    | _ => ((lc, []), .done)

/-- LAMP_OFF (R33). -/
def Lc.off (lc : Lc) : Reaction Lc :=
  match lc.state with
  | .striking | .lit | .waitCool => lc.enterOff 0
  | .exchange => (lc.clearIntent, [])
  | .off | .failed => (lc, [])

/-- The end of the changer move (R38). The argument of LAMP_OFF is 1 exactly where OFF is imposed at this instant, whatever
cleared the intent, where R33 and R38 differ or leave it open (DESIGN CHOICE, assumption log 38). -/
def Lc.moveEnd (lc : Lc) : Reaction Lc :=
  if lc.state = .exchange ∧ lc.moveTimer.due then
    let exchanged := Notice.log .lampExchanged (halfOf lc.active.number)
    let intent := lc.restrike
    let cleared := lc.moveCleared
    let lc := { lc with moveTimer := none, restrike := false, moveCleared := false }
    if ¬ lc.anyGood then (Lc.recompute { lc with state := .failed, stored := none }, [exchanged])
    else if intent then let r := lc.strikeOrWait; (r.1, exchanged :: r.2)
    else
      let off := Lc.recompute { lc with state := .off, stored := none }
      (off, exchanged ::
        (if cleared then [Notice.log .lampOff (if lc.imposition = .off then 1 else 0)] else []))
  else (lc, [])

/-- LAMP_SPARE (R39). -/
def Lc.spare (lc : Lc) (goodA goodB : Bool) (chosen : Lamp) : Lc × Result :=
  if lc.state = .off ∨ lc.state = .failed then
    let lc := { lc with goodA := goodA, goodB := goodB }
    if chosen = lc.active then
      (Lc.recompute { lc with state := if lc.anyGood then .off else .failed }, .done)
    else (lc.enterExchange false, .done)
  else (lc, .refusedState)

/-! ## Fade orders and levels -/

/-- An order that has passed its checks (R43): `now` for a fade to start, false for a return fade to store. -/
def Lc.order (lc : Lc) (now : Bool) (level curve duration : Nat) : Lc :=
  let lc := { lc with showLevel := level }
  let store := { lc with stored := some ⟨level, curve, duration⟩ }
  match lc.state with
  | .lit =>
    if now ∧ lc.hold = .none then (Lc.startFade { lc with stored := none } level curve duration).recompute else store
  | .striking => store
  | _ => lc

/-- LAMP_FADE (R43). -/
def Lc.fadeDirective (lc : Lc) (level curve units : Nat) : Lc × Result :=
  if 4 < curve then (lc, .badOperand)
  else (lc.order true (min level 1023) curve (units * 20), if 1023 < level then .clamped else .done)

/-- LAMP_CEILING (R40). -/
def Lc.setCeiling (lc : Lc) (level : Nat) : Lc × Result :=
  (Lc.recompute { lc with ceiling := min level 1023 }, if 1023 < level then .clamped else .done)

/-! ## The blackout hold -/

/-- The hold ends (R49). -/
def Lc.endHold (lc : Lc) : Lc := { lc with hold := .none, holdLevel := none }

/-- The return fade of a release with the lamp LIT: the stored fade, or a fade to SL over the in time (R49). -/
def Lc.returnFade (lc : Lc) (inTime : Nat) : Lc :=
  match lc.stored with
  | some f => Lc.endHold { lc.startFade f.target f.curve f.duration with stored := none }
  | none => (lc.startFade lc.showLevel 4 inTime).endHold

/-- A release (R49, R50). -/
def Lc.takeRelease (lc : Lc) (inTime : Nat) : Lc :=
  if lc.hold = .none then lc
  else
    match lc.state with
    | .lit => (lc.returnFade inTime).recompute
    | .striking => { lc with heldRelease := some inTime }
    | _ => Lc.recompute { lc.endHold with stored := none }

/-- A darken request (R46). -/
def Lc.takeDarken (lc : Lc) (outTime b : Nat) : Lc :=
  let lc := { lc with holdLevel := some b, heldRelease := none, report := false }
  if lc.hold = .darkening then (lc.startFade b 4 outTime).recompute
  else if lc.output ≤ b ∨ lc.state = .striking then Lc.recompute { lc with hold := .held, report := true }
  else Lc.recompute { lc.startFade b 4 outTime with hold := .darkening }

/-- A snap request (R48). -/
def Lc.takeSnap (lc : Lc) : Lc :=
  match lc.hold with
  | .darkening =>
    Lc.recompute { lc with fade := none, fadeLevel := lc.holdLevel.getD 0, hold := .held, report := true }
  | .held => { lc with report := true }
  | .none => lc

/-! ## The strike's end, LCUR and the failure watch -/

/-- Entry to LIT at the end of a strike: the fade level is the strike target, then a held-over release, a stored fade
or the fade after a lifted cutoff cap takes effect (R35, R50, R51). -/
def Lc.enterLit (lc : Lc) (target inTime : Nat) : Lc :=
  let lit : Lc := Lc.recompute { lc with state := .lit, strike := none, fadeLevel := target }
  let after : Lc :=
    match lit.heldRelease, lit.stored with
    | some t, _ => Lc.returnFade { lit with heldRelease := none } t
    | none, some f =>
      if lit.hold = .none then { lit.startFade f.target f.curve f.duration with stored := none } else lit
    | none, none => if lit.capLingers = true ∧ lit.hold = .none then lit.startFade lit.showLevel 4 inTime else lit
  Lc.recompute { after with capLingers := false }

/-- The end of the 600 ms strike: LCUR decides (R35). `inTime` is the current in time of CHANGE_PROFILE. -/
def Lc.strikeEnd (lc : Lc) (inTime : Nat) : Reaction Lc :=
  match lc.state, lc.strike with
  | .striking, some k =>
    if k.elapsed < 600 then (lc, [])
    else if lc.lcur then (lc.enterLit k.target inTime, [.log .lampLit (halfOf lc.active.number)])
    else lc.fail
  | _, _ => (lc, [])

/-- LCUR changes (R36). -/
def Lc.setCurrent (lc : Lc) (present : Bool) : Lc := Lc.rewatch { lc with lcur := present }

/-- The failure watch expires (R36, R37). -/
def Lc.watchExpiry (lc : Lc) : Reaction Lc := if lc.failureWatch.due then lc.fail else (lc, [])

/-! ## Imposition -/

/-- The lamp imposition changes (R51). `blackout` and `inTime` are what CHANGE_PROFILE has set. -/
def Lc.impose (lc : Lc) (new : LampImposition) (blackout inTime : Nat) : Reaction Lc :=
  let old := lc.imposition
  if new = old then (lc, [])
  else
    match new with
    | .off =>
      let lc := { lc with imposition := .off, capLingers := false }
      match lc.state with
      | .striking | .lit | .waitCool => lc.enterOff 1
      | .exchange => (lc.clearIntent, [])
      | .off | .failed => (lc, [])
    | .cap => (Lc.recompute { lc with imposition := .cap, capLevel := blackout, capLingers := false }, [])
    | .none =>
      let lc := { lc with imposition := .none }
      if old = .cap ∧ lc.hold = .none ∧ lc.state = .lit then ((lc.startFade lc.showLevel 4 inTime).recompute, [])
      else if old = .cap ∧ lc.hold = .none ∧ lc.state = .striking then (Lc.recompute { lc with capLingers := true }, [])
      else (lc.recompute, [])

/-! ## The heat estimate -/

/-- The derate limit of H between the thresholds (R54, middle row). -/
def derateBetween (h ds oh : Nat) : Nat := 1023 - (h - ds) * 767 / (oh - ds)

/-- The derate limit of H (R54). -/
def derateOf (h ds oh : Nat) : Nat :=
  if h ≤ ds then 1023 else if h < oh then derateBetween h ds oh else derateBetween (oh - 1) ds oh

/-- OVERHEAT as H moves it, keeping its last value between the thresholds (R55). -/
def overheatOf (h ds oh : Nat) (last : Bool) : Bool := if oh ≤ h then true else if h < ds then false else last

/-- DERATE_BEGIN when the limit leaves 1023, DERATE_END when it returns (R54). -/
def derateEvents (before after h : Nat) : List Notice :=
  if before = 1023 ∧ after ≠ 1023 then [.log .derateBegin (halfOf h)]
  else if before ≠ 1023 ∧ after = 1023 then [.log .derateEnd (halfOf h)]
  else []

/-- What follows a new H or a new profile: the derate limit with its output, then OVERHEAT (R52 to R55). -/
def Lc.reheat (lc : Lc) : Reaction Lc :=
  let limit := derateOf lc.h lc.derateStart lc.overheatLevel
  let hot := overheatOf lc.h lc.derateStart lc.overheatLevel lc.overheat
  (Lc.recompute { lc with derate := limit, overheat := hot },
    derateEvents lc.derate limit lc.h ++ (if hot = lc.overheat then [] else [.levelCause .overheat hot]))

/-- H after a heat update, from the output and the last measured fan speed F (R52). -/
def Lc.nextH (lc : Lc) (fan : Nat) : Nat :=
  min 65535 (lc.h + lc.output * lc.lampGain / 64 - lc.h * (64 + fan * lc.fanGain) / 65536)

/-- A heat update (R52). -/
def Lc.heatUpdate (lc : Lc) (fan : Nat) : Reaction Lc :=
  let r := Lc.reheat { lc with h := lc.nextH fan, heatPhase := some 100 }
  (r.1.checkWait, r.2)

/-- HEAT_PROFILE (R53). `coolDone` is the Fan Controller's cool-done level. -/
def Lc.heatProfile (lc : Lc) (lampGain fanGain ds oh rm : Byte) (coolDone : Nat) : Reaction Lc × Result :=
  if lampGain.toNat = 0 ∨ ¬ (rm.toNat < ds.toNat ∧ ds.toNat < oh.toNat) ∨ rm.toNat * 256 ≤ coolDone then
    ((lc, []), .badOperand)
  else
    let r := Lc.reheat { lc with lampGain := lampGain.toNat, fanGain := fanGain.toNat, derateStart := ds.toNat * 256,
                                 overheatLevel := oh.toNat * 256, restrikeMax := rm.toNat * 256 }
    ((r.1.checkWait, r.2), .done)

/-! ## Curves, time and reset -/

/-- A curve point is replaced in the shadow (R45). -/
def Lc.setPoint (lc : Lc) (index : Nat) (value : Byte) : Lc := { lc with curves := lc.curves.set index value }

/-- One millisecond passes. -/
def Lc.tick (lc : Lc) : Lc :=
  { lc with lampPhase := lc.lampPhase.tick, heatPhase := lc.heatPhase.tick, moveTimer := lc.moveTimer.tick,
            failureWatch := lc.failureWatch.tick,
            fade := lc.fade.map fun f => { f with elapsed := f.elapsed + 1 },
            strike := lc.strike.map fun k => { k with elapsed := k.elapsed + 1 } }

/-- The state after PRST (R58). The derate limit and OVERHEAT follow from the kept H against the default profile. The fade
level, which R58 does not name, is kept (assumption log 31). -/
def Lc.partReset (lc : Lc) : Reaction Lc :=
  let moving := lc.state == .exchange
  let base : Lc :=
    { lc with state := if moving then .exchange else if lc.anyGood then .off else .failed,
              restrike := false, output := 0, fade := none, stored := none, strike := none, heldRelease := none,
              failureWatch := none, hold := .none, holdLevel := none, report := false, imposition := .none,
              capLevel := 0, capLingers := false, showLevel := 900, ceiling := 1023, lampGain := Lc.reset.lampGain,
              fanGain := Lc.reset.fanGain, derateStart := Lc.reset.derateStart,
              overheatLevel := Lc.reset.overheatLevel, restrikeMax := Lc.reset.restrikeMax }
  let limit := derateOf base.h base.derateStart base.overheatLevel
  let hot := overheatOf base.h base.derateStart base.overheatLevel base.overheat
  (Lc.recompute { base with derate := limit, overheat := hot }, derateEvents lc.derate limit lc.h)

end Sys2Proof.Machine
end

