-- ==== Sys2Proof/Machine/Remote.lean ====
section
/-! DEFINITION. The Remote Receiver's own record (06_remote_control_and_focus.md): the frame receiver, addressing, the
held key's timers and the focus drive. Presses and the actions of keys, which reach other blocks, stand in
Machine/Press.lean. -/

namespace Sys2Proof.Machine

/-! ## The frame receiver -/

/-- RESYNC is entered: the idle timer starts if the line is high (R116, R127). -/
def Rr.resync (rr : Rr) : Rr :=
  { rr with receiver := .resync, lowLimit := none, frameEnd := none, idleTimer := if rr.rline then some 3 else none }

/-- The bits received so far (R113). -/
def Receiver.bits : Receiver → List Bool
  | .space bits | .bit bits => bits
  | _ => []

/-- A frame fails with this kind: counted, logged, and LISTEN or RESYNC entered (R116). -/
def Rr.fail (rr : Rr) (failure : FrameFailure) (listens : Bool) : Reaction Rr :=
  let logged := Notice.log .frameError (argPair (FrameFailure.number failure) rr.receiver.bits.length)
  let rr : Rr := { rr with errors := satInc 255 rr.errors }
  (if listens then { rr with receiver := .listen, lowLimit := none, frameEnd := none, idleTimer := none } else rr.resync,
    [logged])

/-- SPACE is entered with these bits: the frame-end timer starts (R114). -/
def Rr.enterSpace (rr : Rr) (bits : List Bool) : Rr :=
  { rr with receiver := .space bits, lowLimit := none, frameEnd := some 3 }

/-- The value of a bit pulse by its low time in microseconds (R113). -/
def bitOfPulse? (micros : Nat) : Option Bool :=
  if 450 ≤ micros ∧ micros ≤ 750 then some false
  else if 900 ≤ micros ∧ micros ≤ 1500 then some true
  else none

/-- An edge on RLINE that ends a level of `micros` microseconds (R113, R114, R116). -/
def Rr.edge (rr : Rr) (rising : Bool) (micros : Nat) : Reaction Rr :=
  if rising = rr.rline then (rr, [])
  else
    let rr : Rr := { rr with rline := rising }
    match rr.receiver, rising with
    | .listen, false => ({ rr with receiver := .start, lowLimit := some 3 }, [])
    | .start, true =>
      if 1800 ≤ micros ∧ micros ≤ 3000 then (rr.enterSpace [], []) else rr.fail .startPulse false
    | .space bits, false =>
      if bits.length = 12 then rr.fail .length false
      else if 450 ≤ micros ∧ micros ≤ 750 then
        ({ rr with receiver := .bit bits, frameEnd := none, lowLimit := some 3 }, [])
      else rr.fail .space false
    | .bit bits, true =>
      match bitOfPulse? micros with
      | some b => (rr.enterSpace (bits ++ [b]), [])
      | none => rr.fail .bitPulse false
    | .resync, rising => ({ rr with idleTimer := if rising then some 3 else none }, [])
    | _, _ => (rr, [])

/-- The low limit expires: the line is stuck low (R113). -/
def Rr.lowLimitExpiry (rr : Rr) : Reaction Rr :=
  if rr.lowLimit.due then
    match rr.receiver with
    | .start | .bit _ => rr.fail .stuckLow false
    | _ => (rr, [])
  else (rr, [])

/-- The idle timer of RESYNC expires (R116). -/
def Rr.idleExpiry (rr : Rr) : Rr :=
  if rr.receiver = .resync ∧ rr.idleTimer.due = true then { rr with receiver := .listen, idleTimer := none } else rr

/-- The frame-end timer has run out with all twelve bits received (R114). -/
def Rr.frameBits? (rr : Rr) : Option (List Bool) :=
  match rr.receiver with
  | .space bits => if bits.length = 12 ∧ rr.frameEnd.due = true then some bits else none
  | _ => none

/-- The check field agrees with the count of 1 bits (R115). -/
def frameGood (bits : List Bool) : Bool := frameField bits 10 2 == frameCheck bits

/-- The receiver after a completed frame (R114). -/
def Rr.frameDone (rr : Rr) : Rr := { rr with receiver := .listen, frameEnd := none }

/-- A frame that passes the check is accepted (R115). -/
def Rr.accepts (rr : Rr) (bits : List Bool) : Bool :=
  rr.enabled && (frameField bits 0 4 == rr.unit.toNat || frameField bits 0 4 == 15)

/-- The frame in progress fails in the named way, where the receiver's state allows it (R113 to R116): kinds 1 and 2 at
the rising edge, kind 3 at the falling edge, kind 4 at the low limit, kind 5 at the frame end or at a thirteenth
pulse, kind 6 at the frame end. -/
def Rr.frameError (rr : Rr) (failure : FrameFailure) : Reaction Rr :=
  match failure, rr.receiver with
  | .startPulse, .start => Rr.fail { rr with rline := true } .startPulse false
  | .bitPulse, .bit _ => Rr.fail { rr with rline := true } .bitPulse false
  | .space, .space bits =>
    if bits.length < 12 then Rr.fail { rr with rline := false } .space false else (rr, [])
  | .stuckLow, .start | .stuckLow, .bit _ => if rr.lowLimit.due then rr.fail .stuckLow false else (rr, [])
  | .length, .space bits =>
    if bits.length = 12 then Rr.fail { rr with rline := false } .length false
    else if rr.frameEnd.due then rr.fail .length true
    else (rr, [])
  | .check, .space bits =>
    if bits.length = 12 ∧ rr.frameEnd.due = true ∧ frameGood bits = false then rr.fail .check true else (rr, [])
  | _, _ => (rr, [])

/-- REMOTE_SETUP (R117). -/
def Rr.setup (rr : Rr) (unit enable : Byte) : Rr × Result :=
  if 15 < unit.toNat ∨ 1 < enable.toNat then (rr, .badOperand)
  else ({ rr with unit := BitVec.ofNat 4 unit.toNat, enabled := enable == 1 }, .done)

/-! ## Focus -/

/-- The drive ends (R124). -/
def Rr.stopFocus (rr : Rr) : Rr := { rr with focus := .stopped, escapeWatch := none }

/-- The limit side of a drive's direction. -/
def Focus.side : Focus → LimitSide
  | .stopped => .unknown
  | .inward => .inward
  | .outward => .outward

/-- A drive begins at a press, unless it would run against the known limit (R124). -/
def Rr.startFocus (rr : Rr) (direction : Focus) : Rr :=
  if rr.flim = true ∧ rr.limitSide = direction.side then rr
  else
    { rr with focus := direction,
              escapeWatch := if rr.flim = true ∧ rr.limitSide = .unknown then some 300 else none }

/-- The drive has reached the end it is driven toward (R125). -/
def Rr.limitReached (rr : Rr) : Rr := Rr.stopFocus { rr with limitSide := rr.focus.side }

/-- FLIM changes (R125). -/
def Rr.setFlim (rr : Rr) (active : Bool) : Rr :=
  if active = rr.flim then rr
  else
    let rr : Rr := { rr with flim := active }
    if active then (if rr.focus = .stopped then rr else rr.limitReached)
    else { rr with limitSide := .unknown, escapeWatch := none }

/-- The escape watch expires (R125). -/
def Rr.escapeExpiry (rr : Rr) : Rr :=
  if rr.escapeWatch.due = true ∧ rr.focus ≠ .stopped then rr.limitReached else rr

/-! ## Held key, key map, time and reset -/

/-- The held key ends: its timers are cancelled and a drive it started stops (R119, steps 1, 2 and 4). -/
def Rr.dropKey (rr : Rr) : Rr := Rr.stopFocus { rr with held := none, releaseTimer := none, repeatTimer := none }

/-- A new press is held (R118). -/
def Rr.hold (rr : Rr) (key : BitVec 5) (toggle consumed : Bool) : Rr :=
  { rr with held := some ⟨key, toggle, consumed⟩, lastKey := byteOf key.toNat, releaseTimer := some 250 }

/-- A byte of the key map is replaced in the shadow (R120). -/
def Rr.setMapByte (rr : Rr) (index : Nat) (value : Byte) : Rr := { rr with keyMap := rr.keyMap.set index value }

/-- One millisecond passes. -/
def Rr.tick (rr : Rr) : Rr :=
  { rr with lowLimit := rr.lowLimit.tick, frameEnd := rr.frameEnd.tick, idleTimer := rr.idleTimer.tick,
            releaseTimer := rr.releaseTimer.tick, repeatTimer := rr.repeatTimer.tick,
            escapeWatch := rr.escapeWatch.tick }

/-- The state after PRST (R128): that of POR with the pins as they stand and the key map kept. -/
def Rr.partReset (rr : Rr) : Rr :=
  Rr.resync { Rr.reset with rline := rr.rline, flim := rr.flim, keyMap := rr.keyMap }

end Sys2Proof.Machine
end

