-- ==== Sys2Proof/Machine/Press.lean ====
section
/-! DEFINITION. Key presses, repeats and releases of the Remote Receiver with the actions they hand on
(06_remote_control_and_focus.md, sections 6.3 and 6.4). The lamp, show and await choices are made on the state of the
instant (R121, R122), so these functions work on the whole state. -/

namespace Sys2Proof.Machine

/-- The arbiter's CUE slot is empty (R132). -/
def State.cueSlotFree (s : State) : Bool := s.ca.slots.cue.isNone

/-- LAMP_TOGGLE on the lamp state of the instant (R122). -/
def State.toggleLamp (s : State) : State :=
  match s.lc.state with
  | .waitCool | .striking | .lit => s.putLc s.lc.off
  | .off | .exchange | .failed => s.putLc s.lc.on.1

/-- SHOW_PAUSE_RESUME on the show state of the instant (R122). -/
def State.togglePause (s : State) : State :=
  match s.ce.showState with
  | .running => s.putCe (s.ce.pause.1, [])
  | .paused => s.putCe s.ce.resume.1
  | _ => s

/-- The action of a key-map entry is performed; the focus actions have no part in this (R122, R124). -/
def State.performAction (s : State) (e : KeyEntry) (key : BitVec 5) : State :=
  match e.effective with
  | 1 => s.post [.deposit .remote (.moveBy 1)]
  | 2 => s.post [.deposit .remote (.moveBy (-1))]
  | 3 => s.post [.deposit .remote (.changeTo e.argument)]
  | 4 => s.post [.deposit .remote .clearGate]
  | 5 => s.toggleLamp
  | 8 => s.togglePause
  | 9 => if e.argument ≤ 3 then s.post [.runTrigger (BitVec.ofNat 2 e.argument)] else s
  | 10 => s.post ((cueClass? e.argument).map Notice.writeCue).toList
  | 11 => s.post [.log .remoteStop (halfOf key.toNat), .edgeCause .remoteStop]
  | _ => s

/-- The focus direction of an entry's action (R122, R124). -/
def KeyEntry.focus? (e : KeyEntry) : Option Focus :=
  match e.effective with
  | 6 => some .inward
  | 7 => some .outward
  | _ => none

/-- A press that the engine has not taken acts on its entry's policy (R121, R124). A focus action starts no repeat timer
under any policy (assumption log 33). -/
def State.actOnPress (s : State) (key : BitVec 5) : State :=
  let e := s.rr.entry key
  match e.focus? with
  | some d => s.putRr (s.rr.startFocus d, [])
  | none =>
    match e.policy with
    | 0 => s.performAction e key
    | 1 =>
      let s := s.performAction e key
      if 0 < e.interval then s.putRr ({ s.rr with repeatTimer := some (e.interval * 100) }, []) else s
    | _ => s

/-- A new press: held, logged, offered to the engine and otherwise acted on (R118, R121, R180). Line 6 is marked dirty at
every press, the last key's own included (assumption log 33). -/
def State.press (s : State) (key : BitVec 5) (toggle : Bool) : State :=
  let consumed := s.ce.takesKey key
  let s := s.putRr (s.rr.hold key toggle consumed, [.log .key (argPair (flagNat consumed) key.toNat), .dirty 6])
  if consumed then s.putCe (s.ce.takeKey s.cueSlotFree) else s.actOnPress key

/-- A release of the held key (R119). -/
def State.releaseKey (s : State) : State :=
  match s.rr.held with
  | none => s
  | some h =>
    let e := s.rr.entry h.key
    let s := s.putRr (s.rr.dropKey, [])
    if e.policy = 2 ∧ h.consumed = false then s.performAction e h.key else s

/-- The release timer expires (R119). -/
def State.releaseExpiry (s : State) : State := if s.rr.releaseTimer.due then s.releaseKey else s

/-- The repeat timer expires (R123). -/
def State.repeatExpiry (s : State) : State :=
  match s.rr.held with
  | none => s
  | some h =>
    if s.rr.repeatTimer.due then
      let e := s.rr.entry h.key
      if e.policy = 1 ∧ 0 < e.interval then
        (s.putRr ({ s.rr with repeatTimer := some (e.interval * 100) }, [])).performAction e h.key
      else s.putRr ({ s.rr with repeatTimer := none }, [])
    else s

end Sys2Proof.Machine
end

