-- ==== Sys2Proof/Machine/Passage.lean ====
section
/-! DEFINITION. The Passage Unit (10_memory_passage_and_window_formats.md, sections 10.1 to 10.5): the own-cycle queue,
the wait count, and the RAM cycles of the part. The host's cycles stand in Machine/HostCycles.lean. -/

namespace Sys2Proof.Machine

/-- An own request is waiting (R196, R197). -/
def Pu.waiting (pu : Pu) : Bool := pu.ceRequest.isSome || pu.rwRequest.isSome

/-- The Cue Engine's cycle in progress is no longer wanted: its report will be discarded (R196). -/
def Pu.forgetRead (pu : Pu) : Pu :=
  { pu with own := pu.own.map fun c => if c.requester = .cueEngine then { c with live := false } else c }

/-- The Cue Engine asks for a read, in place of any it has asked for; a request replaced keeps the wait count
(R184, R196; assumption log 30). -/
def Pu.askRead (pu : Pu) (offset : Nat) : Pu := { pu.forgetRead with ceRequest := some offset }

/-- The cycle in progress carries a request of this requester that still stands: a request leaves the queue when its cycle
completes, or when it is withdrawn or replaced before that (R196). -/
def Pu.serves (pu : Pu) (requester : Requester) : Bool :=
  (pu.own.map fun c => c.requester == requester && c.live).getD false

/-- The own-cycle queue holds a read of the Cue Engine (R196). -/
def Pu.readQueued (pu : Pu) : Bool := pu.ceRequest.isSome || pu.serves .cueEngine

/-- The own-cycle queue holds a write of the Report Writer (R196). -/
def Pu.writeQueued (pu : Pu) : Bool := pu.rwRequest.isSome || pu.serves .reportWriter

/-- The Cue Engine withdraws its read, if it has one in the queue; a withdrawal that leaves the queue empty sets the count
to 0 (R196, R197). -/
def Pu.dropRead (pu : Pu) : Pu :=
  if pu.readQueued then
    { pu.forgetRead with ceRequest := none, waitCount := if pu.writeQueued then pu.waitCount else 0 }
  else pu

/-- The Report Writer asks for a write (R196). -/
def Pu.askWrite (pu : Pu) (w : WriteRequest) : Pu := { pu with rwRequest := some w }

/-- The head of the queue becomes the own cycle in progress, the Cue Engine's read first (R196). -/
def Pu.serve (pu : Pu) : Pu :=
  match pu.ceRequest, pu.rwRequest with
  | some offset, _ => { pu with ceRequest := none, own := some ⟨.cueEngine, offset, none, true⟩ }
  | none, some w => { pu with rwRequest := none, own := some ⟨.reportWriter, w.offset, some w.data, true⟩ }
  | none, none => pu

/-- An own cycle starts when the bus is free, no host cycle is in progress and a request waits (R196, R199). -/
def Pu.start (pu : Pu) : Pu :=
  if pu.own.isNone = true ∧ pu.hostBusy = false ∧ pu.inReset = false then pu.serve else pu

/-- At PRST the queue is emptied and the report of a cycle in progress will be discarded (R199). -/
def Pu.partReset (pu : Pu) : Pu :=
  { pu with ceRequest := none, rwRequest := none, waitCount := 0, own := pu.own.map fun c => { c with live := false } }

/-- The window base of the strap (R193). -/
def strapBase (wsel : BitVec 2) : Address :=
  if wsel = 0 then 0x40000 else if wsel = 1 then 0x80000 else if wsel = 2 then 0xC0000 else 0xF0000

/-- The PU at the release of RESET (R193, R199). What the host's own cycle has on the bus is not the part's to reset
(R192: "the part's resets do not interrupt them"). -/
def Pu.released (pu : Pu) (wsel : BitVec 2) : Pu :=
  { Pu.reset with base := strapBase wsel, hostBusy := pu.hostBusy, held := pu.held, hostData := pu.hostData }

/-- While RESET is asserted no own cycle runs and nothing waits (R199). -/
def Pu.hold (pu : Pu) : Pu :=
  { pu with inReset := true, ceRequest := none, rwRequest := none, own := none, waitCount := 0 }

/-- A host cycle has completed: it counts while a request waits (R197). -/
def Pu.countHost (pu : Pu) : Pu :=
  if pu.waiting then { pu with waitCount := min Config.holdLimit (pu.waitCount + 1) } else pu

end Sys2Proof.Machine
end

