-- ==== Sys2Proof/Machine/Reports.lean ====
section
/-! DEFINITION. The Report Writer's writes (12_status_block_and_event_ring.md): the choice of a line or a ring entry, the
bytes each writes, and what the report of a completed byte does. Its inlets stand in Machine/Ops.lean. -/

namespace Sys2Proof.Machine

/-- Window offset of a status line's byte (R193). -/
def lineOffset (n k : Nat) : Nat := Config.statusOffset + 16 * n + k

/-- Window offset of a ring slot (R193). -/
def slotOffset (w : Nat) : Nat := Config.ringOffset + 8 * w

/-- The record of a line. -/
def Rw.line (rw : Rw) (n : Nat) : LineRecord := rw.lines.getD n LineRecord.reset

/-- The data bytes a line write puts in RAM, with their offsets in the line (R212, step 4). -/
def dataWrites (full : Bool) (image snapshot : List Byte) : List (Nat × Byte) :=
  (List.range 14).filterMap fun k =>
    if full = true ∨ image.getD k 0 ≠ snapshot.getD k 0 then some (k + 1, snapshot.getD k 0) else none

/-- The byte writes of a line write with guard count g (R212). -/
def lineWrites (n : Nat) (g : Byte) (full : Bool) (image snapshot : List Byte) : List WriteRequest :=
  (if full then [⟨lineOffset n 15, ~~~g⟩] else []) ++ [⟨lineOffset n 0, g⟩] ++
    (dataWrites full image snapshot).map (fun d => ⟨lineOffset n d.1, d.2⟩) ++ [⟨lineOffset n 15, g⟩]

/-- The byte writes of a ring entry into slot W (R214). -/
def entryWrites (w : Nat) (e : Entry) : List WriteRequest :=
  e.bytes.mapIdx fun k b => ⟨slotOffset w + k, b⟩

/-- The lines in the cyclic order of the next choice (R211). -/
def Rw.lineOrder (rw : Rw) : List Nat := (List.range 11).map fun k => (rw.lastLine + 1 + k) % 11

/-- The next line to write: the first dirty one in cyclic order (R211). -/
def Rw.nextLine? (rw : Rw) : Option Nat := rw.lineOrder.find? fun n => (rw.line n).dirty

/-- A line write starts with this snapshot (R211, R212). -/
def Rw.startLine (rw : Rw) (n : Nat) (snapshot : List Byte) : Rw :=
  let l := rw.line n
  let g := l.guard + 1
  { rw with lines := rw.lines.set n { l with dirty := false, guard := g }, lastLine := n, entryNext := true,
            job := some ⟨.line n snapshot, lineWrites n g l.full l.image snapshot⟩ }

/-- The ring is full: slot W's successor is the host's read index (R214). -/
def Rw.ringFull (rw : Rw) : Bool := rw.writeIndex + 1 == rw.readIndex

/-- An entry is lost at a full ring: it is counted, and line 0, which shows the count, is dirty at once unless the count
stands at its limit (R211, R214). -/
def Rw.countDropped (rw : Rw) : Rw :=
  if rw.dropped < 255 then { rw with dropped := rw.dropped + 1 }.markDirty 0 else { rw with dropped := 255 }

/-- The head entry is taken for the ring: written, or dropped and counted when the ring is full (R214). -/
def Rw.takeEntry (rw : Rw) (e : Entry) (rest : List Entry) : Rw :=
  let rw : Rw := { rw with buffer := rest, entryNext := false }
  if rw.ringFull then rw.countDropped
  else { rw with job := some ⟨.entry, entryWrites rw.writeIndex.toNat e⟩ }

/-- The next write is chosen when none is in progress, lines and entries alternating while both wait (R212). An entry
dropped at a full ring leads to another choice. -/
def State.chooseJob : Nat → State → State
  | 0, s => s
  | fuel + 1, s =>
    if s.rw.job.isSome then s
    else
      match s.rw.nextLine?, s.rw.buffer with
      | none, [] => s
      | some n, [] => { s with rw := s.rw.startLine n (s.lineData n) }
      | none, e :: rest => State.chooseJob fuel { s with rw := s.rw.takeEntry e rest }
      | some n, e :: rest =>
        if s.rw.entryNext then State.chooseJob fuel { s with rw := s.rw.takeEntry e rest }
        else { s with rw := s.rw.startLine n (s.lineData n) }

/-- The first byte still to write is asked of the PU (R212). -/
def State.askByte (s : State) : State :=
  match s.rw.job with
  | some ⟨_, w :: _⟩ => { s with pu := s.pu.askWrite w }
  | _ => s

/-- The Report Writer starts its next write when it has none. An entry lost at a full ring makes line 0 dirty, and a line
is taken next (R212), so a second entry is lost in the same choice only while the dropped count stands at its limit. Nine
choices are enough: the buffer holds eight. -/
def State.kickReports (s : State) : State :=
  if s.rw.job.isSome then s else (State.chooseJob 10 s).askByte

/-- A line write or a ring entry is complete (R212, R214). -/
def Rw.finishJob (rw : Rw) (kind : JobKind) : Rw :=
  match kind with
  | .line n snapshot =>
    { rw with job := none, lines := rw.lines.modify n fun l => { l with image := snapshot, full := false } }
  | .entry => { rw with job := none, writeIndex := rw.writeIndex + 1 }

/-- The PU reports the last byte write complete (R196, R212). -/
def State.byteWritten (s : State) : State :=
  match s.rw.job with
  | none => s
  | some ⟨kind, todo⟩ =>
    match todo.drop 1 with
    | [] => { s with rw := s.rw.finishJob kind }
    | w :: rest => ({ s with rw := { s.rw with job := some ⟨kind, w :: rest⟩ } }).askByte

/-- The own cycle in progress completes: RAM is read or written, the count becomes 0 and a live cycle is reported to its
requester (R196, R197). -/
def State.completeOwn (s : State) : State :=
  match s.pu.own with
  | none => s
  | some c =>
    let at_ := s.pu.address c.offset
    let s := { s with pu := { s.pu with own := none, waitCount := 0 } }
    match c.data with
    | some b =>
      let s := { s with mem := Memory.write s.mem at_ b }
      if c.live then s.byteWritten else s
    | none => if c.live then s.putCe (s.ce.takeByte (Memory.read s.mem at_)) else s

/-- A RIDX notice (R214). -/
def Rw.setReadIndex (rw : Rw) (b : Byte) : Rw := { rw with readIndex := BitVec.ofNat 7 b.toNat }

/-- One millisecond passes on the uptime clock (R211). -/
def Rw.tick (rw : Rw) : Rw := { rw with uptime := rw.uptime + 1 }

/-- The RW after PRST, with PART_RESET as the first entry (R215). -/
def Rw.partReset (rw : Rw) : Rw :=
  { rw with writeIndex := 0, readIndex := 0, dropped := 0, buffer := [⟨.partReset, 0, rw.uptime⟩], lastLine := 10,
            entryNext := false, job := none,
            lines := rw.lines.map fun l => { l with dirty := true, full := true } }

end Sys2Proof.Machine
end

