-- ==== Sys2Proof/Machine/RunChannels.lean ====
section
/-! DEFINITION. The Run Channel Unit (08_run_channels.md): each function takes the block's record and answers its new
record with the notices it makes. -/

namespace Sys2Proof.Machine

/-! ## Choosing and presenting -/

/-- A marker names the channel (R149). -/
def RunMarker.names (m : Option RunMarker) (c : BitVec 2) : Bool := (m.map fun k => k.channel == c).getD false

/-- A channel is placed when either marker names it (R149). -/
def Rcu.placed (u : Rcu) (c : BitVec 2) : Bool := RunMarker.names u.pendingMarker c || RunMarker.names u.serviceMarker c

/-- A candidate for presentation (R154). -/
def Rcu.candidate (u : Rcu) (c : BitVec 2) : Bool :=
  (u.channels.get c).request && !(u.channels.get c).mask && !u.placed c

/-- The channels in the order a choice looks at them (R154). -/
def Rcu.lookOrder (u : Rcu) : List (BitVec 2) :=
  if u.rotating then [u.pointer, u.pointer + 1, u.pointer + 2, u.pointer + 3] else [0, 1, 2, 3]

/-- A choice, with the winner presented to the arbiter (R154, R155). -/
def Rcu.choose (u : Rcu) : Reaction Rcu :=
  if u.pendingMarker.isSome then (u, [])
  else
    match u.lookOrder.find? u.candidate with
    | none => (u, [])
    | some c =>
      ({ u with pendingMarker := some ⟨c, false⟩ }, [.deposit .run (.changeTo (u.channels.get c).slot)])

/-- A slot-empty notice (R155). -/
def Rcu.slotEmptied (u : Rcu) : Reaction Rcu :=
  match u.pendingMarker with
  | none => u.choose
  | some m =>
    let pointer := if u.rotating = true ∧ m.detached = false then m.channel + 1 else u.pointer
    Rcu.choose { u with pendingMarker := none, serviceMarker := some m, pointer := pointer }

/-- One channel's record replaced by a function of it. -/
def Rcu.modify (u : Rcu) (c : BitVec 2) (f : Channel → Channel) : Rcu :=
  { u with channels := u.channels.set c (f (u.channels.get c)) }

/-! ## Triggers and dwell -/

/-- The armed flag cleared, and the dwell timer with it (R153). -/
def Channel.disarm (c : Channel) : Channel := { c with armed := false, dwellTimer := none }

/-- A trigger of a channel; false when the channel is masked (R152). -/
def Rcu.trigger (u : Rcu) (c : BitVec 2) : Reaction Rcu × Bool :=
  let ch := u.channels.get c
  if ch.mask then ((u, []), false)
  else if ch.request then ((u, []), true)
  else
    let wanted := fun k : Channel => { k with request := true, armed := k.armed || k.demand, dwellTimer := none }
    ((u.modify c wanted).choose, true)

/-- The dwell timer of a channel expires (R153). -/
def Rcu.dwellExpiry (u : Rcu) (c : BitVec 2) : Reaction Rcu :=
  if (u.channels.get c).dwellTimer.due then
    (u.modify c fun k => { k with request := true, dwellTimer := none }).choose
  else (u, [])

/-! ## Outcomes -/

/-- The slot after a change to `slot` on a tray of `n` slots (R157). -/
def nextSlot (down : Bool) (slot n : Nat) : Nat :=
  if n = 0 then slot
  else if down then (if slot ≤ 1 then n else slot - 1)
  else if n ≤ slot then 1
  else slot + 1

/-- A completion that is not terminal: the slot is stepped, the count goes down and an armed channel dwells (R153, R157). -/
def Channel.advance (c : Channel) (n : Nat) : Channel :=
  { c with request := false, slot := nextSlot c.down c.slot n, count := c.count - 1,
           dwellTimer := if c.armed then some (c.dwell * 100) else none }

/-- A terminal completion (R158). -/
def Channel.finish (c : Channel) (n : Nat) : Channel :=
  if c.reload then
    Channel.disarm { c with request := false, tc := true, slot := c.baseSlot, count := c.baseCount }
  else Channel.disarm { c with request := false, tc := true, slot := nextSlot c.down c.slot n, mask := true }

/-- A DONE or EMPTY_SLOT outcome reaches a channel, with `n` the tray size (R157, R158). -/
def Rcu.complete (u : Rcu) (c : BitVec 2) (n : Nat) : Reaction Rcu :=
  let ch := u.channels.get c
  if 0 < ch.count then (u.modify c (·.advance n), [.dirty (channelLine c)])
  else
    (u.modify c (·.finish n), [.dirty (channelLine c), .log .runTc (argPair c.toNat ch.slot), .terminalCount c])

/-- An outcome applied to the channel its marker named (R157 to R159). -/
def Rcu.apply (u : Rcu) (c : BitVec 2) (result : OpOutcome) (n : Nat) : Reaction Rcu :=
  match result with
  | .done | .emptySlot => u.complete c n
  | .outOfTray =>
    (u.modify c fun k => Channel.disarm { k with request := false, range := true, mask := true },
      [.log .runRange (argPair c.toNat (u.channels.get c).slot)])
  | .preempted =>
    (u.modify c fun k =>
      { k with request := false, dwellTimer := if k.armed then some (k.dwell * 100) else none }, [])
  | _ => (u.modify c fun k => Channel.disarm { k with request := false }, [])

/-- The outcome belongs to the pending record (R156). -/
def OpOutcome.ofPending : OpOutcome → Bool
  | .refusedUnhomed | .refusedNoTray | .outOfTray | .discarded | .withdrawn => true
  | _ => false

/-- The outcome of a freed marker: nothing for a detached one (R156). -/
def Rcu.settleMarker (u : Rcu) (m : Option RunMarker) (result : OpOutcome) (n : Nat) : Reaction Rcu :=
  match m with
  | some k => if k.detached then (u, []) else u.apply k.channel result n
  | none => (u, [])

/-- A RUN outcome is delivered (R156). -/
def Rcu.takeOutcome (u : Rcu) (result : OpOutcome) (n : Nat) : Reaction Rcu :=
  if result.ofPending then Rcu.settleMarker { u with pendingMarker := none } u.pendingMarker result n
  else
    let r := Rcu.settleMarker { u with serviceMarker := none } u.serviceMarker result n
    let next := r.1.choose
    (next.1, r.2 ++ next.2)

/-! ## Directives -/

/-- A marker detached if it names this channel (R150). -/
def RunMarker.detachFrom (m : Option RunMarker) (c : BitVec 2) : Option RunMarker :=
  m.map fun k => if k.channel = c then { k with detached := true } else k

/-- RUN_LOAD (R150). -/
def Rcu.load (u : Rcu) (channel baseSlot baseCount mode dwell : Byte) : Rcu × Result :=
  if 3 < channel.toNat ∨ baseSlot.toNat = 0 ∨ 120 < baseSlot.toNat ∨ 119 < baseCount.toNat ∨ 8 ≤ mode.toNat ∨
      dwell.toNat = 0 then (u, .badOperand)
  else
    let c := BitVec.ofNat 2 channel.toNat
    let loaded := fun k : Channel =>
      { k with baseSlot := baseSlot.toNat, baseCount := baseCount.toNat, slot := baseSlot.toNat,
               count := baseCount.toNat, demand := bitOf mode 0, down := bitOf mode 1, reload := bitOf mode 2,
               dwell := dwell.toNat, tc := false, range := false, request := false, armed := false,
               dwellTimer := none }
    ({ u.modify c loaded with pendingMarker := RunMarker.detachFrom u.pendingMarker c,
                              serviceMarker := RunMarker.detachFrom u.serviceMarker c }, .done)

/-- One channel under RUN_MASK (R151). -/
def Channel.maskTo (c : Channel) (selected value : Bool) : Channel :=
  if selected = true ∧ c.mask ≠ value then (if value then Channel.disarm { c with mask := true } else { c with mask := false })
  else c

/-- RUN_MASK (R151). -/
def Rcu.setMasks (u : Rcu) (select values : Byte) : Reaction Rcu × Result :=
  if 16 ≤ select.toNat ∨ 16 ≤ values.toNat then ((u, []), .badOperand)
  else
    let masked := u.channels.map fun c k => k.maskTo (bitOf select c.toNat) (bitOf values c.toNat)
    (Rcu.choose { u with channels := masked }, .done)

/-- RUN_TRIGGER (R152). -/
def Rcu.triggerDirective (u : Rcu) (channel : Byte) : Reaction Rcu × Result :=
  if 3 < channel.toNat then ((u, []), .badOperand)
  else
    let r := u.trigger (BitVec.ofNat 2 channel.toNat)
    (r.1, if r.2 then .done else .refusedState)

/-- RUN_ORDER (R161). -/
def Rcu.setOrder (u : Rcu) (order : Byte) : Rcu × Result :=
  if 1 < order.toNat then (u, .badOperand) else ({ u with rotating := order == 1 }, .done)

/-- A marker detached, whatever channel it names (R162). -/
def RunMarker.detach (m : Option RunMarker) : Option RunMarker := m.map fun k => { k with detached := true }

/-- RUN_CLEAR_ALL (R162). -/
def Rcu.clearAll (u : Rcu) : Rcu :=
  { Rcu.reset with pendingMarker := RunMarker.detach u.pendingMarker, serviceMarker := RunMarker.detach u.serviceMarker }

/-- TC consumed by the Cue Engine, if it is set (R160). -/
def Rcu.consume (u : Rcu) (c : BitVec 2) : Option Rcu :=
  if (u.channels.get c).tc then some (u.modify c fun k => { k with tc := false }) else none

/-- One millisecond passes. -/
def Rcu.tick (u : Rcu) : Rcu :=
  { u with channels := u.channels.map fun _ k => { k with dwellTimer := k.dwellTimer.tick } }

end Sys2Proof.Machine
end

