-- ==== Sys2Proof/Machine/Tape.lean ====
section
/-! DEFINITION. The Tape Transport Controller (05_tape_transport_cue_track_and_sound.md): each function takes the block's
record and answers its new record with the notices it makes. `now` is the uptime in milliseconds. -/

namespace Sys2Proof.Machine

/-! ## Leaving and entering transport states -/

/-- The decoder listens again: QUIET with CUEIN low, RESYNC with it high (R102, R111). -/
def Ttc.listen (t : Ttc) : Ttc :=
  { t with decoder := if t.cuein then .resync else .quiet, gapTimer := none, stuckTimer := none, past800 := false }

/-- The decoder goes OFF at entry to RECORDING (R102). -/
def Ttc.deafen (t : Ttc) : Ttc :=
  { t with decoder := .off, gapTimer := none, stuckTimer := none, past800 := false }

/-- What leaving RECORDING does: the writer ends at once and the decoder listens again (R102, R107). -/
def Ttc.leaveRecording (t : Ttc) : Reaction Ttc :=
  if t.state = .recording then
    let cut :=
      match t.writer with
      | .tone cls => [Notice.log .cueWritten (argPair 1 cls.number)]
      | _ => []
    (Ttc.listen { t with writer := .idle, writerTimer := none }, cut)
  else (t, [])

/-- The braking time of the state left (R92). -/
def brakingTime : Transport → Nat
  | .playing | .recording => 100
  | _ => 500

/-- BRAKING is entered with this latched request (R91, R92). -/
def Ttc.brake (t : Ttc) (latched : Option TapeRequest) : Reaction Ttc :=
  let left := t.leaveRecording
  ({ left.1 with state := .braking, brakingTimer := some (brakingTime t.state), latched := latched, stallWatch := none,
                 leader := none }, left.2)

/-- A moving state is entered: the stall watch of PLAYING and RECORDING, the leader allowance with TEND active (R90,
R97, R98). -/
def Ttc.enterMoving (t : Ttc) (state : Transport) (direction : Direction) : Ttc :=
  let watched := state = .playing ∨ state = .recording
  let t : Ttc := { t with state := state, direction := direction, latched := none,
                          stallWatch := if watched then some 500 else none,
                          leader := if t.tend then some 0 else none }
  if state = .recording then t.deafen else t

/-- The direction of a locate, none when the target is the counter (R95). -/
def Ttc.locateDirection (t : Ttc) (target : Half) : Direction :=
  if t.counter.toNat < target.toNat then .forward
  else if target.toNat < t.counter.toNat then .reverse
  else .none

/-- LOCATE_DONE with the counter (R95, R96). -/
def Ttc.locateDone (t : Ttc) : Notice := .log .locateDone t.counter

/-- A request carried out from STOPPED (R90, R95). -/
def Ttc.start (t : Ttc) (req : TapeRequest) : Reaction Ttc :=
  match req with
  | .play => (t.enterMoving .playing .forward, [])
  | .record => (t.enterMoving .recording .forward, [])
  | .wind reverse => (if reverse then t.enterMoving .windRev .reverse else t.enterMoving .windFwd .forward, [])
  | .locate target =>
    match t.locateDirection target with
    | .none => ({ t with latched := none }, [t.locateDone])
    | d => (Ttc.enterMoving { t with locateTarget := some target } .locating d, [])

/-- A request that asks for the motion in progress changes nothing (R91). -/
def Ttc.sameMotion (t : Ttc) (req : TapeRequest) : Bool :=
  match t.state, req with
  | .playing, .play => true
  | .recording, .record => true
  | .windFwd, .wind false => true
  | .windRev, .wind true => true
  | _, _ => false

/-- A request in a moving state (R91, R96). -/
def Ttc.redirect (t : Ttc) (req : TapeRequest) : Reaction Ttc :=
  if t.sameMotion req then (t, [])
  else
    match t.state, req with
    | .locating, .locate target =>
      let d := t.locateDirection target
      if d = .none then let r := t.brake none; (r.1, t.locateDone :: r.2)
      else if d = t.direction then ({ t with locateTarget := some target }, [])
      else t.brake (some req)
    | _, _ => t.brake (some req)

/-- A play, record, wind or locate request (R90 to R92, R110); false when it is refused. -/
def Ttc.request (t : Ttc) (req : TapeRequest) : Reaction Ttc × Bool :=
  if t.stopImposed then ((t, []), false)
  else
    match t.state with
    | .stopped => (t.start req, true)
    | .braking => (({ t with latched := some req }, []), true)
    | _ => (t.redirect req, true)

/-- A stop request (R90 to R92). -/
def Ttc.stop (t : Ttc) : Reaction Ttc :=
  match t.state with
  | .stopped => (t, [])
  | .braking => ({ t with latched := none }, [])
  | _ => t.brake none

/-! ## Counter, locate and tape end -/

/-- The tape end: TAPE_END and BRAKING (R97). -/
def Ttc.tapeEnd (t : Ttc) : Reaction Ttc := let r := t.brake none; (r.1, .log .tapeEnd t.counter :: r.2)

/-- The locate's target is reached (R96). -/
def Ttc.atTarget (t : Ttc) : Bool :=
  match t.state, t.locateTarget with
  | .locating, some target =>
    if t.direction = .reverse then decide (t.counter.toNat ≤ target.toNat)
    else decide (target.toNat ≤ t.counter.toNat)
  | _, _ => false

/-- The target check of a locate (R96). -/
def Ttc.checkTarget (t : Ttc) : Reaction Ttc :=
  if t.atTarget then let r := t.brake none; (r.1, t.locateDone :: r.2) else (t, [])

/-- The counter after one pulse in the direction in force (R93, R94). -/
def Ttc.stepped (t : Ttc) : Half :=
  match t.direction with
  | .none => t.counter
  | .forward => t.counter + 1
  | .reverse => t.counter - 1

/-- A TMOTN pulse: counted, restarting the stall watch, advancing the leader allowance and checked against a locate's
target (R94, R96 to R98). -/
def Ttc.pulse (t : Ttc) : Reaction Ttc :=
  if t.direction = .none then (t, [])
  else
    let t : Ttc := { t with counter := t.stepped,
                            stallWatch := if t.state = .playing ∨ t.state = .recording then some 500 else t.stallWatch,
                            leader := t.leader.map (· + 1) }
    if t.state.moving = true ∧ t.leader = some 64 then t.tapeEnd else t.checkTarget

/-- The pulse of LEADER_ALLOWANCE_END is the sixty-fourth of an allowance in progress (R97). -/
def Ttc.lastOfAllowance (t : Ttc) : Bool := t.state.moving && t.leader == some 63

/-- TAPE_ZERO (R94, R96). -/
def Ttc.zero (t : Ttc) : Reaction Ttc := Ttc.checkTarget { t with counter := 0 }

/-- TEND changes (R97). -/
def Ttc.setTend (t : Ttc) (active : Bool) : Reaction Ttc :=
  if active = t.tend then (t, [])
  else
    let t : Ttc := { t with tend := active }
    if active then (if t.state.moving then t.tapeEnd else (t, [])) else ({ t with leader := none }, [])

/-- The braking timer expires: STOPPED, then the latched request is carried out (R92). -/
def Ttc.brakingExpiry (t : Ttc) : Reaction Ttc :=
  if t.state = .braking ∧ t.brakingTimer.due = true then
    let latched := t.latched
    let t : Ttc := { t with state := .stopped, direction := .none, brakingTimer := none, latched := none }
    match latched with
    | none => (t, [])
    | some req => t.start req
  else (t, [])

/-- The stall watch expires (R98). -/
def Ttc.stallExpiry (t : Ttc) : Reaction Ttc :=
  if (t.state = .playing ∨ t.state = .recording) ∧ t.stallWatch.due = true then
    let left := t.leaveRecording
    ({ left.1 with state := .stopped, direction := .none, stallWatch := none, leader := none },
      .log .tapeStall t.counter :: left.2)
  else (t, [])

/-! ## Cue decoding and routing -/

/-- The class of a burst's length in ms (R100). -/
def classOf? (length : Nat) : Option CueClass :=
  if 20 ≤ length ∧ length ≤ 60 then some .advance
  else if 80 ≤ length ∧ length ≤ 140 then some .reverse
  else if 180 ≤ length ∧ length ≤ 260 then some .mark
  else if 400 ≤ length ∧ length ≤ 800 then some .stop
  else none

/-- A cue joins the FIFO, or is lost (R105). -/
def Ttc.join (t : Ttc) (e : CueEntry) : Reaction Ttc :=
  if t.fifo.length < 8 then ({ t with fifo := t.fifo ++ [e] }, [.fifoJoined])
  else (t, [.log .cueOverrun (halfOf e.cls.number)])

/-- A decoded cue handed on by the route mode (R104). -/
def Ttc.routeCue (t : Ttc) (e : CueEntry) : Reaction Ttc :=
  match t.route with
  | .toShow => t.join e
  | .off => (t, [])
  | .direct =>
    match e.cls with
    | .advance => (t, [.deposit .tape (.moveBy 1)])
    | .reverse => (t, [.deposit .tape (.moveBy (-1))])
    | .mark => (t, (t.markChannel.map Notice.runTrigger).toList)
    | .stop => t.stop

/-- The burst has ended: classified and routed (R99, R100, R104). A fall at 801 ms that was taken before the stuck timer's
expiry gives the length 801, of no class (DESIGN CHOICE, assumption log 36). -/
def Ttc.burstEnd (t : Ttc) : Reaction Ttc :=
  let t : Ttc := { t with decoder := .quiet, gapTimer := none, stuckTimer := none, past800 := false }
  let length := (t.lastFall - t.burstStart).toNat
  match classOf? length with
  | none => (t, [.log .cueInvalid (halfOf length)])
  | some cls =>
    let r := t.routeCue ⟨cls, t.burstCount, t.lastFall⟩
    (r.1, .log .cueDecoded (halfOf cls.number) :: r.2)

/-- STUCK is entered: TONE_STUCK, and the burst is discarded (R101). -/
def Ttc.stick (t : Ttc) : Reaction Ttc :=
  ({ t with decoder := .stuck, gapTimer := none, stuckTimer := none, past800 := false, burstStart := 0, burstCount := 0,
            lastFall := 0 }, [.log .toneStuck t.burstCount])

/-- An edge on CUEIN (R99, R101, R102). A falling edge at the instant of the stuck timer's expiry, taken before it, ends
the tone (DESIGN CHOICE, assumption log 36). -/
def Ttc.edge (t : Ttc) (rising : Bool) (now : Word) : Reaction Ttc :=
  if rising = t.cuein then (t, [])
  else
    let t : Ttc := { t with cuein := rising }
    match t.decoder, rising with
    | .quiet, true =>
      ({ t with decoder := .tone, burstStart := now, burstCount := t.counter, stuckTimer := some 801, past800 := false },
        [])
    | .tone, false => ({ t with decoder := .gap, lastFall := now, gapTimer := some 8 }, [])
    | .gap, true => if t.past800 then t.stick else ({ t with decoder := .tone, gapTimer := none }, [])
    | .stuck, rising | .resync, rising => ({ t with gapTimer := if rising then none else some 8 }, [])
    | _, _ => (t, [])

/-- The gap timer expires (R99, R101, R102). -/
def Ttc.gapExpiry (t : Ttc) : Reaction Ttc :=
  if t.gapTimer.due then
    match t.decoder with
    | .gap => t.burstEnd
    | .stuck | .resync => ({ t with decoder := .quiet, gapTimer := none }, [])
    | _ => (t, [])
  else (t, [])

/-- The stuck timer expires (R101). In GAP nothing is logged, also where the fall came at this instant and was taken first
(DESIGN CHOICE, assumption log 36). -/
def Ttc.stuckExpiry (t : Ttc) : Reaction Ttc :=
  if t.stuckTimer.due then
    match t.decoder with
    | .tone => t.stick
    | .gap => ({ t with stuckTimer := none, past800 := true }, [])
    | _ => (t, [])
  else (t, [])

/-- CUE_ROUTE (R103). -/
def Ttc.setRoute (t : Ttc) (mode markChannel : Byte) : Ttc × Result :=
  match routeMode? mode.toNat, markChannel? markChannel with
  | some m, some c =>
    let fifo := if t.route = .toShow ∧ m ≠ .toShow then [] else t.fifo
    ({ t with route := m, markChannel := c, fifo := fifo }, .done)
  | _, _ => (t, .badOperand)

/-! ## Burst writer -/

/-- Written lengths (05, section 5.5). -/
def CueClass.written : CueClass → Nat
  | .advance => 40 | .reverse => 110 | .mark => 220 | .stop => 500

/-- A write request (R106). -/
def Ttc.write (t : Ttc) (cls : CueClass) : Ttc × Result :=
  if t.state ≠ .recording then (t, .refusedState)
  else if t.writer ≠ .idle then (t, .refusedBusy)
  else ({ t with writer := .tone cls, writerTimer := some cls.written }, .done)

/-- The written length has run (R106). -/
def Ttc.toneEnd (t : Ttc) : Reaction Ttc :=
  match t.writer with
  | .tone cls =>
    if t.writerTimer.due then
      ({ t with writer := .quiet, writerTimer := some 20 }, [.log .cueWritten (argPair 0 cls.number)])
    else (t, [])
  | _ => (t, [])

/-- The 20 ms of QUIET have run (R106). -/
def Ttc.quietEnd (t : Ttc) : Ttc :=
  if t.writer = .quiet ∧ t.writerTimer.due = true then { t with writer := .idle, writerTimer := none } else t

/-! ## Sound level -/

/-- A ramp of the current level to a target, replacing one in progress (R108). -/
def Ttc.startRamp (t : Ttc) (target time : Nat) : Ttc :=
  if t.level = target then { t with ramp := none }
  else if time = 0 then { t with ramp := none, level := target }
  else { t with ramp := some ⟨t.level, target, time, 0, 0⟩ }

/-- The number of steps of a ramp (R108). -/
def Ramp.total (r : Ramp) : Nat := (r.target - r.start) + (r.start - r.target)

/-- The next step's time has come: step k at floor(k * T / n) (R108). -/
def Ramp.due (r : Ramp) : Bool := decide ((r.steps + 1) * r.time / r.total ≤ r.elapsed)

/-- One step of the ramp (R108). -/
def Ttc.rampStep (t : Ttc) : Ttc :=
  match t.ramp with
  | none => t
  | some r =>
    if r.due then
      let level := if t.level < r.target then t.level + 1 else t.level - 1
      { t with level := level, ramp := if r.steps + 1 < r.total then some { r with steps := r.steps + 1 } else none }
    else t

/-- AUDIO_LEVEL and the cue action AUDIO (R108, R109). -/
def Ttc.audioLevel (t : Ttc) (level time : Nat) : Ttc :=
  let t : Ttc := { t with setLevel := level }
  if t.muteImposed then t else t.startRamp level time

/-! ## Impositions -/

/-- The tape imposition (R79, R110). -/
def Ttc.imposeTape (t : Ttc) (stop : Bool) : Reaction Ttc := if stop then Ttc.stop { t with stopImposed := true }
  else ({ t with stopImposed := false }, [])

/-- The audio imposition (R79, R109). -/
def Ttc.imposeAudio (t : Ttc) (mute : Bool) : Ttc :=
  if mute = t.muteImposed then t
  else Ttc.startRamp { t with muteImposed := mute } (if mute then 0 else t.setLevel) 100

/-! ## Time and reset -/

/-- One millisecond passes. -/
def Ttc.tick (t : Ttc) : Ttc :=
  { t with brakingTimer := t.brakingTimer.tick, stallWatch := t.stallWatch.tick, gapTimer := t.gapTimer.tick,
           stuckTimer := t.stuckTimer.tick, writerTimer := t.writerTimer.tick,
           ramp := t.ramp.map fun r => { r with elapsed := r.elapsed + 1 } }

/-- The state after PRST (R112): that of POR with the pins as they stand and the counter kept. -/
def Ttc.partReset (t : Ttc) : Ttc :=
  Ttc.listen { Ttc.reset with tend := t.tend, cuein := t.cuein, counter := t.counter }

end Sys2Proof.Machine
end

