-- ==== Sys2Proof/Machine/Handle.lean ====
section
/-! DEFINITION. Carrying out the notices the blocks make of each other (00_scope.md, section 2.1), and the frame of every
command: its act, the notices it leads to in the order they were made, and the own cycle that then starts. -/

namespace Sys2Proof.Machine

/-! ## Cue Engine awaits that reach other blocks -/

/-- An AWAIT_TAPE looks at the cue FIFO (R179). -/
def State.lookTape (s : State) : State :=
  match s.ce.awaits? 2 with
  | none => s
  | some r =>
    let k := lookFifo (recWaitArg r) s.ttc.fifo
    let s := (s.putTtc ({ s.ttc with fifo := k.1 }, [])).post k.2.1
    if k.2.2 then s.putCe (s.ce.resolve r false s.cueSlotFree) else s

/-- An AWAIT_RUN asks the RCU to consume its channel's TC (R160, R181). -/
def State.consumeRun (s : State) : State :=
  match s.ce.awaits? 4 with
  | none => s
  | some r =>
    match s.rcu.consume (BitVec.ofNat 2 (recWaitArg r)) with
    | some rcu => (s.putRcu (rcu, [])).putCe (s.ce.resolve r false s.cueSlotFree)
    | none => s

/-- A TC notice for the channel an AWAIT_RUN waits for (R181). -/
def State.terminalCount (s : State) (c : BitVec 2) : State :=
  match s.ce.awaits? 4 with
  | some r => if recWaitArg r = c.toNat then s.consumeRun else s
  | none => s

/-- The checks made when a record enters WAITING and at SHOW_RESUME: an instant or timeout already reached first, then
the event (R168, R172, R178 to R181; assumption log 12). -/
def State.progress (s : State) : State :=
  match s.ce.waiting? with
  | some r =>
    if recIsDelay r then s.putCe (s.ce.fireInstantReached s.tmc.outTime s.cueSlotFree)
    else if s.ce.timeoutReady r then s.putCe (s.ce.timeoutReached s.cueSlotFree)
    else if recForm r = 2 then s.lookTape
    else if recForm r = 4 then s.consumeRun
    else s
  | none =>
    if s.ce.phase = .held then s.putCe (s.ce.offer s.cueSlotFree) else s.putCe s.ce.timelineReached

/-! ## One notice -/

/-- An outcome delivered to the block behind its source (R138). -/
def State.deliver (s : State) (source : Source) (result : OpOutcome) : State :=
  match source with
  | .cue => s.putCe (s.ce.takeOutcome result)
  | .run => s.putRcu (s.rcu.takeOutcome result s.tmc.n)
  | _ => s

/-- The slot-empty notice (R132). -/
def State.slotEmptied (s : State) (source : Source) : State :=
  match source with
  | .cue => s.putCe (s.ce.slotEmptied s.cueSlotFree)
  | .run => s.putRcu s.rcu.slotEmptied
  | _ => s

/-- One notice taken by the block it is for. -/
def State.handle (n : Notice) (s : State) : State :=
  match n with
  | .log e arg => s.post [.log e arg]
  | .dirty line => s.post [.dirty line]
  | .deposit source kind => s.deposit source kind
  | .select => s.select
  | .outcome op result => s.takeOutcome op result
  | .arbiterCutoff sel => s.putCa (s.ca.cutoff sel)
  | .withdraw => s.putCa s.ca.withdraw
  | .deliver source result => s.deliver source result
  | .slotEmpty source => s.slotEmptied source
  | .darken outTime level => s.putLc (s.lc.takeDarken outTime level, [])
  | .snap => s.putLc (s.lc.takeSnap, [])
  | .release inTime => s.putLc (s.lc.takeRelease inTime, [])
  | .lampImposition i => s.putLc (s.lc.impose i s.tmc.blackout s.tmc.inTime)
  | .lampAction now level curve duration => s.putLc (s.lc.order now level curve duration, [])
  | .fanCompute h ds active => s.putFc (s.fc.compute h ds active)
  | .fanImposition full => s.putFc (s.fc.impose full s.lc.h s.lc.derateStart s.lc.lampActive)
  | .levelCause c present => s.putCu (s.cu.report c present)
  | .edgeCause c => s.putCu (s.cu.arrive c)
  | .trayCutoff sel => s.putTmc (s.tmc.cutoff sel)
  | .trayClear => s.putTmc s.tmc.clear
  | .tapeImposition stop => s.putTtc (s.ttc.imposeTape stop)
  | .audioImposition mute => s.putTtc (s.ttc.imposeAudio mute, [])
  | .tapePlay => s.putTtc (s.ttc.request .play).1
  | .tapeStop => s.putTtc s.ttc.stop
  | .audioAction level => s.putTtc (s.ttc.audioLevel level 0, [])
  | .writeCue cls => s.putTtc ((s.ttc.write cls).1, [])
  | .runTrigger c => s.putRcu (s.rcu.trigger c).1
  | .terminalCount c => s.terminalCount c
  | .fifoJoined => s.lookTape
  | .progress => s.progress
  | .refire => s.putCe (s.ce.fireInstantReached s.tmc.outTime s.cueSlotFree)
  | .showCutoff => s.putCe (s.ce.halt .cutoff)
  | .askRead offset => { s with pu := s.pu.askRead offset }
  | .dropRead => { s with pu := s.pu.dropRead }

/-- The notices are taken, first made first taken, until none is left (assumption log 4: no command of the part leads to
as many as the fuel allows, and what would be left beyond it is dropped). -/
def State.drain : Nat → State → State
  | 0, s => { s with notices := [] }
  | fuel + 1, s =>
    match s.notices with
    | [] => s
    | n :: rest => State.drain fuel (({ s with notices := rest }).act (State.handle n))

/-! ## The frame of every command -/

/-- An act with all the notices it leads to. -/
def State.carry (s : State) (f : State → State) : State := State.drain Config.cascadeFuel (s.act f)

/-- The part's own side of the bus: the Report Writer's next write, and the own cycle that starts (R196, R212). -/
def State.settle (s : State) : State :=
  let s := s.kickReports
  { s with pu := s.pu.start }

/-- The whole effect of a command on the state. All its entries are handed over before an idle Report Writer takes the head of
the buffer, so a ninth is dropped, where R213 leaves the order open (DESIGN CHOICE, assumption log 42). -/
def State.run (s : State) (f : State → State) : State := (s.carry f).settle

/-- A command with the effect `f`. -/
def perform (f : State → State) (s : State) : Host.Outcome State Fault Refusal := .next (s.run f)

/-- A reset: its effect with all it leads to. The Report Writer's first write starts with the next command
(assumption log 6). -/
def performReset (f : State → State) (s : State) : Host.Outcome State Fault Refusal := .next (s.carry f)

end Sys2Proof.Machine
end

