-- ==== Sys2Proof/Machine/Directives.lean ====
section
/-! DEFINITION. The directives with their results, each as its owner's chapter gives it, and the Directive Decoder that
assembles, takes and answers them (11_the_directive_stream.md). -/

namespace Sys2Proof.Machine

/-! ## The owners' acts: each answers the new state and the result (R206) -/

/-- The status lines a directive answered DONE marks dirty whether or not a field of theirs has changed (R82, R134, R150,
R162). -/
def doneMark (result : Result) (lines : List Nat) : List Notice := if result = .done then lines.map Notice.dirty else []

def dirRemoteSetup (unit enable : Byte) (s : State) : State × Result :=
  let r := s.rr.setup unit enable
  (s.putRr (r.1, []), r.2)

def dirHome (s : State) : State × Result := s.depositDirective .home .done

def dirGotoSlot (slot : Byte) (s : State) : State × Result :=
  if s.tmc.slotAllowed slot.toNat then s.depositDirective (.changeTo slot.toNat) .done else (s, .badOperand)

def dirMoveBy (step : Byte) (s : State) : State × Result :=
  s.depositDirective (.moveBy (clampStep step.toInt)) (if clampStep step.toInt = step.toInt then .done else .clamped)

def dirClearGate (s : State) : State × Result := s.depositDirective .clearGate .done

def dirChangeProfile (outTime inTime blackout : Byte) (s : State) : State × Result :=
  let r := s.tmc.changeProfile outTime inTime blackout
  (s.putTmc r.1, r.2)

def dirLampOn (s : State) : State × Result := (s.putLc s.lc.on.1, s.lc.on.2)

def dirLampOff (s : State) : State × Result := (s.putLc s.lc.off, .done)

def dirLampFade (levelLo levelHi curve time : Byte) (s : State) : State × Result :=
  let r := s.lc.fadeDirective (word16 levelLo levelHi) curve.toNat time.toNat
  (s.putLc (r.1, []), r.2)

def dirLampCeiling (levelLo levelHi : Byte) (s : State) : State × Result :=
  let r := s.lc.setCeiling (word16 levelLo levelHi)
  (s.putLc (r.1, []), r.2)

def dirLampSpare (lamps : Byte) (s : State) : State × Result :=
  let r := s.lc.spare (bitOf lamps 0) (bitOf lamps 1) (if bitOf lamps 2 then .b else .a)
  (s.putLc (r.1, []), r.2)

def dirHeatProfile (lampGain fanGain ds oh rm : Byte) (s : State) : State × Result :=
  let r := s.lc.heatProfile lampGain fanGain ds oh rm s.fc.coolDone
  (s.putLc r.1, r.2)

def dirFanProfile (minimum coolDone : Byte) (s : State) : State × Result :=
  let r := s.fc.profile minimum coolDone s.lc.restrikeMax s.lc.h s.lc.derateStart s.lc.lampActive
  (s.putFc r.1, r.2)

def dirCutoffSelect (b0 b1 : Byte) (s : State) : State × Result :=
  let r := s.cu.select b0 b1
  (s.putCu (r.1, doneMark r.2 [4]), r.2)

def dirCutoffEnable (causes : Byte) (s : State) : State × Result := (s.putCu (s.cu.enable causes), .done)

def dirCutoffForce (s : State) : State × Result := (s.putCu s.cu.force.1, s.cu.force.2)

def dirCutoffClear (s : State) : State × Result := (s.putCu s.cu.clear.1, s.cu.clear.2)

/-- A request that moves the tape, from a directive: refused REFUSED_STATE under the STOP imposition (R90, R110). -/
def dirTapeRequest (req : TapeRequest) (s : State) : State × Result :=
  let r := s.ttc.request req
  (s.putTtc r.1, if r.2 then .done else .refusedState)

def dirTapePlay (s : State) : State × Result := dirTapeRequest .play s

def dirTapeStop (s : State) : State × Result := (s.putTtc s.ttc.stop, .done)

def dirTapeWind (direction : Byte) (s : State) : State × Result :=
  if 1 < direction.toNat then (s, .badOperand) else dirTapeRequest (.wind (direction == 1)) s

def dirTapeLocate (targetLo targetHi : Byte) (s : State) : State × Result :=
  dirTapeRequest (.locate (halfOf (word16 targetLo targetHi))) s

def dirTapeRecord (s : State) : State × Result := dirTapeRequest .record s

def dirTapeZero (s : State) : State × Result := (s.putTtc s.ttc.zero, .done)

def dirCueWrite (cueClass : Byte) (s : State) : State × Result :=
  match cueClass? cueClass.toNat with
  | none => (s, .badOperand)
  | some cls =>
    let r := s.ttc.write cls
    (s.putTtc (r.1, []), r.2)

def dirCueRoute (mode markChannel : Byte) (s : State) : State × Result :=
  let r := s.ttc.setRoute mode markChannel
  (s.putTtc (r.1, []), r.2)

def dirAudioLevel (level ramp : Byte) (s : State) : State × Result :=
  (s.putTtc (s.ttc.audioLevel level.toNat (ramp.toNat * 20), []), .done)

def dirArbLevels (b0 b1 : Byte) (s : State) : State × Result :=
  let r := s.ca.setLevels b0 b1
  (s.putCa (r.1, doneMark r.2 [6]), r.2)

def dirArbMask (sources : Byte) (s : State) : State × Result :=
  let r := s.ca.setMasks sources
  (s.putCa r.1, r.2)

def dirRunLoad (channel baseSlot baseCount mode dwell : Byte) (s : State) : State × Result :=
  let r := s.rcu.load channel baseSlot baseCount mode dwell
  (s.putRcu (r.1, doneMark r.2 [channelLine (BitVec.ofNat 2 channel.toNat)]), r.2)

def dirRunMask (select values : Byte) (s : State) : State × Result :=
  let r := s.rcu.setMasks select values
  (s.putRcu r.1, r.2)

def dirRunTrigger (channel : Byte) (s : State) : State × Result :=
  let r := s.rcu.triggerDirective channel
  (s.putRcu r.1, r.2)

def dirRunClearAll (s : State) : State × Result := (s.putRcu (s.rcu.clearAll, doneMark .done [7, 8]), .done)

def dirRunOrder (order : Byte) (s : State) : State × Result :=
  let r := s.rcu.setOrder order
  (s.putRcu (r.1, []), r.2)

def dirShowStart (indexLo indexHi : Byte) (s : State) : State × Result :=
  let r := s.ce.start (word16 indexLo indexHi) s.cu.flag
  (s.putCe r.1, r.2)

def dirShowPause (s : State) : State × Result := (s.putCe (s.ce.pause.1, []), s.ce.pause.2)

def dirShowResume (s : State) : State × Result := (s.putCe s.ce.resume.1, s.ce.resume.2)

def dirShowStop (s : State) : State × Result := (s.putCe s.ce.stop, .done)

def dirCueGo (s : State) : State × Result :=
  let r := s.ce.go s.cueSlotFree
  (s.putCe r.1, r.2)

def dirShowLead (enable extra : Byte) (s : State) : State × Result :=
  let r := s.ce.setLead enable extra
  (s.putCe r.1, r.2)

/-! ## The directive code table (10, section 10.6) -/

/-- The operand count of a code, none for a code the table does not hold (R203, R208). -/
def operandCount? (code : Byte) : Option Nat :=
  match code.toNat with
  | 0x01 => some 0 | 0x02 => some 2
  | 0x10 => some 0 | 0x11 => some 1 | 0x12 => some 1 | 0x13 => some 0 | 0x14 => some 3
  | 0x20 => some 0 | 0x21 => some 0 | 0x22 => some 4 | 0x23 => some 2 | 0x24 => some 1 | 0x25 => some 5
  | 0x30 => some 2
  | 0x38 => some 2 | 0x39 => some 1 | 0x3A => some 0 | 0x3B => some 0
  | 0x40 => some 0 | 0x41 => some 0 | 0x42 => some 1 | 0x43 => some 2 | 0x44 => some 0 | 0x45 => some 0
  | 0x46 => some 1 | 0x47 => some 2 | 0x48 => some 2
  | 0x50 => some 2 | 0x51 => some 1
  | 0x60 => some 5 | 0x61 => some 2 | 0x62 => some 1 | 0x63 => some 0 | 0x64 => some 1
  | 0x70 => some 2 | 0x71 => some 0 | 0x72 => some 0 | 0x73 => some 0 | 0x74 => some 0 | 0x75 => some 2
  | _ => none

/-- A directive handed to its owner (R206). PART_RESET is not handed on here (R209). -/
def State.directive (s : State) (code : Byte) (operands : List Byte) : State × Result :=
  match code.toNat, operands with
  | 0x02, [a, b] => dirRemoteSetup a b s
  | 0x10, [] => dirHome s
  | 0x11, [a] => dirGotoSlot a s
  | 0x12, [a] => dirMoveBy a s
  | 0x13, [] => dirClearGate s
  | 0x14, [a, b, c] => dirChangeProfile a b c s
  | 0x20, [] => dirLampOn s
  | 0x21, [] => dirLampOff s
  | 0x22, [a, b, c, d] => dirLampFade a b c d s
  | 0x23, [a, b] => dirLampCeiling a b s
  | 0x24, [a] => dirLampSpare a s
  | 0x25, [a, b, c, d, e] => dirHeatProfile a b c d e s
  | 0x30, [a, b] => dirFanProfile a b s
  | 0x38, [a, b] => dirCutoffSelect a b s
  | 0x39, [a] => dirCutoffEnable a s
  | 0x3A, [] => dirCutoffForce s
  | 0x3B, [] => dirCutoffClear s
  | 0x40, [] => dirTapePlay s
  | 0x41, [] => dirTapeStop s
  | 0x42, [a] => dirTapeWind a s
  | 0x43, [a, b] => dirTapeLocate a b s
  | 0x44, [] => dirTapeRecord s
  | 0x45, [] => dirTapeZero s
  | 0x46, [a] => dirCueWrite a s
  | 0x47, [a, b] => dirCueRoute a b s
  | 0x48, [a, b] => dirAudioLevel a b s
  | 0x50, [a, b] => dirArbLevels a b s
  | 0x51, [a] => dirArbMask a s
  | 0x60, [a, b, c, d, e] => dirRunLoad a b c d e s
  | 0x61, [a, b] => dirRunMask a b s
  | 0x62, [a] => dirRunTrigger a s
  | 0x63, [] => dirRunClearAll s
  | 0x64, [a] => dirRunOrder a s
  | 0x70, [a, b] => dirShowStart a b s
  | 0x71, [] => dirShowPause s
  | 0x72, [] => dirShowResume s
  | 0x73, [] => dirShowStop s
  | 0x74, [] => dirCueGo s
  | 0x75, [a, b] => dirShowLead a b s
  | _, _ => (s, .unknownCode)

/-! ## Taking and answering -/

/-- A directive answered: LASTCODE, LASTRESULT and TAKEN, with the DD IDLE (R206 to R208). -/
def Dd.answer (dd : Dd) (code : Byte) (result : Result) : Dd :=
  { dd with collecting := false, openCode := 0, buffer := [], expected := 0, received := 0, lastCode := code,
            lastResult := result.number, taken := dd.taken + 1 }

/-- The DD answers, and marks line 0 dirty (R206, R208). -/
def State.answer (s : State) (code : Byte) (result : Result) : State :=
  ({ s with dd := s.dd.answer code result }).post [.dirty 0]

/-- The open directive is abandoned (R204). -/
def State.abandon (s : State) : State :=
  if s.dd.collecting then
    ({ s with dd := { s.dd with collecting := false, openCode := 0, buffer := [], expected := 0, received := 0 } }).post
      [.log .directiveAbandoned (halfOf s.dd.openCode.toNat), .dirty 0]
  else s

/-- A directive is handed to its owner and answered (R206). -/
def State.take (s : State) (owner : State → State × Result) (code : Byte) : State :=
  let r := owner s
  r.1.answer code r.2

/-- The part reset handed to every block, then answered, then the CU's evaluation (R209 with R30, R58, R71, R88, R112,
R128, R147, R163, R191, R199, R215). The TMC's entry comes before the LC's (R213; assumption log 4). -/
def State.partReset (s : State) : State :=
  let tmc := Tmc.fresh s.tmc.tcode s.tmc.sensors
  let lc := s.lc.partReset
  let cu := Cu.fresh s.cu.thswRaw s.cu.ilockRaw lc.1.overheat tmc.1.trayLost
  let fresh : State :=
    { s with pu := s.pu.partReset, dd := Dd.reset, rw := s.rw.partReset, ce := Ce.reset, ca := Ca.reset,
             rcu := Rcu.reset, tmc := tmc.1, lc := lc.1,
             fc := s.fc.partReset lc.1.h lc.1.derateStart lc.1.lampActive, cu := cu,
             ttc := s.ttc.partReset, rr := s.rr.partReset, notices := [] }
  let answered := (fresh.post (tmc.2 ++ lc.2)).answer 0x01 .done
  answered.putCu answered.cu.evaluate

/-- A lead byte (R204, R206, R208, R209). -/
def State.leadByte (s : State) (code : Byte) : State :=
  let s := s.abandon
  if code = 0x01 then s.partReset
  else
    match operandCount? code with
    | none => s.answer code .unknownCode
    | some 0 => s.take (fun k => k.directive code []) code
    | some n => { s with dd := { s.dd with collecting := true, openCode := code, buffer := [], expected := n, received := 0 } }

/-- An operand byte (R205). -/
def State.operandByte (s : State) (b : Byte) : State :=
  if s.dd.collecting then
    let buffer := s.dd.buffer ++ [b]
    if s.dd.received + 1 = s.dd.expected then s.take (fun k => k.directive s.dd.openCode buffer) s.dd.openCode
    else { s with dd := { s.dd with buffer := buffer, received := s.dd.received + 1 } }
  else s.post [.log .strayOperand (argPair s.dd.lastCode.toNat b.toNat)]

/-- The taking of a directive as a row of its own (R206): a directive that is open is the one taken when its code is this
one and it takes operands, and is abandoned first otherwise. No directive is taken while RESET is asserted (R199,
R210; assumption log 7). -/
def State.takeRow (code : Byte) (owner : State → State × Result) (s : State) : State :=
  if s.pu.inReset then s
  else
    let completes := s.dd.collecting = true ∧ s.dd.openCode = code ∧ operandCount? code ≠ some 0
    if completes then s.take owner code else s.abandon.take owner code

/-- PART_RESET as a row of its own (R209). -/
def State.resetRow (s : State) : State := if s.pu.inReset then s else s.abandon.partReset

end Sys2Proof.Machine
end

