-- ==== Sys2Proof/Machine/HostCycles.lean ====
section
/-! DEFINITION. The host's bus cycles (10_memory_passage_and_window_formats.md, sections 10.1 to 10.4) and the routing of
the snooped writes to the blocks that take them. -/

namespace Sys2Proof.Machine

/-- The offset of a host address from the window base, below 0x10000 exactly inside the window (R193, R194). -/
def Pu.offsetOf (pu : Pu) (a : Address) : Nat := (a - pu.base).toNat

/-- A snooped write routed by its window offset (R194). -/
def State.route (s : State) (offset : Nat) (b : Byte) : State :=
  if offset = 0 then s.leadByte b
  else if offset = 1 then s.operandByte b
  else if offset = 2 then { s with rw := s.rw.setReadIndex b }
  else if Config.curveOffset ≤ offset ∧ offset < Config.keyMapOffset then
    { s with lc := s.lc.setPoint (offset - Config.curveOffset) b }
  else if Config.keyMapOffset ≤ offset ∧ offset < Config.keyMapOffset + 128 then
    { s with rr := s.rr.setMapByte (offset - Config.keyMapOffset) b }
  else if Config.cueOffset ≤ offset ∧ offset < 65536 then s.putCe (s.ce.edit ((offset - Config.cueOffset) / 16))
  else s

/-- A host write observed when it has completed on the RAM; none is observed while RESET is asserted (R194, R199). -/
def State.snoop (s : State) (a : Address) (b : Byte) : State :=
  if s.pu.inReset then s else s.route (s.pu.offsetOf a) b

/-- The own cycle that completes before a host cycle may run: one in progress, or one for the head of the queue at the
hold limit (R192, R196, R197). -/
def State.holdHost (s : State) : State :=
  if s.pu.own.isSome then s.carry State.completeOwn
  else if s.pu.waitCount = Config.holdLimit ∧ s.pu.waiting = true ∧ s.pu.inReset = false then
    State.carry { s with pu := s.pu.serve } State.completeOwn
  else s

/-- The host cycle is held at its start with HRDY inactive (R192). -/
def State.holds (s : State) : Bool :=
  s.pu.own.isSome || (s.pu.waitCount == Config.holdLimit && s.pu.waiting && !s.pu.inReset)

/-- What comes before a host cycle runs: a held start with its own cycle, and the Report Writer's next request. -/
def State.beforeHost (s : State) : State :=
  let t := if s.holds then s.holdHost.kickReports else s
  { t with pu := { t.pu with held := s.holds } }

/-- The host cycle has run: it counts while a request waits, and the bus is free after it if the host leaves a gap
(R196, R197). -/
def State.afterHost (s : State) (gap : Bool) : State :=
  { s with pu := { s.pu.countHost with hostBusy := !gap } }

/-- A host write (R192, R194). -/
def State.hostWrite (s : State) (a : Address) (b : Byte) (gap : Bool) : State :=
  let held := s.beforeHost
  let written := { held with mem := Memory.write held.mem a.toNat b }
  (written.afterHost gap).run (fun k => k.snoop a b)

/-- A host read: the byte the RAM holds is returned, and no block acts on it (R192). -/
def State.hostRead (s : State) (a : Address) (gap : Bool) : State :=
  let held := s.beforeHost
  let seen := { held with pu := { held.pu with hostData := Memory.read held.mem a.toNat } }
  (seen.afterHost gap).settle

/-- The address of a window offset. -/
def State.windowAddress (s : State) (offset : Nat) : Address := s.pu.base + BitVec.ofNat 20 offset

/-- A host write to a window offset. -/
def State.hostWriteAt (s : State) (offset : Nat) (b : Byte) (gap : Bool) : State :=
  s.hostWrite (s.windowAddress offset) b gap

end Sys2Proof.Machine
end

