-- ==== Sys2Proof/Machine/BusCommands.lean ====
section
/-! DEFINITION. The commands of the bus, the pins of reset and the millisecond: POWER_ON_RESET, RESET_ASSERTED,
PART_RESET, the host's reads and writes, OWN_CYCLE_COMPLETE and UPTIME_TICK. -/

namespace Sys2Proof.Machine

/-- Every block in its POR state with the input levels given, before the Cutoff Unit's evaluation (R29, R57, R70, R87,
R111, R127, R146, R163, R191, R199, R210, R215). The RAM is not cleared. -/
def State.porBlocks (s : State) (pins : Pins) : State :=
  { s with pu := s.pu.released pins.wsel, dd := Dd.reset, rw := Rw.reset, ce := Ce.reset, ca := Ca.reset,
           rcu := Rcu.reset, tmc := (Tmc.fresh pins.tcode pins.sensors).1,
           lc := { Lc.reset with lcur := pins.lcur }, fc := Fc.reset,
           cu := Cu.fresh pins.thsw pins.ilockOpen false (Tmc.fresh pins.tcode pins.sensors).1.trayLost,
           ttc := Ttc.listen { Ttc.reset with tend := pins.tend, cuein := pins.cuein },
           rr := Rr.resync { Rr.reset with rline := pins.rline, flim := pins.flim }, notices := [] }

/-- Power-on reset: the POR states, then the Cutoff Unit's evaluation (R87). -/
def State.powerOn (s : State) (pins : Pins) : State :=
  let fresh := (s.porBlocks pins).post (Tmc.fresh pins.tcode pins.sensors).2
  fresh.putCu fresh.cu.evaluate

/-- POWER_ON_RESET (R199). -/
def execPowerOnReset (pins : Pins) (s : State) : Host.Outcome State Fault Refusal :=
  performReset (fun k => k.powerOn pins) s

/-- RESET_ASSERTED (R199): host cycles are forwarded, no write is observed and no own cycle runs until the release. -/
def execResetAsserted (s : State) : Host.Outcome State Fault Refusal :=
  performReset (fun k => { k with pu := k.pu.hold }) s

/-- PART_RESET (R209). -/
def execPartReset (s : State) : Host.Outcome State Fault Refusal := performReset State.resetRow s

/-- HOST_WRITE (R192): to any address; inside the window it is routed as R194 gives. -/
def execHostWrite (addr : Address) (value : Byte) (gap : Bool) (s : State) : Host.Outcome State Fault Refusal :=
  .next (s.hostWrite addr value gap)

/-- HOST_READ (R192, R197). -/
def execHostRead (addr : Address) (gap : Bool) (s : State) : Host.Outcome State Fault Refusal :=
  .next (s.hostRead addr gap)

/-- OWN_CYCLE_COMPLETE (R196). -/
def execOwnCycleComplete (s : State) : Host.Outcome State Fault Refusal := perform State.completeOwn s

/-- LEAD_BYTE (R204): a host write to DLEAD. -/
def execLeadByte (code : Byte) (gap : Bool) (s : State) : Host.Outcome State Fault Refusal :=
  .next (s.hostWriteAt 0 code gap)

/-- UNKNOWN_CODE (R208): a host write to DLEAD of a code the table does not hold. -/
def execUnknownCode (code : Byte) (gap : Bool) (s : State) : Host.Outcome State Fault Refusal :=
  .next (s.hostWriteAt 0 code gap)

/-- OPERAND_BYTE (R205): a host write to DOPND. -/
def execOperandByte (value : Byte) (gap : Bool) (s : State) : Host.Outcome State Fault Refusal :=
  .next (s.hostWriteAt 1 value gap)

/-- RIDX_WRITE (R214): a host write to RIDX. -/
def execRidxWrite (value : Byte) (gap : Bool) (s : State) : Host.Outcome State Fault Refusal :=
  .next (s.hostWriteAt 2 value gap)

/-- The window offset of a curve point (R45). -/
def pointOffset (curve : BitVec 2) (point : BitVec 6) : Nat := Config.curveOffset + 64 * curve.toNat + point.toNat

/-- CURVE_WRITE (R45). -/
def execCurveWrite (curve : BitVec 2) (point : BitVec 6) (value : Byte) (gap : Bool) (s : State) :
    Host.Outcome State Fault Refusal :=
  .next (s.hostWriteAt (pointOffset curve point) value gap)

/-- The window offset of a key-map byte (R120). -/
def keyOffset (key : BitVec 5) (field : BitVec 2) : Nat := Config.keyMapOffset + 4 * key.toNat + field.toNat

/-- KEY_MAP_WRITE (R120). -/
def execKeyMapWrite (key : BitVec 5) (field : BitVec 2) (value : Byte) (gap : Bool) (s : State) :
    Host.Outcome State Fault Refusal :=
  .next (s.hostWriteAt (keyOffset key field) value gap)

/-- CUE_STORE_WRITE (R187): the store holds records 0 to 3967 (R193). -/
def execCueStoreWrite (record : BitVec 12) (offset : BitVec 4) (value : Byte) (gap : Bool) (s : State) :
    Host.Outcome State Fault Refusal :=
  if record.toNat < Config.cueRecords then
    .next (s.hostWriteAt (recordOffset record.toNat + offset.toNat) value gap)
  else .fault .noSuchCueRecord

/-- One millisecond on every clock and timer, after which the mechanism sensors stand at these levels (R211). -/
def State.tick (s : State) (sensors : Sensors) : State :=
  { s with rw := s.rw.tick, ce := s.ce.tick, tmc := s.tmc.tick sensors, lc := s.lc.tick, fc := s.fc.tick,
           cu := s.cu.tick, ttc := s.ttc.tick, rr := s.rr.tick, rcu := s.rcu.tick }

/-- UPTIME_TICK (R211). -/
def execUptimeTick (sensors : Sensors) (s : State) : Host.Outcome State Fault Refusal :=
  perform (fun k => k.tick sensors) s

end Sys2Proof.Machine
end

