-- ==== Sys2Proof/Machine/DirectiveCommands.lean ====
section
/-! DEFINITION. The directives as commands: each is the taking of the directive with these operand bytes (R206), by the
act of its owner in Machine/Directives.lean. PART_RESET stands in Machine/BusCommands.lean. -/

namespace Sys2Proof.Machine

/-- REMOTE_SETUP, code 0x02 (R117). -/
def execRemoteSetup (unit enable : Byte) (s : State) : Host.Outcome State Fault Refusal :=
  perform (State.takeRow 0x02 (dirRemoteSetup unit enable)) s

/-- HOME, code 0x10 (R26). -/
def execHome (s : State) : Host.Outcome State Fault Refusal :=
  perform (State.takeRow 0x10 dirHome) s

/-- GOTO_SLOT, code 0x11 (R26). -/
def execGotoSlot (slot : Byte) (s : State) : Host.Outcome State Fault Refusal :=
  perform (State.takeRow 0x11 (dirGotoSlot slot)) s

/-- MOVE_BY, code 0x12 (R26). -/
def execMoveBy (step : Byte) (s : State) : Host.Outcome State Fault Refusal :=
  perform (State.takeRow 0x12 (dirMoveBy step)) s

/-- CLEAR_GATE, code 0x13 (R26). -/
def execClearGate (s : State) : Host.Outcome State Fault Refusal :=
  perform (State.takeRow 0x13 dirClearGate) s

/-- CHANGE_PROFILE, code 0x14 (R27). -/
def execChangeProfile (outTime inTime blackout : Byte) (s : State) : Host.Outcome State Fault Refusal :=
  perform (State.takeRow 0x14 (dirChangeProfile outTime inTime blackout)) s

/-- LAMP_ON, code 0x20 (R32). -/
def execLampOn (s : State) : Host.Outcome State Fault Refusal :=
  perform (State.takeRow 0x20 dirLampOn) s

/-- LAMP_OFF, code 0x21 (R33). -/
def execLampOff (s : State) : Host.Outcome State Fault Refusal :=
  perform (State.takeRow 0x21 dirLampOff) s

/-- LAMP_FADE, code 0x22 (R43). -/
def execLampFade (levelLo levelHi curve time : Byte) (s : State) : Host.Outcome State Fault Refusal :=
  perform (State.takeRow 0x22 (dirLampFade levelLo levelHi curve time)) s

/-- LAMP_CEILING, code 0x23 (R40). -/
def execLampCeiling (levelLo levelHi : Byte) (s : State) : Host.Outcome State Fault Refusal :=
  perform (State.takeRow 0x23 (dirLampCeiling levelLo levelHi)) s

/-- LAMP_SPARE, code 0x24 (R39). -/
def execLampSpare (lamps : Byte) (s : State) : Host.Outcome State Fault Refusal :=
  perform (State.takeRow 0x24 (dirLampSpare lamps)) s

/-- HEAT_PROFILE, code 0x25 (R53). -/
def execHeatProfile (lampGain fanGain derateStart overheat restrikeMax : Byte) (s : State) :
    Host.Outcome State Fault Refusal :=
  perform (State.takeRow 0x25 (dirHeatProfile lampGain fanGain derateStart overheat restrikeMax)) s

/-- FAN_PROFILE, code 0x30 (R69). -/
def execFanProfile (minimum coolDone : Byte) (s : State) : Host.Outcome State Fault Refusal :=
  perform (State.takeRow 0x30 (dirFanProfile minimum coolDone)) s

/-- CUTOFF_SELECT, code 0x38 (R82). -/
def execCutoffSelect (selection0 selection1 : Byte) (s : State) : Host.Outcome State Fault Refusal :=
  perform (State.takeRow 0x38 (dirCutoffSelect selection0 selection1)) s

/-- CUTOFF_ENABLE, code 0x39 (R83). -/
def execCutoffEnable (causes : Byte) (s : State) : Host.Outcome State Fault Refusal :=
  perform (State.takeRow 0x39 (dirCutoffEnable causes)) s

/-- CUTOFF_FORCE, code 0x3A (R84). -/
def execCutoffForce (s : State) : Host.Outcome State Fault Refusal :=
  perform (State.takeRow 0x3A dirCutoffForce) s

/-- CUTOFF_CLEAR, code 0x3B (R85). -/
def execCutoffClear (s : State) : Host.Outcome State Fault Refusal :=
  perform (State.takeRow 0x3B dirCutoffClear) s

/-- TAPE_PLAY, code 0x40 (R90). -/
def execTapePlay (s : State) : Host.Outcome State Fault Refusal :=
  perform (State.takeRow 0x40 dirTapePlay) s

/-- TAPE_STOP, code 0x41 (R91). -/
def execTapeStop (s : State) : Host.Outcome State Fault Refusal :=
  perform (State.takeRow 0x41 dirTapeStop) s

/-- TAPE_WIND, code 0x42 (R90). -/
def execTapeWind (direction : Byte) (s : State) : Host.Outcome State Fault Refusal :=
  perform (State.takeRow 0x42 (dirTapeWind direction)) s

/-- TAPE_LOCATE, code 0x43 (R95). -/
def execTapeLocate (targetLo targetHi : Byte) (s : State) : Host.Outcome State Fault Refusal :=
  perform (State.takeRow 0x43 (dirTapeLocate targetLo targetHi)) s

/-- TAPE_RECORD, code 0x44 (R90). -/
def execTapeRecord (s : State) : Host.Outcome State Fault Refusal :=
  perform (State.takeRow 0x44 dirTapeRecord) s

/-- TAPE_ZERO, code 0x45 (R94). -/
def execTapeZero (s : State) : Host.Outcome State Fault Refusal :=
  perform (State.takeRow 0x45 dirTapeZero) s

/-- CUE_WRITE, code 0x46 (R106). -/
def execCueWrite (cueClass : Byte) (s : State) : Host.Outcome State Fault Refusal :=
  perform (State.takeRow 0x46 (dirCueWrite cueClass)) s

/-- CUE_ROUTE, code 0x47 (R103). -/
def execCueRoute (mode markChannel : Byte) (s : State) : Host.Outcome State Fault Refusal :=
  perform (State.takeRow 0x47 (dirCueRoute mode markChannel)) s

/-- AUDIO_LEVEL, code 0x48 (R108). -/
def execAudioLevel (level ramp : Byte) (s : State) : Host.Outcome State Fault Refusal :=
  perform (State.takeRow 0x48 (dirAudioLevel level ramp)) s

/-- ARB_LEVELS, code 0x50 (R134). -/
def execArbLevels (level0 level1 : Byte) (s : State) : Host.Outcome State Fault Refusal :=
  perform (State.takeRow 0x50 (dirArbLevels level0 level1)) s

/-- ARB_MASK, code 0x51 (R134). -/
def execArbMask (sources : Byte) (s : State) : Host.Outcome State Fault Refusal :=
  perform (State.takeRow 0x51 (dirArbMask sources)) s

/-- RUN_LOAD, code 0x60 (R150). -/
def execRunLoad (channel baseSlot baseCount mode dwell : Byte) (s : State) : Host.Outcome State Fault Refusal :=
  perform (State.takeRow 0x60 (dirRunLoad channel baseSlot baseCount mode dwell)) s

/-- RUN_MASK, code 0x61 (R151). -/
def execRunMask (select values : Byte) (s : State) : Host.Outcome State Fault Refusal :=
  perform (State.takeRow 0x61 (dirRunMask select values)) s

/-- RUN_TRIGGER, code 0x62 (R152). -/
def execRunTrigger (channel : Byte) (s : State) : Host.Outcome State Fault Refusal :=
  perform (State.takeRow 0x62 (dirRunTrigger channel)) s

/-- RUN_CLEAR_ALL, code 0x63 (R162). -/
def execRunClearAll (s : State) : Host.Outcome State Fault Refusal :=
  perform (State.takeRow 0x63 dirRunClearAll) s

/-- RUN_ORDER, code 0x64 (R161). -/
def execRunOrder (order : Byte) (s : State) : Host.Outcome State Fault Refusal :=
  perform (State.takeRow 0x64 (dirRunOrder order)) s

/-- SHOW_START, code 0x70 (R167). -/
def execShowStart (indexLo indexHi : Byte) (s : State) : Host.Outcome State Fault Refusal :=
  perform (State.takeRow 0x70 (dirShowStart indexLo indexHi)) s

/-- SHOW_PAUSE, code 0x71 (R168). -/
def execShowPause (s : State) : Host.Outcome State Fault Refusal :=
  perform (State.takeRow 0x71 dirShowPause) s

/-- SHOW_RESUME, code 0x72 (R168). -/
def execShowResume (s : State) : Host.Outcome State Fault Refusal :=
  perform (State.takeRow 0x72 dirShowResume) s

/-- SHOW_STOP, code 0x73 (R169). -/
def execShowStop (s : State) : Host.Outcome State Fault Refusal :=
  perform (State.takeRow 0x73 dirShowStop) s

/-- CUE_GO, code 0x74 (R182). -/
def execCueGo (s : State) : Host.Outcome State Fault Refusal :=
  perform (State.takeRow 0x74 dirCueGo) s

/-- SHOW_LEAD, code 0x75 (R170). -/
def execShowLead (enable extra : Byte) (s : State) : Host.Outcome State Fault Refusal :=
  perform (State.takeRow 0x75 (dirShowLead enable extra)) s

end Sys2Proof.Machine
end

