-- ==== Sys2Proof/Machine/LampCommands.lean ====
section
/-! DEFINITION. The events of the lamp, the fan and the cutoff inputs as commands (02_lamp_fades_and_the_heat_estimate.md,
03_cooling_fan.md, 04_forced_cutoff.md). A timer's expiry acts when the timer has run out (assumption log 5). -/

namespace Sys2Proof.Machine

/-- A lamp update whose time has come (R44). -/
def Lc.timedUpdate (lc : Lc) : Lc := if lc.lampPhase.due then lc.update else lc

/-- LAMP_UPDATE (R44). -/
def execLampUpdate (s : State) : Host.Outcome State Fault Refusal := perform (fun k => k.putLc (k.lc.timedUpdate, [])) s

/-- The lamp update at which the fade in progress completes (R42). -/
def Lc.completeFade (lc : Lc) : Lc :=
  match lc.fade with
  | some f => if f.complete = true then lc.timedUpdate else lc
  | none => lc

/-- FADE_COMPLETE (R42). -/
def execFadeComplete (s : State) : Host.Outcome State Fault Refusal := perform (fun k => k.putLc (k.lc.completeFade, [])) s

/-- STRIKE_END (R35). -/
def execStrikeEnd (s : State) : Host.Outcome State Fault Refusal :=
  perform (fun k => k.putLc (k.lc.strikeEnd k.tmc.inTime)) s

/-- LCUR_CHANGE (R36). -/
def execLcurChange (present : Bool) (s : State) : Host.Outcome State Fault Refusal :=
  perform (fun k => k.putLc (k.lc.setCurrent present, [])) s

/-- FAILURE_WATCH_EXPIRY (R36). -/
def execFailureWatchExpiry (s : State) : Host.Outcome State Fault Refusal := perform (fun k => k.putLc k.lc.watchExpiry) s

/-- EXCHANGE_MOVE_END (R38). -/
def execExchangeMoveEnd (s : State) : Host.Outcome State Fault Refusal := perform (fun k => k.putLc k.lc.moveEnd) s

/-- HEAT_UPDATE (R52). -/
def execHeatUpdate (s : State) : Host.Outcome State Fault Refusal :=
  perform (fun k => if k.lc.heatPhase.due then k.putLc (k.lc.heatUpdate k.fc.speed) else k) s

/-- FTACH_PULSE (R60). -/
def execFtachPulse (s : State) : Host.Outcome State Fault Refusal := perform (fun k => k.putFc (k.fc.pulse, [])) s

/-- MEASUREMENT_WINDOW_END (R60). -/
def execMeasurementWindowEnd (s : State) : Host.Outcome State Fault Refusal :=
  perform (fun k => if k.fc.windowPhase.due then k.putFc (k.fc.windowEnd k.lc.lampActive) else k) s

/-- THSW_CHANGE (R73). -/
def execThswChange (active : Bool) (s : State) : Host.Outcome State Fault Refusal :=
  perform (fun k => k.putCu (k.cu.setThsw active, [])) s

/-- ILOCK_CHANGE (R73). -/
def execIlockChange (opened : Bool) (s : State) : Host.Outcome State Fault Refusal :=
  perform (fun k => k.putCu (k.cu.setIlock opened, [])) s

/-- FILTER_TIMER_EXPIRY (R73). -/
def execFilterTimerExpiry (input : FilteredInput) (s : State) : Host.Outcome State Fault Refusal :=
  perform (fun k => k.putCu (k.cu.filterExpiry input)) s

end Sys2Proof.Machine
end

