-- ==== Sys2Proof/Machine/RemoteCommands.lean ====
section
/-! DEFINITION. The events of the remote line, the held key and the focus motor, the dwell timers and the cue timeline as
commands (06_remote_control_and_focus.md, 08_run_channels.md, 09_cue_lists_and_the_cue_engine.md). A timer's expiry acts
when the timer has run out, and an instant when the show clock has reached it (assumption log 5). -/

namespace Sys2Proof.Machine

/-- An accepted frame: a repeat, or a new press after the release of a key held. The key held "is released first, under
R119, and the frame is then a new press" (R118), so the release is carried out with every notice its action leads to (the
checks of a SHOW_RESUME among them, R168) before the press is held and offered. -/
def State.acceptFrame (s : State) (key : BitVec 5) (toggle : Bool) : State :=
  match s.rr.held with
  | some h =>
    if h.key = key ∧ h.toggle = toggle then s.putRr ({ s.rr with releaseTimer := some 250 }, [])
    else (s.carry State.releaseKey).press key toggle
  | none => s.press key toggle

/-- The frame-end timer expires with twelve bits received (R114, R115). -/
def State.completeFrame (s : State) : State :=
  match s.rr.frameBits? with
  | none => s
  | some bits =>
    if frameGood bits then
      let accepted := s.rr.accepts bits
      let s := s.putRr (s.rr.frameDone, [])
      if accepted then s.acceptFrame (BitVec.ofNat 5 (frameField bits 4 5)) (bits.getD 9 false) else s
    else s.putRr (s.rr.fail .check true)

/-- REMOTE_FRAME (R115, R118). -/
def execRemoteFrame (s : State) : Host.Outcome State Fault Refusal := perform State.completeFrame s

/-- FRAME_ERROR (R116). -/
def execFrameError (failure : FrameFailure) (s : State) : Host.Outcome State Fault Refusal :=
  perform (fun k => k.putRr (k.rr.frameError failure)) s

/-- LOW_LIMIT_EXPIRY (R113). -/
def execLowLimitExpiry (s : State) : Host.Outcome State Fault Refusal := perform (fun k => k.putRr k.rr.lowLimitExpiry) s

/-- IDLE_TIMER_EXPIRY (R116). -/
def execIdleTimerExpiry (s : State) : Host.Outcome State Fault Refusal :=
  perform (fun k => k.putRr (k.rr.idleExpiry, [])) s

/-- RELEASE_TIMER_EXPIRY (R119). -/
def execReleaseTimerExpiry (s : State) : Host.Outcome State Fault Refusal := perform State.releaseExpiry s

/-- REPEAT_TIMER_EXPIRY (R123). -/
def execRepeatTimerExpiry (s : State) : Host.Outcome State Fault Refusal := perform State.repeatExpiry s

/-- FLIM_CHANGE (R125). -/
def execFlimChange (active : Bool) (s : State) : Host.Outcome State Fault Refusal :=
  perform (fun k => k.putRr (k.rr.setFlim active, [])) s

/-- ESCAPE_WATCH_EXPIRY (R125). -/
def execEscapeWatchExpiry (s : State) : Host.Outcome State Fault Refusal :=
  perform (fun k => k.putRr (k.rr.escapeExpiry, [])) s

/-- RLINE_EDGE (R113, R114, R116). -/
def execRlineEdge (rising : Bool) (micros : Nat) (s : State) : Host.Outcome State Fault Refusal :=
  perform (fun k => k.putRr (k.rr.edge rising micros)) s

/-- DWELL_TIMER_EXPIRY (R153). -/
def execDwellTimerExpiry (channel : BitVec 2) (s : State) : Host.Outcome State Fault Refusal :=
  perform (fun k => k.putRcu (k.rcu.dwellExpiry channel)) s

/-- FIRE_INSTANT (R172). -/
def execFireInstant (s : State) : Host.Outcome State Fault Refusal :=
  perform (fun k => k.putCe (k.ce.fireInstantReached k.tmc.outTime k.cueSlotFree)) s

/-- TIMELINE_INSTANT (R176). -/
def execTimelineInstant (s : State) : Host.Outcome State Fault Refusal :=
  perform (fun k => k.putCe k.ce.timelineReached) s

/-- AWAIT_TIMEOUT (R178). -/
def execAwaitTimeout (s : State) : Host.Outcome State Fault Refusal :=
  perform (fun k => k.putCe (k.ce.timeoutReached k.cueSlotFree)) s

end Sys2Proof.Machine
end

