-- ==== Sys2Proof/Machine/TapeCommands.lean ====
section
/-! DEFINITION. The events of the deck, the cue track and the sound level as commands
(05_tape_transport_cue_track_and_sound.md). A timer's expiry acts when the timer has run out (assumption log 5). -/

namespace Sys2Proof.Machine

/-- TMOTN_PULSE (R94). -/
def execTmotnPulse (s : State) : Host.Outcome State Fault Refusal := perform (fun k => k.putTtc k.ttc.pulse) s

/-- LEADER_ALLOWANCE_END (R97): the pulse that is the sixty-fourth of the allowance. -/
def execLeaderAllowanceEnd (s : State) : Host.Outcome State Fault Refusal :=
  perform (fun k => if k.ttc.lastOfAllowance then k.putTtc k.ttc.pulse else k) s

/-- TEND_CHANGE (R97). -/
def execTendChange (active : Bool) (s : State) : Host.Outcome State Fault Refusal :=
  perform (fun k => k.putTtc (k.ttc.setTend active)) s

/-- BRAKING_TIMER_EXPIRY (R92). -/
def execBrakingTimerExpiry (s : State) : Host.Outcome State Fault Refusal :=
  perform (fun k => k.putTtc k.ttc.brakingExpiry) s

/-- STALL_WATCH_EXPIRY (R98). -/
def execStallWatchExpiry (s : State) : Host.Outcome State Fault Refusal := perform (fun k => k.putTtc k.ttc.stallExpiry) s

/-- CUEIN_EDGE (R99, R101, R102). -/
def execCueinEdge (rising : Bool) (s : State) : Host.Outcome State Fault Refusal :=
  perform (fun k => k.putTtc (k.ttc.edge rising k.rw.uptime)) s

/-- GAP_TIMER_EXPIRY (R99). -/
def execGapTimerExpiry (s : State) : Host.Outcome State Fault Refusal := perform (fun k => k.putTtc k.ttc.gapExpiry) s

/-- STUCK_TIMER_EXPIRY (R101). -/
def execStuckTimerExpiry (s : State) : Host.Outcome State Fault Refusal := perform (fun k => k.putTtc k.ttc.stuckExpiry) s

/-- WRITER_TONE_END (R106). -/
def execWriterToneEnd (s : State) : Host.Outcome State Fault Refusal := perform (fun k => k.putTtc k.ttc.toneEnd) s

/-- WRITER_QUIET_END (R106). -/
def execWriterQuietEnd (s : State) : Host.Outcome State Fault Refusal :=
  perform (fun k => k.putTtc (k.ttc.quietEnd, [])) s

/-- AUDIO_RAMP_STEP (R108). -/
def execAudioRampStep (s : State) : Host.Outcome State Fault Refusal :=
  perform (fun k => k.putTtc (k.ttc.rampStep, [])) s

end Sys2Proof.Machine
end

