-- ==== Sys2Proof/Machine/TrayCommands.lean ====
section
/-! DEFINITION. The events of the mechanism as commands (01_the_slide_change_mechanism.md). A timer's expiry acts when
the timer has run out (assumption log 5). -/

namespace Sys2Proof.Machine

/-- TRAY_CODE_CHANGE (R1, R18 to R20). -/
def execTrayCodeChange (code : BitVec 2) (s : State) : Host.Outcome State Fault Refusal :=
  perform (fun k => k.putTmc (k.tmc.codeChange (k.cu.enabled .trayLost) code)) s

/-- The LC's report, if one has been sent, is taken by the TMC (R7, R47). -/
def State.takeReport (s : State) : State :=
  if s.lc.report then ({ s with lc := { s.lc with report := false } }).putTmc s.tmc.takeReport else s

/-- BLACKOUT_REPORT (R7). -/
def execBlackoutReport (s : State) : Host.Outcome State Fault Refusal := perform State.takeReport s

/-- DARKEN_LATE (R7). -/
def execDarkenLate (s : State) : Host.Outcome State Fault Refusal := perform (fun k => k.putTmc k.tmc.darkenLate) s

/-- LTOP_ACTIVE (R8). -/
def execLtopActive (s : State) : Host.Outcome State Fault Refusal := perform (fun k => k.putTmc k.tmc.ltopActive) s

/-- LIFT_TIMER_EXPIRY (R8). -/
def execLiftTimerExpiry (s : State) : Host.Outcome State Fault Refusal := perform (fun k => k.putTmc k.tmc.liftExpiry) s

/-- LIFT_LOWERING_END (R8). -/
def execLiftLoweringEnd (s : State) : Host.Outcome State Fault Refusal := perform (fun k => k.putTmc k.tmc.loweringEnd) s

/-- ARRIVAL (R2, R9, R14 to R17, R23). -/
def execArrival (thome : Bool) (s : State) : Host.Outcome State Fault Refusal :=
  perform (fun k => k.putTmc (k.tmc.arrive thome)) s

/-- POSITION_TIMER_EXPIRY (R9). -/
def execPositionTimerExpiry (s : State) : Host.Outcome State Fault Refusal :=
  perform (fun k => k.putTmc k.tmc.positionExpiry) s

/-- GSEAT_ACTIVE (R10). -/
def execGseatActive (s : State) : Host.Outcome State Fault Refusal := perform (fun k => k.putTmc k.tmc.gseatActive) s

/-- DROP_TIMER_EXPIRY (R10). -/
def execDropTimerExpiry (gslide : Bool) (s : State) : Host.Outcome State Fault Refusal :=
  perform (fun k => k.putTmc (k.tmc.dropExpiry gslide)) s

/-- SETTLE_END (R11). -/
def execSettleEnd (s : State) : Host.Outcome State Fault Refusal := perform (fun k => k.putTmc k.tmc.settleEnd) s

end Sys2Proof.Machine
end

