-- ==== Sys2Proof/Machine/Dispatch.lean ====
section
/-! DEFINITION. One arm for each command, each a direct call of its meaning. -/

namespace Sys2Proof.Machine

def exec (i : Instr) (s : State) : Host.Outcome State Fault Refusal :=
  match i with
  | .powerOnReset pins => Sys2Proof.Machine.execPowerOnReset pins s
  | .hostWrite addr value gap => Sys2Proof.Machine.execHostWrite addr value gap s
  | .ownCycleComplete => Sys2Proof.Machine.execOwnCycleComplete s
  | .leadByte code gap => Sys2Proof.Machine.execLeadByte code gap s
  | .unknownCode code gap => Sys2Proof.Machine.execUnknownCode code gap s
  | .operandByte value gap => Sys2Proof.Machine.execOperandByte value gap s
  | .ridxWrite value gap => Sys2Proof.Machine.execRidxWrite value gap s
  | .curveWrite curve point value gap => Sys2Proof.Machine.execCurveWrite curve point value gap s
  | .keyMapWrite key field value gap => Sys2Proof.Machine.execKeyMapWrite key field value gap s
  | .cueStoreWrite record offset value gap => Sys2Proof.Machine.execCueStoreWrite record offset value gap s
  | .partReset => Sys2Proof.Machine.execPartReset s
  | .remoteSetup unit enable => Sys2Proof.Machine.execRemoteSetup unit enable s
  | .home => Sys2Proof.Machine.execHome s
  | .gotoSlot slot => Sys2Proof.Machine.execGotoSlot slot s
  | .moveBy step => Sys2Proof.Machine.execMoveBy step s
  | .clearGate => Sys2Proof.Machine.execClearGate s
  | .changeProfile outTime inTime blackout => Sys2Proof.Machine.execChangeProfile outTime inTime blackout s
  | .lampOn => Sys2Proof.Machine.execLampOn s
  | .lampOff => Sys2Proof.Machine.execLampOff s
  | .lampFade levelLo levelHi curve time => Sys2Proof.Machine.execLampFade levelLo levelHi curve time s
  | .lampCeiling levelLo levelHi => Sys2Proof.Machine.execLampCeiling levelLo levelHi s
  | .lampSpare lamps => Sys2Proof.Machine.execLampSpare lamps s
  | .heatProfile lampGain fanGain derateStart overheat restrikeMax => Sys2Proof.Machine.execHeatProfile lampGain fanGain derateStart overheat restrikeMax s
  | .fanProfile minimum coolDone => Sys2Proof.Machine.execFanProfile minimum coolDone s
  | .cutoffSelect selection0 selection1 => Sys2Proof.Machine.execCutoffSelect selection0 selection1 s
  | .cutoffEnable causes => Sys2Proof.Machine.execCutoffEnable causes s
  | .cutoffForce => Sys2Proof.Machine.execCutoffForce s
  | .cutoffClear => Sys2Proof.Machine.execCutoffClear s
  | .tapePlay => Sys2Proof.Machine.execTapePlay s
  | .tapeStop => Sys2Proof.Machine.execTapeStop s
  | .tapeWind direction => Sys2Proof.Machine.execTapeWind direction s
  | .tapeLocate targetLo targetHi => Sys2Proof.Machine.execTapeLocate targetLo targetHi s
  | .tapeRecord => Sys2Proof.Machine.execTapeRecord s
  | .tapeZero => Sys2Proof.Machine.execTapeZero s
  | .cueWrite cueClass => Sys2Proof.Machine.execCueWrite cueClass s
  | .cueRoute mode markChannel => Sys2Proof.Machine.execCueRoute mode markChannel s
  | .audioLevel level ramp => Sys2Proof.Machine.execAudioLevel level ramp s
  | .arbLevels level0 level1 => Sys2Proof.Machine.execArbLevels level0 level1 s
  | .arbMask sources => Sys2Proof.Machine.execArbMask sources s
  | .runLoad channel baseSlot baseCount mode dwell => Sys2Proof.Machine.execRunLoad channel baseSlot baseCount mode dwell s
  | .runMask select values => Sys2Proof.Machine.execRunMask select values s
  | .runTrigger channel => Sys2Proof.Machine.execRunTrigger channel s
  | .runClearAll => Sys2Proof.Machine.execRunClearAll s
  | .runOrder order => Sys2Proof.Machine.execRunOrder order s
  | .showStart indexLo indexHi => Sys2Proof.Machine.execShowStart indexLo indexHi s
  | .showPause => Sys2Proof.Machine.execShowPause s
  | .showResume => Sys2Proof.Machine.execShowResume s
  | .showStop => Sys2Proof.Machine.execShowStop s
  | .cueGo => Sys2Proof.Machine.execCueGo s
  | .showLead enable extra => Sys2Proof.Machine.execShowLead enable extra s
  | .trayCodeChange code => Sys2Proof.Machine.execTrayCodeChange code s
  | .blackoutReport => Sys2Proof.Machine.execBlackoutReport s
  | .darkenLate => Sys2Proof.Machine.execDarkenLate s
  | .ltopActive => Sys2Proof.Machine.execLtopActive s
  | .liftTimerExpiry => Sys2Proof.Machine.execLiftTimerExpiry s
  | .liftLoweringEnd => Sys2Proof.Machine.execLiftLoweringEnd s
  | .arrival thome => Sys2Proof.Machine.execArrival thome s
  | .positionTimerExpiry => Sys2Proof.Machine.execPositionTimerExpiry s
  | .gseatActive => Sys2Proof.Machine.execGseatActive s
  | .dropTimerExpiry gslide => Sys2Proof.Machine.execDropTimerExpiry gslide s
  | .settleEnd => Sys2Proof.Machine.execSettleEnd s
  | .lampUpdate => Sys2Proof.Machine.execLampUpdate s
  | .fadeComplete => Sys2Proof.Machine.execFadeComplete s
  | .strikeEnd => Sys2Proof.Machine.execStrikeEnd s
  | .lcurChange present => Sys2Proof.Machine.execLcurChange present s
  | .failureWatchExpiry => Sys2Proof.Machine.execFailureWatchExpiry s
  | .exchangeMoveEnd => Sys2Proof.Machine.execExchangeMoveEnd s
  | .heatUpdate => Sys2Proof.Machine.execHeatUpdate s
  | .ftachPulse => Sys2Proof.Machine.execFtachPulse s
  | .measurementWindowEnd => Sys2Proof.Machine.execMeasurementWindowEnd s
  | .thswChange active => Sys2Proof.Machine.execThswChange active s
  | .ilockChange opened => Sys2Proof.Machine.execIlockChange opened s
  | .filterTimerExpiry input => Sys2Proof.Machine.execFilterTimerExpiry input s
  | .tmotnPulse => Sys2Proof.Machine.execTmotnPulse s
  | .leaderAllowanceEnd => Sys2Proof.Machine.execLeaderAllowanceEnd s
  | .tendChange active => Sys2Proof.Machine.execTendChange active s
  | .brakingTimerExpiry => Sys2Proof.Machine.execBrakingTimerExpiry s
  | .stallWatchExpiry => Sys2Proof.Machine.execStallWatchExpiry s
  | .cueinEdge rising => Sys2Proof.Machine.execCueinEdge rising s
  | .gapTimerExpiry => Sys2Proof.Machine.execGapTimerExpiry s
  | .stuckTimerExpiry => Sys2Proof.Machine.execStuckTimerExpiry s
  | .writerToneEnd => Sys2Proof.Machine.execWriterToneEnd s
  | .writerQuietEnd => Sys2Proof.Machine.execWriterQuietEnd s
  | .audioRampStep => Sys2Proof.Machine.execAudioRampStep s
  | .remoteFrame => Sys2Proof.Machine.execRemoteFrame s
  | .frameError failure => Sys2Proof.Machine.execFrameError failure s
  | .lowLimitExpiry => Sys2Proof.Machine.execLowLimitExpiry s
  | .idleTimerExpiry => Sys2Proof.Machine.execIdleTimerExpiry s
  | .releaseTimerExpiry => Sys2Proof.Machine.execReleaseTimerExpiry s
  | .repeatTimerExpiry => Sys2Proof.Machine.execRepeatTimerExpiry s
  | .flimChange active => Sys2Proof.Machine.execFlimChange active s
  | .escapeWatchExpiry => Sys2Proof.Machine.execEscapeWatchExpiry s
  | .dwellTimerExpiry channel => Sys2Proof.Machine.execDwellTimerExpiry channel s
  | .fireInstant => Sys2Proof.Machine.execFireInstant s
  | .timelineInstant => Sys2Proof.Machine.execTimelineInstant s
  | .awaitTimeout => Sys2Proof.Machine.execAwaitTimeout s
  | .uptimeTick sensors => Sys2Proof.Machine.execUptimeTick sensors s
  | .rlineEdge rising micros => Sys2Proof.Machine.execRlineEdge rising micros s
  | .hostRead addr gap => Sys2Proof.Machine.execHostRead addr gap s
  | .resetAsserted => Sys2Proof.Machine.execResetAsserted s

end Sys2Proof.Machine
end

