-- ==== Sys2Proof/WellFormed.lean ====
section
/-! DEFINITION. Which commands are well formed: those whose operands name what their row is about. The host can make any
bus cycle, so an ill-formed command is not an impossible one; it is a command that belongs to another row, or, for a cue
record that the store does not hold, to none. -/

namespace Sys2Proof

/-- The forty directive codes, 0x01 to 0x75 (10_memory_passage_and_window_formats.md, section 10.6). -/
def knownCodes : List Byte :=
  [0x01, 0x02, 0x10, 0x11, 0x12, 0x13, 0x14, 0x20, 0x21, 0x22, 0x23, 0x24, 0x25, 0x30, 0x38, 0x39, 0x3A, 0x3B, 0x40,
    0x41] ++
  [0x42, 0x43, 0x44, 0x45, 0x46, 0x47, 0x48, 0x50, 0x51, 0x60, 0x61, 0x62, 0x63, 0x64, 0x70, 0x71, 0x72, 0x73, 0x74,
    0x75]

/-- The codes of directives that take operands (10, section 10.6). -/
def collectingCodes : List Byte :=
  [0x02, 0x11, 0x12, 0x14, 0x22, 0x23, 0x24, 0x25, 0x30, 0x38, 0x39, 0x42, 0x43, 0x46, 0x47, 0x48, 0x50, 0x51, 0x60,
    0x61, 0x62, 0x64, 0x70, 0x75]

/-- A well-formed command: LEAD_BYTE opens a directive that takes operands (R204), UNKNOWN_CODE is a code of no directive
(R208), CUE_STORE_WRITE names a record of the store (R193), and an edge on RLINE ends a level that lasted some time. -/
def Instr.wellFormed : Instr → Bool
  | .leadByte code _ => collectingCodes.contains code
  | .unknownCode code _ => !knownCodes.contains code
  | .cueStoreWrite record _ _ _ => decide (record.toNat < Config.cueRecords)
  | .rlineEdge _ micros => decide (0 < micros)
  | _ => true

end Sys2Proof
end

