-- ==== Sys2Proof/Safety.lean ====
section
/-! DEFINITION. What a sound state of the part is, block by block, in the terms the statements use: the laws the rules
say the blocks keep to. -/

namespace Sys2Proof.Safety

open Sys2Proof.Machine

/-- The RAM list has its canonical form. -/
def Ram (s : State) : Prop := Memory.wf s.mem = true

/-- The mechanism: the tray size of the code (R1), the homed flag by state (01, section 1.2), the position on the ring
(R2), the display law (R21), the lifter driven throughout TURN (R9) and an operation exactly in the phases of a cycle
(R4, R28). The later fields say which operation stands in which phase. -/
structure Mechanism (t : Tmc) : Prop where
  size : t.n = codeSize t.tcode
  present : t.homed = true → t.n ≠ 0
  ready : t.state = .ready → t.homed = true
  unhomed : (t.state = .unhomed ∨ t.state = .noTray ∨ t.state = .jammed) → t.homed = false
  tray : t.state ≠ .noTray → t.state ≠ .jammed → t.n ≠ 0
  ring : t.homed = true → t.p ≤ t.n
  display : t.display = if t.homed then bcd t.p else dashes
  cycle : t.inCycle = t.op.isSome
  counting : t.state = .turn → t.homing = false → t.homed = true
  homing : t.homing = true → t.homed = false
  moving : (t.motor = .forward ∨ t.motor = .reverse) ↔ t.state = .turn
  lifted : t.state = .turn → t.lifter = true ∧ t.gate = .empty
  known : t.inCycle = true → t.homed = false → t.homing = true ∨ (t.opKind = some .clearGate ∧ t.fromUnhomed = true)
  phase : t.homing = true → t.state = .darken ∨ t.state = .lift ∨ t.state = .turn
  clearing : t.opKind = some .clearGate → t.fromUnhomed = true →
    t.homed = false ∧ t.homing = false ∧ (t.state = .darken ∨ t.state = .lift)
  seeking : (t.state = .darken ∨ t.state = .lift) → (t.homing = true ↔ t.opKind = some .home)
  changing : (t.state = .drop ∨ t.state = .settle) → t.opKind ≠ some .home ∧ t.opKind ≠ some .clearGate
  turning : t.state = .turn → t.homing = false → (t.opKind = some .home ∨ t.opKind = some .clearGate) →
    t.redirect = true

/-- The lamp: the output law (R41), the bounds of its terms, and the thresholds of the heat profile (R53, R54). -/
structure Lamphouse (lc : Lc) : Prop where
  output : lc.output = lc.computedOutput
  ceiling : lc.ceiling ≤ 1023
  limit : lc.derate = derateOf lc.h lc.derateStart lc.overheatLevel
  thresholds : lc.restrikeMax < lc.derateStart ∧ lc.derateStart < lc.overheatLevel
  units : ∃ k m : Nat, lc.derateStart = 256 * k ∧ lc.overheatLevel = 256 * m ∧ m ≤ 255
  heat : lc.h ≤ 65535
  gain : 1 ≤ lc.lampGain
  report : lc.state = .failed → lc.goodA = false ∧ lc.goodB = false

/-- The fan: STOPPED exactly at demand 0 (R64), grace windows exactly in SPINUP, and the counts in their ranges (03,
section 3.1). -/
structure Fan (fc : Fc) : Prop where
  stopped : fc.state = .stopped ↔ fc.demand = 0
  spinup : fc.state = .spinup ↔ 0 < fc.grace
  demand : fc.demand ≤ 255
  speed : fc.speed ≤ 255
  pulses : fc.pulses ≤ 65535
  grace : fc.grace ≤ 4
  stalls : fc.stallWindows ≤ 3
  minimum : fc.minimum ≤ 255

/-- The cool-done level CD lies below the restrike maximum RM at every instant (R69). -/
def CoolDone (s : State) : Prop := s.fc.coolDone < s.lc.restrikeMax

/-- The cutoff: the set is empty exactly while the flag is clear (R74), a present enabled level cause is in the set and
so the flag is set (R83), and the LC has been handed the imposition of the moment (R77). -/
structure Cutoff (cu : Cu) : Prop where
  flag : cu.flag = false ↔ cu.causes = 0
  law : ∀ c, cu.enabled c = true → cu.present c = true → cu.inSet c = true
  handed : cu.lampHanded = cu.lampImposition

/-- The deck: at most eight cues wait (R105), a request is latched only in BRAKING (R89), the tape has no direction
exactly in STOPPED (05, section 5.1), the decoder is OFF exactly in RECORDING (R102), the writer works only there
(R107), the stall watch runs exactly in PLAYING and RECORDING (R98) and the leader allowance only in a moving state
with TEND active (R97). -/
structure Deck (t : Ttc) : Prop where
  fifo : t.fifo.length ≤ 8
  latched : t.latched.isSome = true → t.state = .braking
  direction : t.direction = .none ↔ t.state = .stopped
  decoder : t.decoder = .off ↔ t.state = .recording
  writer : t.writer ≠ .idle → t.state = .recording
  watch : t.stallWatch.isSome = true ↔ (t.state = .playing ∨ t.state = .recording)
  leader : t.leader.isSome = true → t.state.moving = true ∧ t.tend = true

/-- Twelve bits at most: SPACE follows the start pulse or a bit, BIT awaits the next of twelve (R114). -/
def FrameBits : Receiver → Prop
  | .space bits => bits.length ≤ 12
  | .bit bits => bits.length ≤ 11
  | _ => True

/-- The remote: the bits of the frame (R114), the error count saturated (R116) and a drive only for a key held (R124). -/
structure Remote (rr : Rr) : Prop where
  bits : FrameBits rr.receiver
  errors : rr.errors ≤ 255
  drive : rr.focus ≠ .stopped → rr.held.isSome = true

/-- One run channel: R148's law. -/
structure RunChannel (c : Channel) : Prop where
  count : c.count ≤ c.baseCount
  baseCount : c.baseCount ≤ 119
  baseSlot : 1 ≤ c.baseSlot ∧ c.baseSlot ≤ 120
  slot : 1 ≤ c.slot ∧ c.slot ≤ 120

/-- The four channels (R148), with the tray size that the slots wrap on (R1, R157). -/
structure RunChannels (s : State) : Prop where
  size : s.tmc.n = codeSize s.tmc.tcode
  channel : ∀ c : BitVec 2, RunChannel (s.rcu.channels.get c)

/-- The engine: four staged entries at most, entry 0 the current record (R184), nothing staged outside RUNNING and
PAUSED (09, section 9.2), a loop table of at most four entries and an outcome memory of at most eight, neither with an
index twice (R177, R183). -/
structure Engine (ce : Ce) : Prop where
  queue : ce.queue.length ≤ 4
  staged : ce.active = false → ce.queue = []
  current : ce.active = true → (ce.queue.head?.map (·.index)) = some ce.index
  loops : ce.loops.length ≤ 4 ∧ (ce.loops.map (·.index)).Nodup
  memory : ce.memory.length ≤ 8 ∧ (ce.memory.map (·.index)).Nodup

/-- A write of the part's own lies in the status block or the event ring (R193). -/
def ownOffset (offset : Nat) : Prop := 0x0100 ≤ offset ∧ offset < 0x0600

/-- The reports and the passage: eight entries at most (R213), the dropped count saturated, eleven lines (R211), the wait
count at most 8 and 0 while nothing waits or runs (R197), and every write the part asks for, or has in progress, in
its own regions of the window (R193, R195). -/
structure Reports (s : State) : Prop where
  buffer : s.rw.buffer.length ≤ 8
  dropped : s.rw.dropped ≤ 255
  lines : s.rw.lines.length = 11
  count : s.pu.waitCount ≤ 8
  idle : s.pu.waiting = false → s.pu.own = none → s.pu.waitCount = 0
  todo : ∀ j, s.rw.job = some j → ∀ w ∈ j.todo, ownOffset w.offset
  asked : ∀ w, s.pu.rwRequest = some w → ownOffset w.offset
  own : ∀ c, s.pu.own = some c → c.data.isSome = true → ownOffset c.offset

/-- A decoder collecting a directive lacks at least one of the operands that the code table gives its code (R203, R205). -/
structure Decoder (dd : Dd) : Prop where
  short : dd.collecting = true → dd.received < dd.expected
  row : dd.collecting = true → operandCount? dd.openCode = some dd.expected
  expected : dd.expected ≤ 5
  held : dd.buffer.length = dd.received

/-- No notice is left between commands (assumption log 4). -/
def Drained (s : State) : Prop := s.notices = []

/-! ## What a command leaves unchanged -/

/-- The parts of the state that a frame speaks of. The Report Writer's lines, buffer and write in progress, and the own
cycle that it leads to, are no part here: every command may set them to work (R211, R212), and `Logs` says what it hands
them. -/
inductive Part where
  | ram | window | waitCount | clock | ring | decoder | engine | arbiter | channels | mechanism | lamp | fan | cutoff
  | deck | remote | queue
  deriving DecidableEq, Repr

/-- A part reads in `t` as in `s`. -/
def Part.same : Part → State → State → Prop
  | .ram, s, t => ∀ a, Memory.read t.mem a = Memory.read s.mem a
  | .window, s, t => t.pu.base = s.pu.base ∧ t.pu.inReset = s.pu.inReset ∧ t.pu.hostBusy = s.pu.hostBusy ∧
      t.pu.held = s.pu.held ∧ t.pu.hostData = s.pu.hostData
  | .waitCount, s, t => t.pu.waitCount = s.pu.waitCount
  | .clock, s, t => t.rw.uptime = s.rw.uptime
  | .ring, s, t => t.rw.writeIndex = s.rw.writeIndex ∧ t.rw.readIndex = s.rw.readIndex
  | .decoder, s, t => t.dd = s.dd
  | .engine, s, t => t.ce = s.ce
  | .arbiter, s, t => t.ca = s.ca
  | .channels, s, t => t.rcu = s.rcu
  | .mechanism, s, t => t.tmc = s.tmc
  | .lamp, s, t => t.lc = s.lc
  | .fan, s, t => t.fc = s.fc
  | .cutoff, s, t => t.cu = s.cu
  | .deck, s, t => t.ttc = s.ttc
  | .remote, s, t => t.rr = s.rr
  | .queue, s, t => t.pending = s.pending ∧ t.notices = []

/-- Every part not named reads as before. -/
def Unchanged (changed : List Part) (s t : State) : Prop := ∀ p, p ∉ changed → p.same s t

/-- These events, in this order, are handed to the Report Writer: with a write in progress and room for them they join
the entries that wait (R213). What an idle Report Writer starts is said of it alone. -/
def Logs (events : List (Event × Half)) (s t : State) : Prop :=
  s.rw.job.isSome = true → s.rw.buffer.length + events.length ≤ 8 →
    t.rw.buffer = s.rw.buffer ++ events.map fun e => ⟨e.1, e.2, s.rw.uptime⟩

/-- These events, in this order, are handed to the Report Writer before any other of the command: with a write in progress
and room for them they are the first to join the entries that wait (R213). -/
def LogsFirst (events : List (Event × Half)) (s t : State) : Prop :=
  s.rw.job.isSome = true → s.rw.buffer.length + events.length ≤ 8 →
    ∃ later, t.rw.buffer = s.rw.buffer ++ (events.map fun e => ⟨e.1, e.2, s.rw.uptime⟩) ++ later

/-- A command's effect beside the named parts: nothing else changes, and these events are logged. -/
def Effect (changed : List Part) (events : List (Event × Half)) (s t : State) : Prop :=
  Unchanged changed s t ∧ Logs events s t

/-- The entries that a block's notices hand over, in order. -/
def loggedOf (ns : List Notice) : List (Event × Half) :=
  ns.filterMap fun n => match n with
    | .log e arg => some (e, arg)
    | _ => none

/-- The Fan Controller after the Lamp Controller's record has become `lc`: it computes the demand afresh when the lamp
group, H or DS has changed (R61). -/
def fanAfter (s : State) (lc : Lc) : Reaction Fc :=
  if Lc.fanNotices s.lc lc = [] then (s.fc, []) else s.fc.compute lc.h lc.derateStart lc.lampActive

/-- The lamp's record becomes `lc`, with these events of its own, and the fan follows it. -/
def LampEffect (lc : Lc) (changed : List Part) (events : List (Event × Half)) (s t : State) : Prop :=
  t.lc = lc ∧ t.fc = (fanAfter s lc).1 ∧
    Effect (.lamp :: .fan :: changed) (events ++ loggedOf (fanAfter s lc).2) s t

/-- The event of an open directive that the taking of `code` as a row of its own abandons (R204). -/
def abandoned (code : Byte) (s : State) : List (Event × Half) :=
  if s.dd.collecting = true ∧ ¬ (s.dd.openCode = code ∧ operandCount? code ≠ some 0) then
    [(.directiveAbandoned, halfOf s.dd.openCode.toNat)]
  else []

/-- A directive is taken and answered with this result: LASTCODE, LASTRESULT, TAKEN one up and the decoder IDLE (R206,
R207), the effect beside. -/
def Answered (code : Byte) (result : Result) (changed : List Part) (events : List (Event × Half)) (s t : State) : Prop :=
  t.dd.collecting = false ∧ t.dd.lastCode = code ∧ t.dd.lastResult = result.number ∧ t.dd.taken = s.dd.taken + 1 ∧
    Effect (.decoder :: changed) (abandoned code s ++ events) s t

/-- A directive of the lamp is taken and answered: its record becomes `lc`, with these events of its own, and the fan
follows it. -/
def AnsweredLamp (code : Byte) (result : Result) (lc : Lc) (events : List (Event × Half)) (s t : State) : Prop :=
  t.lc = lc ∧ t.fc = (fanAfter s lc).1 ∧
    Answered code result [.lamp, .fan] (events ++ loggedOf (fanAfter s lc).2) s t

/-- A state in which directives are taken: no notice waits and RESET is not asserted (R199). -/
def Ready (s : State) : Prop := s.notices = [] ∧ s.pu.inReset = false

/-! ## Short names for what the statements speak of -/

/-- The direction of a turn on the ring of `n + 1` positions: forward when the forward distance is no greater than the
reverse distance (R9). -/
def shorterWay (p target n : Nat) : Motor :=
  let d := ((target : Int) - p) % ((n : Int) + 1)
  if d ≤ (n : Int) + 1 - d then .forward else .reverse

/-- One position on in the driven direction, wrapping on the ring (R2). -/
def ringStep (motor : Motor) (p n : Nat) : Nat := if motor = .reverse then (p + n) % (n + 1) else (p + 1) % (n + 1)

/-- The operation in service is this one, for a source behind which no block waits for the outcome (R138), and no request
is pending. -/
structure Alone (s : State) (op : Operation) : Prop where
  mechanism : s.tmc.op = some op
  arbiter : s.ca.inService = some op
  source : op.source = .directive ∨ op.source = .remote ∨ op.source = .tape
  slots : ∀ source, s.ca.slots.get source = none

/-- A request directive as the arbiter is to see it: its code, its kind and the result its operand check sets (R26). -/
structure RequestRow where
  code   : Byte
  kind   : OpKind
  result : Result

/-- The four request directives, with a MOVE_BY clamped to -9..+9 (R26). -/
def requestOf : Instr → Option RequestRow
  | .home => some ⟨0x10, .home, .done⟩
  | .gotoSlot slot => some ⟨0x11, .changeTo slot.toNat, .done⟩
  | .moveBy step =>
    some ⟨0x12, .moveBy (max (-9) (min 9 step.toInt)), if step.toInt < -9 ∨ 9 < step.toInt then .clamped else .done⟩
  | .clearGate => some ⟨0x13, .clearGate, .done⟩
  | _ => none

/-- The target of an operation granted to a homed mechanism (R5, R14). -/
def targetOf (t : Tmc) : OpKind → Nat
  | .home => 0
  | .clearGate => t.p
  | .changeTo slot => slot
  | .moveBy k => (((t.p : Int) + k) % ((t.n : Int) + 1)).toNat

/-- An operation that changes the slide: CHANGE_TO or MOVE_BY (R4). -/
def changesSlide : OpKind → Bool
  | .changeTo _ | .moveBy _ => true
  | .home | .clearGate => false

/-- TURN toward `g`, in the shorter direction with the lifter driven (R9). -/
def turning (m : Tmc) (g : Nat) : Tmc :=
  { m with state := .turn, lifter := true, motor := shorterWay m.p g m.n, positionTimer := some 250 }

/-- The homing turn, its arrivals counted afresh (R14, R15). -/
def seekingHome (m : Tmc) : Tmc :=
  { m with state := .turn, lifter := true, motor := .forward, positionTimer := some 250, arrivals := 0, redirect := false }

/-- DROP, which a GSEAT already active ends at once with the gate LOADED (R9, R10). -/
def dropping (m : Tmc) : Tmc :=
  if m.sensors.gseat = true then
    { m with lifter := false, motor := .unpowered, positionTimer := none, state := .settle, gate := .loaded,
             dropTimer := none, settleTimer := some 40 }
  else { m with lifter := false, motor := .unpowered, positionTimer := none, state := .drop, dropTimer := some 300 }

/-- The end without a DROP of a CLEAR_GATE or of a change to 0. A CLEAR_GATE granted from UNHOMED ends there, and a CLEAR_GATE
leaves a driven lifter driven (R12). That a change to 0 removes a drive left by a CLEAR_GATE is the model's choice (assumption
log 37). -/
def endedWithoutDrop (op : Operation) (m : Tmc) : Tmc :=
  { m with state := if op.kind = .clearGate ∧ m.fromUnhomed = true then .unhomed else .ready, motor := .unpowered,
           positionTimer := none, lifter := if op.kind = .clearGate then m.lifter else false }

/-- Homing finds THOME: the mechanism is homed at position 0 (R14, R17). -/
def foundHome (m : Tmc) : Tmc :=
  { m with p := 0, homed := true, homing := false, display := 0, motor := .unpowered, positionTimer := none,
           redirect := false }

/-- The end of a HOME, which has found THOME (R12, R14). -/
def endedHome (m : Tmc) : Tmc := { foundHome m with state := .ready, lifter := false }

/-- The CHANGE_DONE of an operation that ends on this mechanism (R12; assumption log 18). -/
def doneEntry (op : Operation) (m : Tmc) : Event × Half :=
  (.changeDone, argPair op.source.number (if m.homed then m.p else 0xFF))

/-- The operation goes on: the mechanism and the lamp are these, and the entries are logged. -/
def GoesOnAs (m : Tmc) (lc : Lc) (changed : List Part) (events : List (Event × Half)) (s t : State) : Prop :=
  t.tmc = m ∧ t.lc = lc ∧ Effect (.mechanism :: changed) events s t

/-- The operation, with nothing pending behind it, is over: the mechanism and the lamp are these, with no operation in service,
and the entries are logged. The blackout hold stands, since the lamp takes no release (R12, R28). -/
def EndsAs (op : Operation) (m : Tmc) (lc : Lc) (changed : List Part) (events : List (Event × Half)) (s t : State) : Prop :=
  Alone s op → t.tmc = { m with op := none, redirect := false } ∧ t.lc = lc ∧ t.ca = { s.ca with inService := none } ∧
    Effect (.mechanism :: .arbiter :: changed) events s t

/-- The gate of `u` is EMPTY after DARKEN or LIFT, and the operation goes on to its next planned phase or ends: a change turns,
drops at its target, or ends at target 0, a CLEAR_GATE ends, and a HOME seeks THOME or ends with THOME active (R5, R8, R9, R12,
R14). -/
def Proceeds (u : State) (changed : List Part) (s t : State) : Prop :=
  ∀ op, u.tmc.op = some op →
    (changesSlide op.kind = true → ∀ g, u.tmc.target = some g → g ≤ u.tmc.n → u.tmc.p ≤ u.tmc.n →
      (g ≠ u.tmc.p → GoesOnAs (turning u.tmc g) u.lc changed [] s t) ∧
      (g = u.tmc.p → g ≠ 0 → GoesOnAs (dropping u.tmc) u.lc changed [] s t) ∧
      (g = u.tmc.p → g = 0 → EndsAs op (endedWithoutDrop op u.tmc) u.lc changed [doneEntry op u.tmc] s t)) ∧
    (op.kind = .clearGate → EndsAs op (endedWithoutDrop op u.tmc) u.lc changed [doneEntry op u.tmc] s t) ∧
    (op.kind = .home → u.tmc.sensors.thome = false → GoesOnAs (seekingHome u.tmc) u.lc changed [] s t) ∧
    (op.kind = .home → u.tmc.sensors.thome = true →
      EndsAs op (endedHome u.tmc) u.lc changed [(.homed, argPair op.source.number 0)] s t)

/-! ### The tape (05) -/

/-- The record drive is left: the writer ends at once and the decoder listens again, in RESYNC with CUEIN high and QUIET
with it low; in any other state nothing of this happens (R102, R107). -/
def recordingEnds (t : Ttc) : Ttc :=
  if t.state = .recording then
    { t with writer := .idle, writerTimer := none, decoder := if t.cuein then .resync else .quiet, gapTimer := none,
             stuckTimer := none, past800 := false }
  else t

/-- The burst that leaving RECORDING cuts short (R107). -/
def cutBurst (t : Ttc) : List (Event × Half) :=
  match t.state, t.writer with
  | .recording, .tone cls => [(.cueWritten, argPair 1 cls.number)]
  | _, _ => []

/-- BRAKING entered from the state that stands, for 100 ms out of PLAYING and RECORDING and 500 ms out of the others (R92). -/
def brakes (t : Ttc) (latched : Option TapeRequest) : Ttc :=
  { recordingEnds t with
    state := .braking, latched := latched, stallWatch := none, leader := none,
    brakingTimer := some (if t.state = .playing ∨ t.state = .recording then 100 else 500) }

/-- A motion entered from STOPPED: the stall watch of PLAYING and RECORDING, the decoder OFF in RECORDING and the leader
allowance with TEND active (R90, R97, R98, R102). -/
def begins (t : Ttc) (state : Transport) (direction : Direction) : Ttc :=
  let t := if state = .recording then
    { t with decoder := .off, gapTimer := none, stuckTimer := none, past800 := false } else t
  { t with state := state, direction := direction, latched := none, leader := if t.tend then some 0 else none,
           stallWatch := if state = .playing ∨ state = .recording then some 500 else none }

/-- A request carried out from STOPPED, with its event (R90, R95). -/
def carriedOut (t : Ttc) : TapeRequest → Ttc × List (Event × Half)
  | .play => (begins t .playing .forward, [])
  | .record => (begins t .recording .forward, [])
  | .wind reverse => (if reverse then begins t .windRev .reverse else begins t .windFwd .forward, [])
  | .locate target =>
    if target = t.counter then ({ t with latched := none }, [(.locateDone, t.counter)])
    else
      (begins { t with locateTarget := some target } .locating
        (if t.counter.toNat < target.toNat then .forward else .reverse), [])

/-- The request is the motion in progress (R91). -/
def inProgress : Transport → TapeRequest → Prop
  | .playing, .play | .recording, .record | .windFwd, .wind false | .windRev, .wind true => True
  | _, _ => False

/-- The directives that ask the tape to move, with their codes (R89, R90, R95). -/
def tapeRequestOf : Instr → Option (Byte × TapeRequest)
  | .tapePlay => some (0x40, .play)
  | .tapeRecord => some (0x44, .record)
  | .tapeWind direction =>
    if direction = 0 then some (0x42, .wind false) else if direction = 1 then some (0x42, .wind true) else none
  | .tapeLocate lo hi => some (0x43, .locate (hi ++ lo))
  | _ => none

/-! ### The remote (06) -/

/-- A frame has failed: the bits discarded, the error counted, and LISTEN or RESYNC entered, there with the idle timer when
the line is high (R116). -/
def frameFails (rr : Rr) (listens : Bool) : Rr :=
  { rr with receiver := if listens then .listen else .resync, lowLimit := none, frameEnd := none,
            idleTimer := if listens = false ∧ rr.rline = true then some 3 else none,
            errors := min 255 (rr.errors + 1) }

/-- The receiver stands where a frame can fail in this way (R113 to R116). -/
def canFail (rr : Rr) : FrameFailure → Bool
  | .startPulse => rr.receiver == .start
  | .bitPulse => match rr.receiver with
    | .bit _ => true
    | _ => false
  | .space => match rr.receiver with
    | .space bits => decide (bits.length < 12)
    | _ => false
  | .stuckLow => match rr.receiver with
    | .start | .bit _ => rr.lowLimit == some 0
    | _ => false
  | .length => match rr.receiver with
    | .space bits => bits.length == 12 || rr.frameEnd == some 0
    | _ => false
  | .check => match rr.receiver with
    | .space bits => bits.length == 12 && rr.frameEnd == some 0 && !frameGood bits
    | _ => false

/-- The line after a failure: a pulse ends with a rising edge, a space with a falling one, and a timer's expiry leaves the
line as it is (R113, R114). -/
def lineAfter (rr : Rr) : FrameFailure → Bool
  | .startPulse | .bitPulse => true
  | .space => false
  | .length => rr.rline && rr.receiver.bits.length != 12
  | .stuckLow | .check => rr.rline

/-- The failure is found at the frame end, with the line high for 3 ms (R116). -/
def endsInListen (rr : Rr) : FrameFailure → Bool
  | .check => true
  | .length => rr.receiver.bits.length != 12
  | _ => false

/-- The held key is gone, with its timers and the drive it started (R119, R124). -/
def keyReleased (rr : Rr) : Rr :=
  { rr with held := none, releaseTimer := none, repeatTimer := none, focus := .stopped, escapeWatch := none }

/-- A new press is held (R118). -/
def keyPressed (rr : Rr) (key : BitVec 5) (toggle consumed : Bool) : Rr :=
  { rr with held := some ⟨key, toggle, consumed⟩, lastKey := BitVec.ofNat 8 key.toNat, releaseTimer := some 250 }

/-! ### The show (09) -/

/-- The successor stands alone as entry 0, its copy to be fetched, current from the timeline instant (R186). -/
def placed (ce : Ce) (next : Nat × BranchTag) : Ce :=
  { ce with index := next.1, startInstant := ce.timelineInstant, queue := [⟨next.1, [], false, next.2⟩],
            phase := .loading }

/-- An await is resolved now, by its event or by its timeout, and the outcome remembered (R178, R183). -/
def resolved (ce : Ce) (r : List Byte) (timedOut : Bool) : Ce :=
  { ce with timelineInstant := ce.clock, dueInstant := ce.clock, timedOut := timedOut, fired := r,
            memory := remember ce.memory ce.index timedOut }

/-- The Cue Engine's read of byte 0 of a record waits at the Passage Unit or is in progress (R184, R193, R196). -/
def Fetches (s : State) (i : Nat) : Prop :=
  s.pu.ceRequest = some (0x0800 + 16 * i) ∨ s.pu.own = some ⟨.cueEngine, 0x0800 + 16 * i, none, true⟩

/-- A record without a lamp action and without an extra action (R173). -/
def recPlain (r : List Byte) : Prop := recHasLamp r = false ∧ recExtraOp r = 0

/-- The fire instant of a DELAY: its timeline instant, led by LEAD but never before its start when it changes the slide and
the lead is enabled (R172). -/
def firesAt (ce : Ce) (outTime : Nat) (r : List Byte) : Word :=
  let lead := outTime + 10 * ce.leadExtra
  if recHasSlide r = true ∧ ce.leadOn = true then
    ce.startInstant + BitVec.ofNat 32 (10 * recTime r - lead)
  else ce.startInstant + BitVec.ofNat 32 (10 * recTime r)

/-- The instant 10 × TIME after the start: the timeline instant of a DELAY, the timeout of an await (R172, R178). -/
def timeOf (ce : Ce) (r : List Byte) : Word := ce.startInstant + BitVec.ofNat 32 (10 * recTime r)

/-- A DELAY is due, with its fired copy, its timeline instant and its fire instant (R171, R172). -/
def dueAs (ce : Ce) (outTime : Nat) (r : List Byte) : Ce :=
  { ce with fired := r, timelineInstant := timeOf ce r, dueInstant := firesAt ce outTime r }

/-! #### Prediction -/

/-- The loop table after the successor step of record `i`: the step of R177 for a DELAY with REPEAT above 0, and nothing for
another record. The cases of the step are stated by `Succeeds`. -/
def tableAfter (loops : List LoopEntry) (i : Nat) (r : List Byte) : List LoopEntry :=
  if recForm r = 1 ∧ 0 < recRepeat r then (loopStep loops i (recRepeat r)).1 else loops

/-- The successor predicted for record `i` with this copy: ALT where a DELAY with REPEAT above 0 goes to ALT on this working
table, or where an await with a TIME stands as TIMEOUT in the memory, and NEXT otherwise; none after an END, after a bad
record or for an index beyond the store (R185). -/
def foretold (loops : List LoopEntry) (memory : List MemoryEntry) (i : Nat) (r : List Byte) :
    Option (Nat × BranchTag) :=
  let next :=
    if recForm r = 1 ∧ 0 < recRepeat r ∧ (loopStep loops i (recRepeat r)).2.1 = true then recAltIndex i r
    else if 2 ≤ recForm r ∧ 0 < recTime r ∧ ⟨i, true⟩ ∈ memory then recAltIndex i r
    else recNextIndex i r
  if recForm r = 0 ∨ recBad r = true ∨ 3968 ≤ next.1 then none else some next

/-- The indices and copies along the path, the fired copy for an entry 0 that is due (R185). -/
def pathOf (ce : Ce) : List (Nat × List Byte) :=
  match ce.queue with
  | [] => []
  | e :: rest =>
    (e.index, if ce.phase = .held ∨ ce.phase = .fired then ce.fired else e.copy) :: rest.map fun k => (k.index, k.copy)

/-- The successor that is predicted for the last entry, where that entry holds a usable copy and the queue has room: on the
loop table with the successor steps of the entries before it applied (R185). -/
def foreseen (ce : Ce) : Option (Nat × BranchTag) :=
  match ce.queue.getLast?, (pathOf ce).getLast? with
  | some e, some (i, r) =>
    if ce.queue.length < 4 ∧ (e.valid = true ∨ ce.queue.length = 1 ∧ (ce.phase = .held ∨ ce.phase = .fired)) then
      foretold ((pathOf ce).dropLast.foldl (fun loops k => tableAfter loops k.1 k.2) ce.loops) ce.memory i r
    else none
  | _, _ => none

/-- The engine with the predicted successor appended, its copy to be fetched (R185). -/
def foreseeing (ce : Ce) : Ce :=
  { ce with queue := ce.queue ++ ((foreseen ce).map fun n => ⟨n.1, [], false, n.2⟩).toList }

/-- The fetch of the predicted successor begins (R185). -/
def FetchesForeseen (ce : Ce) (t : State) : Prop := ∀ n, foreseen ce = some n → Fetches t n.1

/-! #### The steps of a record

Each of these says what a command does from the state `u`, in which a record's step is taken, to the state `t` after the
command. The engine and the blocks that a record's actions reach stand in `t` as the step leaves them. `frame` is the
command's own frame: it is given the further parts that change, the entries logged by the step itself, and those that follow
when other blocks take what the step hands them. -/

/-- The frame of a command: the parts that change beside its own, the entries of the step, and the entries that follow. -/
abbrev Frame := List Part → List (Event × Half) → List (Event × Half) → Prop

/-- The engine and the blocks that a record's actions reach read in `t` as in `u`. -/
def Stands (u t : State) : Prop := t.ce = u.ce ∧ t.ca = u.ca ∧ t.lc = u.lc ∧ t.ttc = u.ttc ∧ t.rcu = u.rcu

/-- The show halts for this reason, with nothing staged and nothing held (R189). -/
def haltedFor (ce : Ce) (reason : HaltReason) : Ce :=
  { ce with showState := .halted, reason := reason, queue := [], phase := .loading, fired := [] }

/-- The entry of a halt: the reason's number above the twelve bits of the current index (R189). -/
def haltEntry (ce : Ce) (number : Nat) : Event × Half := (.showHalted, halfOf (number * 4096 + ce.index % 4096))

/-- The show halts for a reason other than CUTOFF, with this number: the CUE request pending is withdrawn (R145, R189). -/
def Halts (u : State) (reason : HaltReason) (number : Nat) (frame : Frame) (t : State) : Prop :=
  (u.ca.slots.cue = none →
    Stands { u with ce := haltedFor u.ce reason } t ∧ frame [.waitCount] [haltEntry u.ce number] []) ∧
  (u.ca.slots.cue ≠ none →
    Stands { u with ce := { haltedFor u.ce reason with pendingMarker := none },
                    ca := { u.ca with slots := { u.ca.slots with cue := none } } } t ∧
    frame [.waitCount] [haltEntry u.ce number] [(.requestsDiscarded, 0x0902)])

/-- The lamp order of a cue record on the lamp of the instant: `now` for a fade to start, otherwise a return fade to store
(R43, R173). A fade that starts has its L0, the output of that instant, as its fade level at once: the model's reading
(DEDUCED, assumption log 14). -/
def lampOrdered (lc : Lc) (now : Bool) (r : List Byte) : Lc :=
  if lc.state = .lit ∧ lc.hold = .none ∧ now = true then
    Lc.recompute { lc with showLevel := recLampLevel r, stored := none, fadeLevel := lc.output,
                           fade := some ⟨lc.output, recLampLevel r, recLampCurve r, 20 * recLampTime r, 0⟩ }
  else if lc.state = .lit ∨ lc.state = .striking then
    { lc with showLevel := recLampLevel r, stored := some ⟨recLampLevel r, recLampCurve r, 20 * recLampTime r⟩ }
  else { lc with showLevel := recLampLevel r }

/-- The deck after the extra action of a record, with its events: 1 asks for play and a refusal is dropped, 2 stops, 3 sets
the sound level at once (R90 to R92, R107 to R110, R173). -/
def deckActed (t : Ttc) (r : List Byte) : Ttc × List (Event × Half) :=
  match recExtraOp r with
  | 1 =>
    if t.stopImposed then (t, [])
    else
      match t.state with
      | .stopped => carriedOut t .play
      | .braking => ({ t with latched := some .play }, [])
      | .playing => (t, [])
      | _ => (brakes t (some .play), cutBurst t)
  | 2 =>
    match t.state with
    | .stopped => (t, [])
    | .braking => ({ t with latched := none }, [])
    | _ => (brakes t none, cutBurst t)
  | 3 =>
    (if t.muteImposed then { t with setLevel := recExtraArg r }
     else { t with setLevel := recExtraArg r, level := recExtraArg r, ramp := none }, [])
  | _ => (t, [])

/-- The channels after the extra action 4, RUN_TRIGGER, of a record, where a record of the RUN source waits already or the
channel takes no trigger (R152, R173). -/
def channelsActed (u : Rcu) (r : List Byte) : Rcu :=
  let c : BitVec 2 := BitVec.ofNat 2 (recExtraArg r)
  let k := u.channels.get c
  if recExtraOp r = 4 ∧ k.mask = false ∧ k.request = false then
    { u with channels := u.channels.set c { k with
        request := true, armed := k.armed || k.demand, dwellTimer := none } }
  else u

/-- The entry of a record's lateness, none for an issue in time (R174). -/
def lateEntry (ce : Ce) : List (Event × Half) :=
  let late := min 65535 (ce.clock - ce.dueInstant).toNat
  if late = 0 then [] else [(.cueLate, halfOf late)]

/-- The engine once the actions of its due record are issued: FIRED, its deposit pending and its lateness in the late maximum
(R172 to R175). -/
def issuedOf (ce : Ce) : Ce :=
  { ce with phase := .fired, lateMax := max ce.lateMax (min 65535 (ce.clock - ce.dueInstant).toNat),
            pendingMarker := if recHasSlide ce.fired then some false else ce.pendingMarker }

/-- The state in which an issued record passes on: its slide change stands in the CUE slot with the source's level, and its
lamp action and extra action have gone to their own blocks (R130, R133, R173). -/
def issuedOn (u : State) : State :=
  let r := u.ce.fired
  { u with ce := issuedOf u.ce,
           ca := if recHasSlide r then
               { u.ca with slots := { u.ca.slots with cue := some ⟨recSlideKind r, u.ca.levels.cue⟩ } }
             else u.ca,
           lc := if recHasLamp r then lampOrdered u.lc (!recHasSlide r) r else u.lc,
           ttc := (deckActed u.ttc r).1,
           rcu := channelsActed u.rcu r }

/-- The parts that the lamp action and the extra action of a record change (R173). -/
def actedParts (r : List Byte) : List Part :=
  (if recHasLamp r then [.lamp] else []) ++
    (if recExtraOp r = 0 then [] else if recExtraOp r ≤ 3 then [.deck] else [.channels])

/-- The frame around an issue: MARK and CUE_LATE come before what the step logs, and the deck's entries before what follows
it (R173, R174). MARK before CUE_LATE is the model's reading (assumption log 24), and that the deck's entries follow is its
order between blocks (assumption log 4). -/
def issueFrame (u : State) (frame : Frame) : Frame := fun parts now after =>
  frame (actedParts u.ce.fired ++ parts)
    ((if recExtraOp u.ce.fired = 5 then [(.mark, halfOf (recExtraArg u.ce.fired))] else []) ++ lateEntry u.ce ++ now)
    ((deckActed u.ttc u.ce.fired).2 ++ after)

/-- An issue before the timeline instant of a DELAY: the record waits in FIRED for it (R172, R173). -/
def IssuesEarly (u : State) (frame : Frame) (t : State) : Prop := Stands (issuedOn u) t ∧ issueFrame u frame [] [] []

/-- A due record is HELD: nothing of it is issued (R173, R174). -/
def Holds (u : State) (frame : Frame) (t : State) : Prop :=
  Stands { u with ce := { u.ce with phase := .held } } t ∧ frame [] [] []

/-- An issue whose slide change, where it has one, goes into an empty CUE slot and stays there: the mechanism is JAMMED, or it
carries out an operation that the change does not preempt, or the source is masked and no other record is pending. A
RUN_TRIGGER deposits nothing, since a record of the RUN source is pending (R130, R135, R141, R152). -/
structure Takes (u : State) : Prop where
  slide : recHasSlide u.ce.fired = true → u.ca.slots.cue = none ∧ u.ce.pendingMarker = none ∧
    (u.tmc.state = .jammed ∧ u.ca.inService = none ∨ (∃ op, u.ca.inService = some op ∧ op.level ≤ u.ca.levels.cue) ∨
      u.ca.masks.cue = true ∧ ∀ source, u.ca.slots.get source = none)
  trigger : recExtraOp u.ce.fired = 4 → u.rcu.pendingMarker ≠ none

/-- An issue whose slide change is granted at once: the mechanism is READY and free, no record is pending, the source is not
masked, and the change is one that the mechanism moves for (R5, R135 to R137). -/
structure Grants (u : State) : Prop where
  slide : recHasSlide u.ce.fired = true
  marker : u.ce.pendingMarker = none
  slots : ∀ source, u.ca.slots.get source = none
  unmasked : u.ca.masks.cue = false
  free : u.ca.inService = none ∧ u.tmc.state = .ready ∧ u.tmc.homed = true ∧ u.tmc.n ≠ 0
  uncut : u.cu.flag = false ∨ u.cu.traySel = .ignore
  inTray : ∀ slot, recSlideKind u.ce.fired = .changeTo slot → slot ≤ u.tmc.n
  moves : ¬ (changesSlide (recSlideKind u.ce.fired) = true ∧ targetOf u.tmc (recSlideKind u.ce.fired) = u.tmc.p ∧
    u.tmc.gate = .loaded)
  trigger : recExtraOp u.ce.fired = 4 → u.rcu.pendingMarker ≠ none

/-- A record that enters WAITING rests there: the show is PAUSED, or neither its instant nor its event has come (R168, R172,
R178 to R182). -/
def Rests (u : State) (r : List Byte) : Prop :=
  u.ce.showState ≠ .running ∨
  recForm r = 1 ∧ reached u.ce.clock (firesAt u.ce u.tmc.outTime r) = false ∨
  2 ≤ recForm r ∧ (recTime r = 0 ∨ reached u.ce.clock (timeOf u.ce r) = false) ∧ (recForm r = 2 → u.ttc.fifo = []) ∧
    (recForm r = 4 → (u.rcu.channels.get (BitVec.ofNat 2 (recWaitArg r))).tc = false)

/-- Entry 0 of `u` becomes current, or its fetch ends. With its copy still to come it is LOADING. A bad record halts the show
and an END ends it. Another enters WAITING, and the prediction goes on from the last entry (R165, R171, R185, R189). There it
rests, or as a DELAY whose fire instant is past it is due at once: HELD while the CUE slot is occupied, and issued before its
timeline instant (R172 to R174). The prediction comes before such a record acts: the model's choice (assumption log 34). -/
def Enters (u : State) (frame : Frame) (t : State) : Prop :=
  ∀ e rest, u.ce.queue = e :: rest → ∀ r, r = e.copy → ∀ entered, entered = { u.ce with phase := .waiting } →
  (e.valid = false → rest = [] → Stands { u with ce := { u.ce with phase := .loading } } t ∧ frame [] [] []) ∧
  (e.valid = true → recBad r = true → Halts u .badRecord 1 frame t) ∧
  (e.valid = true → recBad r = false → recForm r = 0 →
    Stands { u with ce := { u.ce with showState := .ended, queue := [], phase := .loading, fired := [] } } t ∧
    frame [.waitCount] [(.showEnded, halfOf u.ce.index)] []) ∧
  (e.valid = true → recBad r = false → recForm r ≠ 0 → Rests u r →
    Stands { u with ce := foreseeing entered } t ∧ FetchesForeseen entered t ∧ frame [] [] []) ∧
  (e.valid = true → recBad r = false → recForm r = 1 → u.ce.showState = .running →
    reached u.ce.clock (firesAt u.ce u.tmc.outTime r) = true →
    ∀ v, v = { u with ce := dueAs (foreseeing entered) u.tmc.outTime r } →
    (recHasSlide r = true → u.ca.slots.cue ≠ none → Holds v frame t ∧ FetchesForeseen entered t) ∧
    (reached u.ce.clock (timeOf u.ce r) = false → Takes v →
      IssuesEarly v (fun parts now after => frame parts [] (now ++ after)) t ∧ FetchesForeseen entered t))

/-- The successor becomes current on `u`: beyond the store it halts the show, with nothing staged behind the record it is
placed and fetched, the staged entry 1 with its index and tag moves up, and another entry 1 is a path miss, for which the
queue is emptied, the fetch in progress abandoned and the successor placed and fetched (R176, R186, R189). The count of the
host cycles while a request waited is 0 where the withdrawal empties the own-cycle queue (R196, R197; assumption log 30). -/
def Passes (u : State) (next : Nat × BranchTag) (frame : Frame) (t : State) : Prop :=
  (3968 ≤ next.1 → Halts u .range 2 frame t) ∧
  (next.1 < 3968 → u.ce.queue.length = 1 →
    Stands { u with ce := placed u.ce next } t ∧ Fetches t next.1 ∧ frame [] [] []) ∧
  (next.1 < 3968 → ∀ first e rest, u.ce.queue = first :: e :: rest →
    (e.index ≠ next.1 ∨ e.tag ≠ next.2 →
      Stands { u with ce := placed { u.ce with pathMiss := min 65535 (u.ce.pathMiss + 1) } next } t ∧ Fetches t next.1 ∧
      t.pu.waitCount = (if u.pu.readQueued = true ∧ u.pu.writeQueued = false then 0 else u.pu.waitCount) ∧
      frame [.waitCount] [(.pathMiss, halfOf next.1)] []) ∧
    (e.index = next.1 → e.tag = next.2 →
      Enters { u with ce := { u.ce with index := next.1, startInstant := u.ce.timelineInstant, queue := e :: rest,
                                        phase := .loading, fired := [] } } frame t))

/-- The successor step of the fired copy: an await goes to ALT by its timeout and to NEXT by its event, a DELAY to NEXT, or
with REPEAT above 0 as the loop table says, which takes an entry, counts it down or gives it up, and when full logs
LOOP_TABLE_FULL (R176, R177). -/
def Succeeds (u : State) (frame : Frame) (t : State) : Prop :=
  ∀ i, i = u.ce.index → ∀ n, n = recRepeat u.ce.fired → ∀ next, next = recNextIndex i u.ce.fired →
  ∀ alt, alt = recAltIndex i u.ce.fired →
  (2 ≤ recForm u.ce.fired → Passes u (if u.ce.timedOut then alt else next) frame t) ∧
  (recForm u.ce.fired = 1 → n = 0 → Passes u next frame t) ∧
  (recForm u.ce.fired = 1 → 0 < n → (∀ e ∈ u.ce.loops, e.index ≠ i) →
    (u.ce.loops.length < 4 →
      Passes { u with ce := { u.ce with loops := u.ce.loops ++ [⟨i, n - 1⟩] } } alt frame t) ∧
    (4 ≤ u.ce.loops.length →
      Passes u next (fun parts now after => frame parts ((.loopTableFull, halfOf i) :: now) after) t)) ∧
  (recForm u.ce.fired = 1 → 0 < n → ∀ before left after, u.ce.loops = before ++ ⟨i, left⟩ :: after →
    (∀ e ∈ before ++ after, e.index ≠ i) →
    (0 < left → Passes { u with ce := { u.ce with loops := before ++ ⟨i, left - 1⟩ :: after } } alt frame t) ∧
    (left = 0 → Passes { u with ce := { u.ce with loops := before ++ after } } next frame t))

/-- All the actions of the due record of `u` are issued, which leaves `v`. A DELAY before its timeline instant waits for it in
FIRED, and an await, or a DELAY at or after that instant, takes its successor step at once (R172 to R174, R176, R178). -/
def Issues (u v : State) (frame : Frame) (t : State) : Prop :=
  (recForm u.ce.fired = 1 → reached u.ce.clock u.ce.timelineInstant = false →
    Stands v t ∧ issueFrame u frame [] [] []) ∧
  (2 ≤ recForm u.ce.fired ∨ recForm u.ce.fired = 1 ∧ reached u.ce.clock u.ce.timelineInstant = true →
    Succeeds v (issueFrame u frame) t)

/-- The record of `u` is due, or is offered again: HELD while the CUE slot is occupied, and issued where its deposit is taken.
A change that is granted at once leaves the slot empty and is the operation in service, with the in-service marker (R136, R173
to R175). -/
def ComesDue (u : State) (frame : Frame) (t : State) : Prop :=
  (recHasSlide u.ce.fired = true → u.ca.slots.cue ≠ none → Holds u frame t) ∧
  (Takes u → Issues u (issuedOn u) frame t) ∧
  (Grants u → ∀ op, op = (⟨recSlideKind u.ce.fired, .cue, u.ca.levels.cue⟩ : Operation) →
    t.tmc.op = some op ∧ t.tmc.target = some (targetOf u.tmc op.kind) ∧
    Issues u { issuedOn u with
        tmc := t.tmc, lc := t.lc, ca := { u.ca with inService := some op },
        ce := { issuedOf u.ce with pendingMarker := none, serviceMarker := some false } }
      (fun parts now after => frame (.mechanism :: .lamp :: parts) now after) t)

/-- An await is resolved by its event or by its timeout, and is due (R178, R183). -/
def Resolves (u : State) (r : List Byte) (timedOut : Bool) (frame : Frame) (t : State) : Prop :=
  ComesDue { u with ce := resolved u.ce r timedOut } frame t

/-- The CUE_MISMATCH entries of the cues that an AWAIT_TAPE discards (R179). -/
def mismatches (r : List Byte) (cues : List CueEntry) : List (Event × Half) :=
  cues.map fun k => (.cueMismatch, argPair (recWaitArg r) k.cls.number)

/-- An AWAIT_TAPE looks at the FIFO of `u`: it discards the cues of other classes from the head on, and takes the first of its
own class, which resolves it (R179). -/
def LooksAt (u : State) (r : List Byte) (frame : Frame) (t : State) : Prop :=
  ((∀ k ∈ u.ttc.fifo, k.cls.number ≠ recWaitArg r) →
    Stands { u with ttc := { u.ttc with fifo := [] } } t ∧ frame [.deck] (mismatches r u.ttc.fifo) []) ∧
  (∀ before k after, u.ttc.fifo = before ++ k :: after → (∀ e ∈ before, e.cls.number ≠ recWaitArg r) →
    k.cls.number = recWaitArg r →
    Resolves { u with ttc := { u.ttc with fifo := after } } r false
      (fun parts now later => frame (.deck :: parts) (mismatches r before ++ now) later) t)

/-- The frame of a command that answers no directive: these parts of its own, with the engine and the arbiter, and these
entries before those of the step. -/
def stepFrame (own : List Part) (events : List (Event × Half)) (s t : State) : Frame := fun parts now after =>
  Effect (.engine :: .arbiter :: own ++ parts) (events ++ now ++ after) s t

/-- The frame of a directive of the show that is answered DONE. -/
def answerFrame (code : Byte) (own : List Part) (events : List (Event × Half)) (s t : State) : Frame :=
  fun parts now after => Answered code .done (.engine :: .arbiter :: own ++ parts) (events ++ now ++ after) s t

/-! ### The bus and the directive stream (10, 11) -/

/-- The code of a row of the directive code table, but for PART_RESET, which is answered in its own way (10, section 10.6;
R209). -/
def directiveCode : Instr → Option Byte
  | .remoteSetup _ _ => some 0x02
  | .home => some 0x10
  | .gotoSlot _ => some 0x11
  | .moveBy _ => some 0x12
  | .clearGate => some 0x13
  | .changeProfile _ _ _ => some 0x14
  | .lampOn => some 0x20
  | .lampOff => some 0x21
  | .lampFade _ _ _ _ => some 0x22
  | .lampCeiling _ _ => some 0x23
  | .lampSpare _ => some 0x24
  | .heatProfile _ _ _ _ _ => some 0x25
  | .fanProfile _ _ => some 0x30
  | .cutoffSelect _ _ => some 0x38
  | .cutoffEnable _ => some 0x39
  | .cutoffForce => some 0x3A
  | .cutoffClear => some 0x3B
  | .tapePlay => some 0x40
  | .tapeStop => some 0x41
  | .tapeWind _ => some 0x42
  | .tapeLocate _ _ => some 0x43
  | .tapeRecord => some 0x44
  | .tapeZero => some 0x45
  | .cueWrite _ => some 0x46
  | .cueRoute _ _ => some 0x47
  | .audioLevel _ _ => some 0x48
  | .arbLevels _ _ => some 0x50
  | .arbMask _ => some 0x51
  | .runLoad _ _ _ _ _ => some 0x60
  | .runMask _ _ => some 0x61
  | .runTrigger _ => some 0x62
  | .runClearAll => some 0x63
  | .runOrder _ => some 0x64
  | .showStart _ _ => some 0x70
  | .showPause => some 0x71
  | .showResume => some 0x72
  | .showStop => some 0x73
  | .cueGo => some 0x74
  | .showLead _ _ => some 0x75
  | _ => none

/-- The row that a directive code and its operand bytes, in the order of the code table, stand for, but for PART_RESET, which
is answered in its own way (10, section 10.6; R209). -/
def rowOf (code : Byte) (operands : List Byte) : Option Instr :=
  match code.toNat, operands with
  | 0x02, [unit, enable] => some (.remoteSetup unit enable)
  | 0x10, [] => some .home
  | 0x11, [slot] => some (.gotoSlot slot)
  | 0x12, [step] => some (.moveBy step)
  | 0x13, [] => some .clearGate
  | 0x14, [outTime, inTime, blackout] => some (.changeProfile outTime inTime blackout)
  | 0x20, [] => some .lampOn
  | 0x21, [] => some .lampOff
  | 0x22, [levelLo, levelHi, curve, time] => some (.lampFade levelLo levelHi curve time)
  | 0x23, [levelLo, levelHi] => some (.lampCeiling levelLo levelHi)
  | 0x24, [lamps] => some (.lampSpare lamps)
  | 0x25, [lampGain, fanGain, ds, oh, rm] => some (.heatProfile lampGain fanGain ds oh rm)
  | 0x30, [minimum, coolDone] => some (.fanProfile minimum coolDone)
  | 0x38, [selection0, selection1] => some (.cutoffSelect selection0 selection1)
  | 0x39, [causes] => some (.cutoffEnable causes)
  | 0x3A, [] => some .cutoffForce
  | 0x3B, [] => some .cutoffClear
  | 0x40, [] => some .tapePlay
  | 0x41, [] => some .tapeStop
  | 0x42, [direction] => some (.tapeWind direction)
  | 0x43, [targetLo, targetHi] => some (.tapeLocate targetLo targetHi)
  | 0x44, [] => some .tapeRecord
  | 0x45, [] => some .tapeZero
  | 0x46, [cueClass] => some (.cueWrite cueClass)
  | 0x47, [mode, markChannel] => some (.cueRoute mode markChannel)
  | 0x48, [level, ramp] => some (.audioLevel level ramp)
  | 0x50, [level0, level1] => some (.arbLevels level0 level1)
  | 0x51, [sources] => some (.arbMask sources)
  | 0x60, [channel, baseSlot, baseCount, mode, dwell] => some (.runLoad channel baseSlot baseCount mode dwell)
  | 0x61, [select, values] => some (.runMask select values)
  | 0x62, [channel] => some (.runTrigger channel)
  | 0x63, [] => some .runClearAll
  | 0x64, [order] => some (.runOrder order)
  | 0x70, [indexLo, indexHi] => some (.showStart indexLo indexHi)
  | 0x71, [] => some .showPause
  | 0x72, [] => some .showResume
  | 0x73, [] => some .showStop
  | 0x74, [] => some .cueGo
  | 0x75, [enable, extra] => some (.showLead enable extra)
  | _, _ => none

/-- A host cycle runs at once: no own cycle is in progress and the hold limit is not reached (R192, R197). -/
def BusFree (s : State) : Prop :=
  s.notices = [] ∧ s.pu.own = none ∧ (s.pu.waitCount < 8 ∨ s.pu.waiting = false)

/-- The own cycle that holds a host cycle at its start, with the passage once it runs: the one in progress, or at the hold
limit one for the head of the queue, the Cue Engine's read first (R192, R196, R197). -/
def HeldFor (pu : Pu) (c : OwnCycle) (running : Pu) : Prop :=
  running.own = some c ∧
    (running = pu ∨
      pu.own = none ∧ pu.waitCount = 8 ∧ pu.inReset = false ∧
        ((∃ offset, pu.ceRequest = some offset ∧ c = ⟨.cueEngine, offset, none, true⟩ ∧
            running = { pu with ceRequest := none, own := some c }) ∨
          pu.ceRequest = none ∧ ∃ w, pu.rwRequest = some w ∧ c = ⟨.reportWriter, w.offset, some w.data, true⟩ ∧
            running = { pu with rwRequest := none, own := some c }))

/-- The RAM after this own cycle: a write has put its byte there and a read nothing (R196). -/
def OwnServed (c : OwnCycle) (s u : State) : Prop :=
  ∀ k, Memory.read u.mem k = match c.data with
    | some d => if k = (s.pu.base + BitVec.ofNat 20 c.offset).toNat then d else Memory.read s.mem k
    | none => Memory.read s.mem k

/-- A host write has put its byte in the RAM and nothing else there, without a held start (R192). -/
def HostWrote (a : Address) (b : Byte) (gap : Bool) (s t : State) : Prop :=
  (∀ k, Memory.read t.mem k = if k = a.toNat then b else Memory.read s.mem k) ∧ t.pu.held = false ∧
    t.pu.hostBusy = !gap ∧ t.pu.base = s.pu.base ∧ t.pu.inReset = s.pu.inReset ∧ t.pu.hostData = s.pu.hostData

/-- A host write to a window offset, beside the parts it changes there: the RAM byte, and the wait count where a request
waits (R192 to R194, R197). -/
def WroteAt (offset : Nat) (b : Byte) (gap : Bool) (changed : List Part) (events : List (Event × Half)) (s t : State) :
    Prop :=
  HostWrote (s.pu.base + BitVec.ofNat 20 offset) b gap s t ∧
    t.pu.waitCount = (if s.pu.waiting then min 8 (s.pu.waitCount + 1) else s.pu.waitCount) ∧
    Effect (.ram :: .window :: .waitCount :: changed) events s t

/-- The state that the blocks see once a host write that is not held has run on the RAM: the byte stands there, and the
cycle has counted where a request waits (R192, R194, R197). -/
def written (offset : Nat) (b : Byte) (gap : Bool) (s : State) : State :=
  { s with mem := Memory.write s.mem (s.pu.base + BitVec.ofNat 20 offset).toNat b,
           pu := { s.pu with held := false, hostBusy := !gap,
                             waitCount := if s.pu.waiting then min 8 (s.pu.waitCount + 1) else s.pu.waitCount } }

/-- A host write to a staged record has restarted or invalidated a copy, with these entries taken out behind it: the withdrawal
of their fetch sets the wait count to 0 where it empties the own-cycle queue (R187, R188, R196, R197; assumption log 30). -/
def EditedAt (offset : Nat) (b : Byte) (gap : Bool) (removed : List StagedEntry) (events : List (Event × Half))
    (s t : State) : Prop :=
  HostWrote (s.pu.base + BitVec.ofNat 20 offset) b gap s t ∧
    t.pu.waitCount = (if removed ≠ [] ∧ s.pu.ceRequest ≠ none ∧ s.pu.rwRequest = none then 0
      else (written offset b gap s).pu.waitCount) ∧
    Effect [.ram, .window, .waitCount, .engine] events s t

/-- The Report Writer's write of this byte waits at the Passage Unit or is in progress (R196, R212). -/
def Writes (s : State) (w : WriteRequest) : Prop :=
  s.pu.rwRequest = some w ∨ s.pu.own = some ⟨.reportWriter, w.offset, some w.data, true⟩

/-- An idle Report Writer has chosen line `n`: the first in cyclic order after the line last written that was dirty or has
become so (`fresh`). Its write starts with the next guard count, the snapshot of its fields and the byte writes of R212, of
which the first is asked of the PU (R211, R212). -/
def LineChosen (fresh : Nat → Prop) (n : Nat) (s t : State) : Prop :=
  ∀ l, l = s.rw.lines.getD n LineRecord.reset → ∀ data, data = t.lineData n →
    n ≤ 10 ∧ (fresh n ∨ l.dirty = true) ∧
    (∀ k, k < (n + 10 - s.rw.lastLine) % 11 → ∀ m, m = (s.rw.lastLine + 1 + k) % 11 →
      ¬ fresh m ∧ (s.rw.lines.getD m LineRecord.reset).dirty = false) ∧
    t.rw.lastLine = n ∧ t.rw.entryNext = true ∧
    t.rw.lines.getD n LineRecord.reset = { l with dirty := false, guard := l.guard + 1 } ∧
    ∃ j, t.rw.job = some j ∧ j.kind = .line n data ∧
      j.todo = (if l.full then [⟨0x010F + 16 * n, ~~~(l.guard + 1)⟩] else []) ++ [⟨0x0100 + 16 * n, l.guard + 1⟩] ++
        ((List.range 14).filter fun k => l.full || l.image.getD k 0 != data.getD k 0).map
          (fun k => ⟨0x0101 + 16 * n + k, data.getD k 0⟩) ++ [⟨0x010F + 16 * n, l.guard + 1⟩] ∧
      ∀ w, j.todo.head? = some w → Writes t w

/-! ### The part reset (11; R209) -/

/-- OVERHEAT after PRST: the kept H against the default thresholds, keeping its value between them (R55, R58). -/
def hotAfterPrst (s : State) : Bool :=
  if 28160 ≤ s.lc.h then true else if s.lc.h < 19968 then false else s.lc.overheat

/-- The derate limit of the kept H against the default thresholds (R54, R58). -/
def derateAfterPrst (s : State) : Nat :=
  if s.lc.h ≤ 19968 then 1023 else 1023 - (min s.lc.h 28159 - 19968) * 767 / 8192

/-- The numbers of the level causes present after PRST: OVERHEAT, THERMOSTAT, INTERLOCK and TRAY_LOST (R72, R88). -/
def causesAfterPrst (s : State) : List Nat :=
  (if hotAfterPrst s then [0] else []) ++ (if s.cu.thswRaw then [1] else []) ++ (if s.cu.ilockRaw then [2] else []) ++
    (if s.tmc.tcode = 3 then [3] else [])

/-- Cutoff is entered again at PRST (R88). -/
def cutAfterPrst (s : State) : Bool := !(causesAfterPrst s).isEmpty

/-- The demand computed at PRST, before cutoff may raise it (R62, R71). -/
def demandAfterPrst (s : State) : Nat :=
  if s.lc.state = .exchange ∨ 3072 < s.lc.h then 96 + 159 * min s.lc.h 19968 / 19968 else 0

/-- The entries handed over at PRST after PART_RESET itself (R30, R58, R75, R76, R88, R215). Between blocks their order is
the model's (assumption log 4). -/
def eventsAfterPrst (s : State) : List (Event × Half) :=
  (if s.tmc.tcode = 3 then [(.trayCodeBad, 3)] else []) ++
  (if s.lc.derate = 1023 ∧ derateAfterPrst s ≠ 1023 then [(.derateBegin, halfOf s.lc.h)]
   else if s.lc.derate ≠ 1023 ∧ derateAfterPrst s = 1023 then [(.derateEnd, halfOf s.lc.h)] else []) ++
  match causesAfterPrst s with
  | [] => []
  | c :: rest => (.cutoffEnter, halfOf c) :: rest.map fun k => (.cutoffCauseAdded, halfOf k)

/-- Every block of `t` but the PU and the RW stands as PRST leaves it from `s`, with the impositions of a cutoff entered
again, and the directive answered (R30, R58, R71, R88, R112, R128, R147, R163, R191, R209). -/
structure AfterPrst (s t : State) : Prop where
  decoder : t.dd = ⟨false, 0, [], 0, 0, 1, 0, 1⟩
  engine : t.ce = Ce.reset
  arbiter : t.ca = Ca.reset
  channels : t.rcu = Rcu.reset
  mechanism : t.tmc = { Tmc.reset with
    tcode := s.tmc.tcode, sensors := s.tmc.sensors,
    state := if s.tmc.tcode = 1 ∨ s.tmc.tcode = 2 then .unhomed else .noTray,
    n := if s.tmc.tcode = 1 then 80 else if s.tmc.tcode = 2 then 120 else 0, homed := false, display := 0xFFF,
    gate := if s.tmc.sensors.gslide then .loaded else .empty, lifter := false, op := none,
    motor := if cutAfterPrst s then .braked else .unpowered,
    imposition := if cutAfterPrst s then some .brake else none, outTime := 150, inTime := 200, blackout := 16 }
  lamp : t.lc = { s.lc with
    state := if s.lc.state = .exchange then .exchange
      else if s.lc.goodA = true ∨ s.lc.goodB = true then .off else .failed,
    restrike := false, output := 0, fade := none, stored := none, strike := none, failureWatch := none, hold := .none,
    holdLevel := none, report := false, heldRelease := none, capLevel := 0, capLingers := false,
    imposition := if cutAfterPrst s then .off else .none, showLevel := 900, ceiling := 1023,
    derate := derateAfterPrst s, overheat := hotAfterPrst s, lampGain := 32, fanGain := 8, derateStart := 19968,
    overheatLevel := 28160, restrikeMax := 8192 }
  fan : t.fc = { s.fc with
    state := if cutAfterPrst s = true ∨ demandAfterPrst s ≠ 0 then .spinup else .stopped,
    demand := if cutAfterPrst s then 255 else demandAfterPrst s,
    grace := if cutAfterPrst s = true ∨ demandAfterPrst s ≠ 0 then 4 else 0, stallWindows := 0, pulses := 0,
    minimum := 96, coolDone := 3072, full := cutAfterPrst s }
  cutoff : t.cu = { Cu.reset with
    flag := cutAfterPrst s, causes := BitVec.ofNat 8 ((causesAfterPrst s).map (2 ^ ·)).sum,
    enables := 0xFF, lampSel := .off, traySel := .brake, tapeIgnore := false, audioIgnore := false, fanIgnore := false,
    overheat := hotAfterPrst s, thermostat := s.cu.thswRaw, interlock := s.cu.ilockRaw, trayLost := s.tmc.tcode == 3,
    lampHanded := if cutAfterPrst s then .off else .none, thswRaw := s.cu.thswRaw, ilockRaw := s.cu.ilockRaw,
    thswTimer := none, ilockTimer := none }
  deck : t.ttc = { Ttc.reset with
    tend := s.ttc.tend, cuein := s.ttc.cuein, counter := s.ttc.counter, state := .stopped, writer := .idle,
    decoder := if s.ttc.cuein then .resync else .quiet, fifo := [], route := .toShow, markChannel := none,
    setLevel := 192, level := 192, ramp := if cutAfterPrst s then some ⟨192, 0, 100, 0, 0⟩ else none,
    stopImposed := cutAfterPrst s, muteImposed := cutAfterPrst s }
  remote : t.rr = { Rr.reset with
    rline := s.rr.rline, flim := s.rr.flim, keyMap := s.rr.keyMap, receiver := .resync,
    idleTimer := if s.rr.rline then some 3 else none, unit := 0, enabled := true, held := none, lastKey := 0xFF,
    errors := 0, focus := .stopped }

/-- The Report Writer at PRST, before it chooses its next write: every line dirty and to be written in full, the ring
empty, PART_RESET its first entry and the uptime kept (R215). -/
def reportsAfterPrst (s : State) : Rw :=
  { s.rw with writeIndex := 0, readIndex := 0, dropped := 0, lastLine := 10, entryNext := false, job := none,
              lines := s.rw.lines.map fun l => { l with dirty := true, full := true },
              buffer := ⟨.partReset, 0, s.rw.uptime⟩ :: (eventsAfterPrst s).map fun e => ⟨e.1, e.2, s.rw.uptime⟩ }

end Sys2Proof.Safety
end

