-- ==== Sys2Proof/Certificates/Slice0/Obligations.lean ====
section
/-! DEFINITION. The statements about the part, chapter by chapter: what each command does, what it leaves unchanged, and
what every step keeps. -/

section

open Sys2Proof Sys2Proof.Machine Sys2Proof.Safety

/-! ## The slide change mechanism (01) -/

/-- The tray code sets the tray size, and its changes insert and lose the tray (R1, R18, R19). The loss of a tray that
is not standing READY at position 0 with an empty gate raises TRAY_LOST (R72). An event to the level that stands
changes nothing: the model's reading (assumption log 19). A JAMMED mechanism stays JAMMED at an insertion, as R18 says
and R19 does not: the model's choice (assumption log 35). -/
def Obligations.TrayCodeChange : Prop :=
  ∀ (code : BitVec 2) (s : State), s.notices = [] → s.cu.trayLost = s.tmc.trayLost →
    ∃ t, exec (.trayCodeChange code) s = .next t ∧ t.tmc.tcode = code ∧
      (code = s.tmc.tcode → t.tmc = s.tmc ∧ Effect [] [] s t) ∧
      ((s.tmc.tcode = 0 ∨ s.tmc.tcode = 3) → (code = 1 ∨ code = 2) →
        t.tmc = { s.tmc with tcode := code, n := if code = 1 then 80 else 120, homed := false, display := 0xFFF,
                             gate := if s.tmc.sensors.gslide then .loaded else .empty, uncleanLoss := false,
                             state := if s.tmc.state = .jammed then .jammed else .unhomed } ∧
        t.cu = { s.cu with trayLost := false } ∧
        Effect [.mechanism, .cutoff] [(.trayInserted, if code = 1 then 80 else 120)] s t) ∧
      ((s.tmc.tcode = 1 ∨ s.tmc.tcode = 2) → code = 0 → s.tmc.state = .ready → s.tmc.p = 0 → s.tmc.gate = .empty →
        s.tmc.op = none → s.tmc.uncleanLoss = false →
        t.tmc.state = .noTray ∧ t.tmc.n = 0 ∧ t.tmc.homed = false ∧ t.tmc.lifter = false ∧ t.tmc.motor = s.tmc.rest ∧
        t.cu = { s.cu with trayLost := false } ∧ Effect [.mechanism, .cutoff] [(.trayRemoved, 0)] s t) ∧
      ((s.tmc.tcode = 1 ∨ s.tmc.tcode = 2) → (code = 0 ∨ code = 3) →
        ¬ (s.tmc.state = .ready ∧ s.tmc.p = 0 ∧ s.tmc.gate = .empty) →
        t.tmc.n = 0 ∧ t.tmc.homed = false ∧ t.tmc.display = 0xFFF ∧ t.tmc.op = none ∧ t.tmc.uncleanLoss = true ∧
        t.cu.trayLost = true ∧
        (s.cu.enabled .trayLost = true → s.cu.trayLost = false →
          t.cu.flag = true ∧ t.cu.inSet .trayLost = true ∧ t.tmc.state = .noTray))

/-- DARKEN ends at the blackout report with the next planned phase (R5, R7): LIFT from a LOADED gate, which an LTOP
already active ends at once, and from an EMPTY gate TURN in the shorter direction, DROP at the target, which a GSEAT
already active ends at once, or for a HOME the homing turn (R8 to R10, R14). An operation without a DROP ends there: a
CLEAR_GATE with the lifter drive as it stands and a change to 0 with CHANGE_DONE, a HOME that finds THOME active with
HOMED, and none releases the blackout hold (R12, R14, R28). The darken limit's expiry logs DARKEN_LATE and snaps the
lamp to the blackout level, which reports (R7, R48). That the end of a change to 0, or of such a HOME, removes a drive
that a CLEAR_GATE left is the model's choice (assumption log 37). The argument of CHANGE_DONE carries 0xFF for the
position while not homed (assumption log 18). An expiry whose time has not come changes nothing: the model's reading
(assumption log 5). A report that was not sent changes nothing (assumption log 16). -/
def Obligations.DarkenEnds : Prop :=
  ∀ s : State, s.notices = [] →
    (∃ t, exec .blackoutReport s = .next t ∧
      (s.lc.report = false → Effect [] [] s t) ∧
      (s.lc.report = true →
        (s.tmc.state ≠ .darken → t.lc = { s.lc with report := false } ∧ Effect [.lamp] [] s t) ∧
        (s.tmc.state = .darken → s.tmc.gate = .loaded → s.tmc.sensors.ltop = false →
          t.tmc = { s.tmc with state := .lift, lifter := true, darkenLimit := none, liftTimer := some 400,
                               lowerTimer := none, dropTimer := none } ∧
          t.lc = { s.lc with report := false } ∧ Effect [.mechanism, .lamp] [] s t) ∧
        (s.tmc.state = .darken → s.tmc.gate = .loaded → s.tmc.sensors.ltop = true →
          Proceeds { s with lc := { s.lc with report := false }
                            tmc := { s.tmc with state := .lift, lifter := true, darkenLimit := none, liftTimer := none,
                                                lowerTimer := none, dropTimer := none, gate := .empty } } [.lamp] s t) ∧
        (s.tmc.state = .darken → s.tmc.gate = .empty →
          Proceeds { s with lc := { s.lc with report := false }, tmc := { s.tmc with darkenLimit := none } }
            [.lamp] s t))) ∧
    (∃ t, exec .darkenLate s = .next t ∧
      (¬ (s.tmc.state = .darken ∧ s.tmc.darkenLimit = some 0) → Effect [] [] s t) ∧
      (s.tmc.state = .darken → s.tmc.darkenLimit = some 0 →
        t.tmc = { s.tmc with darkenLimit := none } ∧
        (s.lc.hold ≠ .none → t.lc.hold = .held ∧ t.lc.report = true) ∧
        (∀ b, s.lc.holdLevel = some b → s.lc.hold = .darkening →
          t.lc.fade = none ∧ t.lc.fadeLevel = b ∧ t.lc.output ≤ b) ∧
        Effect [.mechanism, .lamp] [(.darkenLate, argPair s.tmc.reportedSource s.tmc.reportedTarget)] s t))

/-- LIFT ends when LTOP is sensed with the lifter driven, or is active when it is driven again, and the operation goes
on from the EMPTY gate: TURN, DROP at the target, which a GSEAT already active ends at once, the homing turn of a HOME,
or the end without a DROP, at which a CLEAR_GATE leaves the lifter driven (R5, R8 to R10, R12, R14, R28). The first
timeout lowers the lifter for 150 ms and lifts again (R8). A second timeout is a jam: Obligations.MechanismJams. The
argument of LIFT_RETRY and of CHANGE_DONE carries 0xFF for the position while not homed, for CHANGE_DONE by the model's
reading (assumption log 18). An expiry whose time has not come changes nothing: the model's reading (assumption log 5).
-/
def Obligations.LiftPhase : Prop :=
  ∀ s : State, s.notices = [] →
    (∃ t, exec .ltopActive s = .next t ∧
      (¬ (s.tmc.state = .lift ∧ s.tmc.lifter = true) →
        t.tmc = { s.tmc with sensors := { s.tmc.sensors with ltop := true } } ∧ Effect [.mechanism] [] s t) ∧
      (s.tmc.state = .lift → s.tmc.lifter = true →
        Proceeds { s with tmc := { s.tmc with sensors := { s.tmc.sensors with ltop := true }, liftTimer := none,
                                              lowerTimer := none, gate := .empty } } [] s t)) ∧
    (∃ t, exec .liftTimerExpiry s = .next t ∧
      (¬ (s.tmc.state = .lift ∧ s.tmc.liftTimer = some 0) → Effect [] [] s t) ∧
      (s.tmc.state = .lift → s.tmc.liftTimer = some 0 → s.tmc.liftRetried = false →
        t.tmc = { s.tmc with liftRetried := true, liftRetryCount := min 255 (s.tmc.liftRetryCount + 1), lifter := false,
                             liftTimer := none, lowerTimer := some 150 } ∧
        Effect [.mechanism] [(.liftRetry, if s.tmc.homed then halfOf s.tmc.p else 0xFF)] s t)) ∧
    (∃ t, exec .liftLoweringEnd s = .next t ∧
      (¬ (s.tmc.state = .lift ∧ s.tmc.lowerTimer = some 0) → Effect [] [] s t) ∧
      (s.tmc.state = .lift → s.tmc.lowerTimer = some 0 → s.tmc.sensors.ltop = false →
        t.tmc = { s.tmc with lifter := true, lowerTimer := none, dropTimer := none, liftTimer := some 400 } ∧
        Effect [.mechanism] [] s t) ∧
      (s.tmc.state = .lift → s.tmc.lowerTimer = some 0 → s.tmc.sensors.ltop = true →
        Proceeds { s with tmc := { s.tmc with lifter := true, lowerTimer := none, dropTimer := none, liftTimer := none,
                                              gate := .empty } } [] s t))

/-- The mechanism jams on a second lift timeout, on a position timer's expiry, on a second seat failure and at the
limit of a homing turn: not homed, no drive, the operation over, and TRAY_JAM raised (R8, R9, R10, R13, R15). An
expiry whose time has not come changes nothing: the model's reading (assumption log 5). -/
def Obligations.MechanismJams : Prop :=
  (∀ (c : Instr) (s : State), s.notices = [] →
    (c = .liftTimerExpiry ∧ s.tmc.state = .lift ∧ s.tmc.liftTimer = some 0 ∧ s.tmc.liftRetried = true ∨
     c = .positionTimerExpiry ∧ s.tmc.state = .turn ∧ s.tmc.positionTimer = some 0 ∨
     c = .dropTimerExpiry true ∧ s.tmc.state = .drop ∧ s.tmc.dropTimer = some 0 ∧ s.tmc.seatRetried = true ∨
     c = .arrival false ∧ s.tmc.state = .turn ∧ s.tmc.motor = .forward ∧ s.tmc.homing = true ∧
       s.tmc.arrivals + 1 = s.tmc.n + 2) →
    ∃ t, exec c s = .next t ∧ t.tmc.state = .jammed ∧ t.tmc.homed = false ∧ t.tmc.display = 0xFFF ∧
      t.tmc.lifter = false ∧ (t.tmc.motor = .unpowered ∨ t.tmc.motor = .braked) ∧ t.tmc.op = none ∧
      t.tmc.positionTimer = none ∧ t.tmc.liftTimer = none ∧ t.tmc.dropTimer = none ∧
      (s.cu.enabled .trayJam = true → t.cu.flag = true ∧ t.cu.inSet .trayJam = true)) ∧
  (∀ s : State, s.notices = [] → ¬ (s.tmc.state = .turn ∧ s.tmc.positionTimer = some 0) →
    ∃ t, exec .positionTimerExpiry s = .next t ∧ Effect [] [] s t)

/-- An arrival in a counting turn steps the position and the display on the ring, ends the turn at the target, with
DROP, which a GSEAT already active ends at once, or at target 0 with the end of the operation, and corrects a slip that
THOME shows (R2, R9, R10, R12, R16, R17, R21, R28); a pulse with the motor not driven is ignored. A preemption recorded
in TURN is acted on at the arrival, after counting and the slip check: a change ends its turn at its target or turns the
shorter way from here, a CLEAR_GATE ends with the lifter left driven, and a HOME turns to its homing turn or ends with
THOME active (R12, R14, R23). A slip that makes the turn a homing turn homes first and then goes on with the recorded
operation: the model's reading (assumption log 17). A homing turn looks for THOME at each arrival; the HOME ends READY
and homed at position 0, and a turn that had become a homing turn goes on toward its own target, or ends (R14, R15,
R17). The position is stepped only while homed (assumption log 17). -/
def Obligations.TurnArrivals : Prop :=
  (∀ (thome : Bool) (s : State), s.notices = [] →
     ∃ t, exec (.arrival thome) s = .next t ∧
       (¬ (s.tmc.state = .turn ∧ (s.tmc.motor = .forward ∨ s.tmc.motor = .reverse)) →
         t.tmc = { s.tmc with sensors := { s.tmc.sensors with thome := thome } } ∧ Effect [.mechanism] [] s t) ∧
       (∀ p, p = ringStep s.tmc.motor s.tmc.p s.tmc.n → ∀ g, s.tmc.target = some g → s.tmc.state = .turn →
         Mechanism s.tmc → s.tmc.homing = false → s.tmc.redirect = false → g ≤ s.tmc.n →
         (thome = false → p ≠ 0 → p ≠ g →
           t.tmc = { s.tmc with sensors := { s.tmc.sensors with thome := false }, p := p, display := bcd p,
                                positionTimer := some 250 } ∧ Effect [.mechanism] [] s t) ∧
         (thome = false → p ≠ 0 → p = g →
           t.tmc = dropping { s.tmc with sensors := { s.tmc.sensors with thome := false }, p := p, display := bcd p } ∧
           Effect [.mechanism] [] s t) ∧
         (thome = true → p = 0 → g ≠ 0 →
           t.tmc = { s.tmc with sensors := { s.tmc.sensors with thome := true }, p := 0, display := 0,
                                positionTimer := some 250 } ∧ Effect [.mechanism] [] s t) ∧
         (thome = true → g = 0 → ∀ op, s.tmc.op = some op →
           EndsAs op { s.tmc with sensors := { s.tmc.sensors with thome := true }, p := 0, display := 0, state := .ready,
                                  motor := .unpowered, lifter := false, positionTimer := none } s.lc []
             ((if p = 0 then [] else [(.positionSlip, halfOf p)]) ++ [(.changeDone, argPair op.source.number 0)]) s t) ∧
         (thome = true → p ≠ 0 → g ≠ 0 →
           t.tmc = { s.tmc with sensors := { s.tmc.sensors with thome := true }, p := 0, display := 0,
                                positionTimer := some 250, motor := shorterWay 0 g s.tmc.n } ∧
           Effect [.mechanism] [(.positionSlip, halfOf p)] s t) ∧
         (thome = false → p = 0 →
           t.tmc = { s.tmc with sensors := { s.tmc.sensors with thome := false }, p := 0, homed := false,
                                display := 0xFFF, homing := true, motor := .forward, positionTimer := some 250,
                                arrivals := 0, redirect := false } ∧
           Effect [.mechanism] [(.positionSlip, 0)] s t)) ∧
       (∀ p, p = ringStep s.tmc.motor s.tmc.p s.tmc.n → s.tmc.state = .turn → Mechanism s.tmc → s.tmc.homing = false →
         s.tmc.redirect = true →
         (thome = false → p = 0 →
           GoesOnAs (seekingHome { s.tmc with sensors := { s.tmc.sensors with thome := false }, p := 0, homed := false,
                                              display := 0xFFF, homing := true }) s.lc [] [(.positionSlip, 0)] s t) ∧
         (thome = true ∨ p ≠ 0 → ∀ q, q = (if thome then 0 else p) →
           ∀ slip, slip = (if thome = true ∧ p ≠ 0 then [(Event.positionSlip, halfOf p)] else []) →
           ∀ m, m = { s.tmc with sensors := { s.tmc.sensors with thome := thome }, p := q, display := bcd q,
                                 positionTimer := some 250, redirect := false } →
           ∀ op, s.tmc.op = some op →
           (changesSlide op.kind = true → ∀ g, s.tmc.target = some g → g ≤ s.tmc.n →
             (g ≠ q → GoesOnAs { m with motor := shorterWay q g s.tmc.n } s.lc [] slip s t) ∧
             (g = q → g ≠ 0 → GoesOnAs (dropping m) s.lc [] slip s t) ∧
             (g = q → g = 0 → EndsAs op (endedWithoutDrop op m) s.lc [] (slip ++ [doneEntry op m]) s t)) ∧
           (op.kind = .clearGate →
             EndsAs op { m with state := .ready, motor := .unpowered, lifter := true, positionTimer := none } s.lc []
               (slip ++ [(.changeDone, argPair op.source.number q)]) s t) ∧
           (op.kind = .home → thome = false →
             GoesOnAs (seekingHome { m with homed := false, display := 0xFFF, homing := true }) s.lc [] slip s t) ∧
           (op.kind = .home → thome = true →
             EndsAs op (endedHome { m with arrivals := 0 }) s.lc [] (slip ++ [(.homed, argPair op.source.number 0)]) s t)))) ∧
  (∀ s : State, s.notices = [] → s.tmc.state = .turn → s.tmc.motor = .forward → s.tmc.homing = true →
     (s.tmc.arrivals + 1 < s.tmc.n + 2 → ∃ t, exec (.arrival false) s = .next t ∧
       t.tmc = { s.tmc with sensors := { s.tmc.sensors with thome := false }, arrivals := s.tmc.arrivals + 1,
                            positionTimer := some 250 } ∧ Effect [.mechanism] [] s t) ∧
     (∀ op, s.tmc.op = some op → Alone s op → op.kind = .home → ∃ t, exec (.arrival true) s = .next t ∧
       t.tmc.state = .ready ∧ t.tmc.homed = true ∧ t.tmc.homing = false ∧ t.tmc.p = 0 ∧ t.tmc.display = 0 ∧
       t.tmc.motor = .unpowered ∧ t.tmc.lifter = false ∧ t.tmc.op = none ∧ t.tmc.gate = s.tmc.gate ∧
       t.ca = { s.ca with inService := none } ∧
       Effect [.mechanism, .arbiter] [(.homed, argPair op.source.number 0)] s t) ∧
     (∀ op, s.tmc.op = some op → op.kind ≠ .home → Mechanism s.tmc →
       ∀ m, m = foundHome { s.tmc with sensors := { s.tmc.sensors with thome := true }, arrivals := s.tmc.arrivals + 1 } →
       ∃ t, exec (.arrival true) s = .next t ∧
         (changesSlide op.kind = true → ∀ g, s.tmc.target = some g → g ≤ s.tmc.n →
           (g ≠ 0 → GoesOnAs (turning m g) s.lc [] [(.homed, argPair op.source.number 0)] s t) ∧
           (g = 0 → EndsAs op (endedWithoutDrop op m) s.lc []
             [(.homed, argPair op.source.number 0), doneEntry op m] s t)) ∧
         (op.kind = .clearGate → EndsAs op (endedWithoutDrop op m) s.lc []
           [(.homed, argPair op.source.number 0), doneEntry op m] s t)))

/-- DROP ends LOADED when GSEAT is sensed, and EMPTY when its timer runs out with no slide in the gate; a slide that
has not seated is lifted once more (R10). An expiry whose time has not come changes nothing: the model's reading
(assumption log 5). The argument of SEAT_RETRY carries 0xFF for the position while not homed (assumption log 18). -/
def Obligations.DropEnds : Prop :=
  ∀ s : State, s.notices = [] →
    (∃ t, exec .gseatActive s = .next t ∧
      (s.tmc.state ≠ .drop →
        t.tmc = { s.tmc with sensors := { s.tmc.sensors with gseat := true } } ∧ Effect [.mechanism] [] s t) ∧
      (s.tmc.state = .drop →
        t.tmc = { s.tmc with sensors := { s.tmc.sensors with gseat := true }, state := .settle, gate := .loaded,
                             dropTimer := none, settleTimer := some 40 } ∧ Effect [.mechanism] [] s t)) ∧
    (∀ gslide, ∃ t, exec (.dropTimerExpiry gslide) s = .next t ∧
      (¬ (s.tmc.state = .drop ∧ s.tmc.dropTimer = some 0) →
        t.tmc = { s.tmc with sensors := { s.tmc.sensors with gslide := gslide } } ∧ Effect [.mechanism] [] s t) ∧
      (s.tmc.state = .drop → s.tmc.dropTimer = some 0 → gslide = false →
        t.tmc = { s.tmc with sensors := { s.tmc.sensors with gslide := false }, state := .settle, gate := .empty,
                             dropTimer := none, settleTimer := some 40 } ∧ Effect [.mechanism] [] s t) ∧
      (s.tmc.state = .drop → s.tmc.dropTimer = some 0 → gslide = true → s.tmc.seatRetried = false →
        s.tmc.sensors.ltop = false →
        t.tmc = { s.tmc with sensors := { s.tmc.sensors with gslide := true }, seatRetried := true,
                             seatRetryCount := min 255 (s.tmc.seatRetryCount + 1), state := .lift, lifter := true,
                             lowerTimer := none, dropTimer := none, liftTimer := some 400 } ∧
        Effect [.mechanism] [(.seatRetry, if s.tmc.homed then halfOf s.tmc.p else 0xFF)] s t))

/-- SETTLE ends the cycle: READY, the hold released with the in time, and the outcome by the gate (R11, R28, R49). An
expiry whose time has not come changes nothing: the model's reading (assumption log 5). The argument of the outcome
carries 0xFF for the position while not homed (assumption log 18). -/
def Obligations.SettleEnds : Prop :=
  (∀ s : State, s.notices = [] → ¬ (s.tmc.state = .settle ∧ s.tmc.settleTimer = some 0) →
    ∃ t, exec .settleEnd s = .next t ∧ Effect [] [] s t) ∧
  ∀ s : State, s.notices = [] → s.tmc.state = .settle → s.tmc.settleTimer = some 0 →
    ∀ op, s.tmc.op = some op → Alone s op → ∃ t, exec .settleEnd s = .next t ∧
      t.tmc = { s.tmc with state := .ready, settleTimer := none, darkenStanding := false, op := none,
                           redirect := false } ∧
      t.ca = { s.ca with inService := none } ∧
      (s.lc.state ≠ .striking → t.lc.hold = .none) ∧
      (s.lc.state = .lit → s.lc.hold ≠ .none → t.lc.stored = none ∧
        t.lc.fade = some (match s.lc.stored with
          | some f => ⟨s.lc.output, f.target, f.curve, f.duration, 0⟩
          | none => ⟨s.lc.output, s.lc.showLevel, 4, s.tmc.inTime, 0⟩)) ∧
      Effect [.mechanism, .arbiter, .lamp]
        [(if s.tmc.gate = .empty then .emptySlot else .changeDone,
          argPair op.source.number (if s.tmc.homed then s.tmc.p else 0xFF))] s t

/-- The four request directives are checked and answered: a slot beyond the tray is BAD_OPERAND (R26). A request whose
operands have passed and that finds the DIRECTIVE slot empty is deposited, with the result of the operand check, whatever is
in service. Where nothing takes it at once it stands in the slot with the source's level, and line 6 shows it; where the
mechanism is available it is granted, or refused without a tray or a homed mechanism (R130, R135 to R137, R140). One that finds
the slot occupied is REFUSED_BUSY and leaves the pending record as it is (R131). -/
def Obligations.RequestsRefused : Prop :=
  ∀ s : State, Ready s →
    (∀ slot : Byte, 120 < slot.toNat ∨ (s.tmc.n ≠ 0 ∧ s.tmc.n < slot.toNat) →
      ∃ t, exec (.gotoSlot slot) s = .next t ∧ Answered 0x11 .badOperand [] [] s t) ∧
    (s.ca.slots.directive ≠ none →
      (∃ t, exec .home s = .next t ∧ Answered 0x10 .refusedBusy [] [] s t) ∧
      (∃ t, exec .clearGate s = .next t ∧ Answered 0x13 .refusedBusy [] [] s t) ∧
      (∀ step, ∃ t, exec (.moveBy step) s = .next t ∧ Answered 0x12 .refusedBusy [] [] s t) ∧
      ∀ slot : Byte, slot.toNat ≤ 120 → (s.tmc.n = 0 ∨ slot.toNat ≤ s.tmc.n) →
        ∃ t, exec (.gotoSlot slot) s = .next t ∧ Answered 0x11 .refusedBusy [] [] s t) ∧
    (∀ c q, requestOf c = some q →
      (∀ slot, q.kind = .changeTo slot → slot ≤ 120 ∧ (s.tmc.n = 0 ∨ slot ≤ s.tmc.n)) →
      ∃ t, exec c s = .next t ∧ t.dd.lastCode = q.code ∧ t.dd.taken = s.dd.taken + 1 ∧
        (s.ca.slots.directive = none → t.dd.lastResult = q.result.number) ∧
        (s.ca.slots.directive ≠ none → t.dd.lastResult = Result.refusedBusy.number ∧ t.ca = s.ca ∧
          ((t.lineData 6).getD 3 0).getLsbD 0 = true) ∧
        (s.ca.slots.directive = none →
          (s.cu.flag = true ∧ s.cu.traySel ≠ .ignore) ∨ s.tmc.state = .jammed ∨
            (s.ca.masks.directive = true ∧ ∀ source, s.ca.slots.get source = none) ∨
            (∃ old, s.ca.inService = some old ∧ old.level ≤ s.ca.levels.directive) →
          t.ca = { s.ca with slots := { s.ca.slots with directive := some ⟨q.kind, s.ca.levels.directive⟩ } } ∧
          ((t.lineData 6).getD 3 0).getLsbD 0 = true ∧ Answered q.code q.result [.arbiter] [] s t) ∧
        ((∀ source, s.ca.slots.get source = none) → s.ca.inService = none → s.ca.masks.directive = false →
          (s.cu.flag = false ∨ s.cu.traySel = .ignore) →
          (s.tmc.state = .noTray → t.ca = s.ca ∧ Answered q.code q.result [] [(.requestsDiscarded, 0x0601)] s t) ∧
          (s.tmc.state = .unhomed → changesSlide q.kind = true →
            t.ca = s.ca ∧ Answered q.code q.result [] [(.requestsDiscarded, 0x0501)] s t) ∧
          (s.tmc.state = .unhomed ∧ changesSlide q.kind = false ∨
            s.tmc.state = .ready ∧ s.tmc.n ≠ 0 ∧ ¬ (changesSlide q.kind = true ∧ targetOf s.tmc q.kind = s.tmc.p ∧
              s.tmc.gate = .loaded) →
            t.ca = { s.ca with inService := some ⟨q.kind, .directive, s.ca.levels.directive⟩ } ∧
            Answered q.code q.result [.arbiter, .mechanism, .lamp] [] s t)))

/-- A request directive that finds the mechanism READY and nothing waiting is granted at once: the cycle enters DARKEN with
the request in service and the lamp is asked to darken (R4, R5, R7, R14, R26, R46, R135, R136). A MOVE_BY outside
-9..+9 is clamped. A GOTO_SLOT to the slot that stands in the lit gate is done at once: no darkening and no drive (R6). -/
def Obligations.RequestsGranted : Prop :=
  (∀ (c : Instr) (s : State), Ready s → s.tmc.state = .ready → s.tmc.homed = true → s.ca.inService = none →
     (∀ source, s.ca.slots.get source = none) → s.ca.masks.directive = false →
     (s.cu.flag = false ∨ s.cu.traySel = .ignore) → ∀ q, requestOf c = some q →
     (∀ slot, q.kind = .changeTo slot → s.tmc.n ≠ 0 ∧ slot ≤ s.tmc.n ∧ slot ≤ 120) → ∀ g, g = targetOf s.tmc q.kind →
     ¬ (changesSlide q.kind = true ∧ g = s.tmc.p ∧ s.tmc.gate = .loaded) →
     ∃ t, exec c s = .next t ∧ t.tmc.state = .darken ∧ t.tmc.darkenLimit = some 1000 ∧ t.tmc.target = some g ∧
       t.tmc.op = some ⟨q.kind, .directive, s.ca.levels.directive⟩ ∧
       t.ca = { s.ca with inService := some ⟨q.kind, .directive, s.ca.levels.directive⟩ } ∧
       (q.kind = .home → t.tmc.homing = true ∧ t.tmc.homed = false ∧ t.tmc.display = 0xFFF ∧
         t.tmc.gate = if s.tmc.sensors.gslide then .loaded else .empty) ∧
       t.lc.holdLevel = some s.tmc.blackout ∧
       (s.lc.output ≤ s.tmc.blackout → s.lc.hold ≠ .darkening → t.lc.hold = .held ∧ t.lc.report = true) ∧
       (s.tmc.blackout < s.lc.output → s.lc.state = .lit → s.lc.hold ≠ .darkening →
         t.lc.fade = some ⟨s.lc.output, s.tmc.blackout, 4, s.tmc.outTime, 0⟩) ∧
       Answered q.code q.result [.mechanism, .arbiter, .lamp] [] s t) ∧
  (∀ (slot : Byte) (s : State), Ready s → s.tmc.state = .ready → s.tmc.homed = true → s.ca.inService = none →
     (∀ source, s.ca.slots.get source = none) → s.ca.masks.directive = false →
     (s.cu.flag = false ∨ s.cu.traySel = .ignore) → s.tmc.n ≠ 0 → slot.toNat ≤ s.tmc.n → slot.toNat ≤ 120 →
     slot.toNat = s.tmc.p → s.tmc.gate = .loaded →
     ∃ t, exec (.gotoSlot slot) s = .next t ∧ t.tmc.state = .ready ∧ t.tmc.p = s.tmc.p ∧ t.tmc.gate = .loaded ∧
       t.tmc.motor = s.tmc.motor ∧ t.tmc.lifter = s.tmc.lifter ∧ t.tmc.op = none ∧ t.ca.inService = none ∧
       Answered 0x11 .done [.mechanism, .arbiter] [(.changeDone, argPair 0 s.tmc.p)] s t)

/-- CHANGE_PROFILE sets the out time, the in time and the blackout level outside the five phases of a cycle, and is
REFUSED_STATE in them (R27). A DELAY that waits for its fire instant may fire by the new lead (R172); here no record
waits. -/
def Obligations.ChangeProfile : Prop :=
  ∀ (outTime inTime blackout : Byte) (s : State), Ready s → s.ce.waiting? = none →
    ∃ t, exec (.changeProfile outTime inTime blackout) s = .next t ∧
      (s.tmc.inCycle = true → Answered 0x14 .refusedState [] [] s t) ∧
      (s.tmc.inCycle = false →
        t.tmc = { s.tmc with outTime := outTime.toNat * 10, inTime := inTime.toNat * 10,
                             blackout := blackout.toNat } ∧
        Answered 0x14 .done [.mechanism] [] s t)

/-! ## The lamp (02) -/

/-- LAMP_ON by lamp state: a strike, a deferred strike, an exchange toward the good lamp, the restrike intent, no
change, or REFUSED_STATE in FAILED and under the OFF imposition (R32, R34, R35, R38). LAMP_OFF: OFF at once from
STRIKING, LIT and WAIT_COOL, with LAMP_OFF logged and the fades discarded; the restrike intent cleared in EXCHANGE;
nothing in OFF and FAILED (R33). That the intent counts as cleared only if it was set, and that LAMP_OFF leaves a
held-over release and a lingering cap, is the model's choice (assumption log 15), as are that LAMP_ON during a move
drops the mark of an intent cleared before it (assumption log 43) and the LC's entry before the fan's COOLDOWN_DONE, an
order that R213 leaves open (assumption log 4). -/
def Obligations.LampSwitched : Prop :=
  (∀ s : State, Ready s → ∀ good, good = (if s.lc.active = .a then s.lc.goodA else s.lc.goodB) →
     ∃ t, exec .lampOn s = .next t ∧
       (s.lc.imposition = .off ∨ s.lc.state = .failed → Answered 0x20 .refusedState [] [] s t) ∧
       (s.lc.imposition ≠ .off → s.lc.state = .off → good = true → s.lc.h ≤ s.lc.restrikeMax →
         AnsweredLamp 0x20 .done
           (Lc.recompute { s.lc with state := .striking, strike := some ⟨s.lc.showLevel, 0, 0⟩ }) [] s t) ∧
       (s.lc.imposition ≠ .off → s.lc.state = .off → good = true → s.lc.restrikeMax < s.lc.h →
         AnsweredLamp 0x20 .done (Lc.recompute { s.lc with state := .waitCool })
           [(.strikeDeferred, halfOf s.lc.h)] s t) ∧
       (s.lc.imposition ≠ .off → s.lc.state = .off → good = false →
         AnsweredLamp 0x20 .done
           (Lc.recompute { s.lc with state := .exchange, active := if s.lc.active = .a then .b else .a, restrike := true,
                                     moveCleared := false, moveTimer := some 1500, strike := none, fade := none })
           [] s t) ∧
       (s.lc.imposition ≠ .off → s.lc.state = .exchange →
         AnsweredLamp 0x20 .done { s.lc with restrike := true, moveCleared := false } [] s t) ∧
       (s.lc.imposition ≠ .off → (s.lc.state = .waitCool ∨ s.lc.state = .striking ∨ s.lc.state = .lit) →
         AnsweredLamp 0x20 .done s.lc [] s t)) ∧
  (∀ s : State, Ready s → ∃ t, exec .lampOff s = .next t ∧
     ((s.lc.state = .striking ∨ s.lc.state = .lit ∨ s.lc.state = .waitCool) →
       AnsweredLamp 0x21 .done (Lc.recompute { s.lc with state := .off, fade := none, stored := none, strike := none })
         [(.lampOff, 0)] s t) ∧
     (s.lc.state = .exchange →
       AnsweredLamp 0x21 .done { s.lc with restrike := false, moveCleared := s.lc.moveCleared || s.lc.restrike } [] s t) ∧
     ((s.lc.state = .off ∨ s.lc.state = .failed) → Answered 0x21 .done [] [] s t))

/-- LAMP_FADE: a curve above 4 is BAD_OPERAND, a level above 1023 is CLAMPED, and the order sets the show level and starts,
is stored, or is dropped by lamp state and hold (R42, R43). LAMP_CEILING bounds the output at once, clamped to 1023;
LAMP_SPARE sets the good flags and the active lamp in OFF and FAILED and is REFUSED_STATE elsewhere (R39, R40, R41). That a
fade which starts sets the fade level to the output of that instant is the model's reading (assumption log 14). -/
def Obligations.LampLevels : Prop :=
  (∀ (lo hi curve time : Byte) (s : State), Ready s → ∀ asked, asked = lo.toNat + 256 * hi.toNat →
     ∀ level, level = min asked 1023 → ∀ result, result = (if 1023 < asked then Result.clamped else Result.done) →
     ∃ t, exec (.lampFade lo hi curve time) s = .next t ∧
       (4 < curve.toNat → Answered 0x22 .badOperand [] [] s t) ∧
       (curve.toNat ≤ 4 → s.lc.state = .lit → s.lc.hold = .none →
         AnsweredLamp 0x22 result
           (Lc.recompute { s.lc with showLevel := level, stored := none, fadeLevel := s.lc.output,
                                     fade := some ⟨s.lc.output, level, curve.toNat, time.toNat * 20, 0⟩ }) [] s t) ∧
       (curve.toNat ≤ 4 → (s.lc.state = .lit ∧ s.lc.hold ≠ .none ∨ s.lc.state = .striking) →
         AnsweredLamp 0x22 result
           { s.lc with showLevel := level, stored := some ⟨level, curve.toNat, time.toNat * 20⟩ } [] s t) ∧
       (curve.toNat ≤ 4 → s.lc.state ≠ .lit → s.lc.state ≠ .striking →
         AnsweredLamp 0x22 result { s.lc with showLevel := level } [] s t)) ∧
  ((∀ (lo hi : Byte) (s : State), Ready s → ∀ asked, asked = lo.toNat + 256 * hi.toNat →
     ∃ t, exec (.lampCeiling lo hi) s = .next t ∧
       AnsweredLamp 0x23 (if 1023 < asked then .clamped else .done)
         (Lc.recompute { s.lc with ceiling := min asked 1023 }) [] s t ∧ t.lc.output ≤ min asked 1023) ∧
   ∀ (lamps : Byte) (s : State), Ready s → ∀ a, a = lamps.getLsbD 0 → ∀ b, b = lamps.getLsbD 1 →
     ∀ chosen, chosen = (if lamps.getLsbD 2 then Lamp.b else Lamp.a) →
     ∃ t, exec (.lampSpare lamps) s = .next t ∧
       (s.lc.state ≠ .off → s.lc.state ≠ .failed → Answered 0x24 .refusedState [] [] s t) ∧
       ((s.lc.state = .off ∨ s.lc.state = .failed) → chosen = s.lc.active →
         AnsweredLamp 0x24 .done
           (Lc.recompute { s.lc with goodA := a, goodB := b, state := if a = true ∨ b = true then .off else .failed })
           [] s t) ∧
       ((s.lc.state = .off ∨ s.lc.state = .failed) → chosen ≠ s.lc.active →
         AnsweredLamp 0x24 .done
           (Lc.recompute { s.lc with goodA := a, goodB := b, state := .exchange, active := chosen, restrike := false,
                                     moveCleared := false, moveTimer := some 1500, strike := none, fade := none })
           [] s t))


/-- HEAT_PROFILE is refused BAD_OPERAND unless LG is at least 1, RM < DS < OH and RM is above the cool-done level; otherwise
all five values take effect at once, with the derate limit recomputed and OVERHEAT evaluated again (R53, R54, R55). -/
def Obligations.HeatProfile : Prop :=
  ∀ (lg fg ds oh rm : Byte) (s : State), Ready s → ∀ d, d = 256 * ds.toNat → ∀ o, o = 256 * oh.toNat →
    ∀ m, m = 256 * rm.toNat →
    ∀ limit, limit = (if s.lc.h ≤ d then 1023 else if s.lc.h < o then 1023 - (s.lc.h - d) * 767 / (o - d)
      else 1023 - (o - 1 - d) * 767 / (o - d)) →
    ∀ hot, hot = (if o ≤ s.lc.h then true else if s.lc.h < d then false else s.lc.overheat) →
    ∃ t, exec (.heatProfile lg fg ds oh rm) s = .next t ∧
      (¬ (1 ≤ lg.toNat ∧ m < d ∧ d < o ∧ s.fc.coolDone < m) → Answered 0x25 .badOperand [] [] s t) ∧
      (1 ≤ lg.toNat → m < d → d < o → s.fc.coolDone < m →
        t.lc.lampGain = lg.toNat ∧ t.lc.fanGain = fg.toNat ∧ t.lc.derateStart = d ∧ t.lc.overheatLevel = o ∧
        t.lc.restrikeMax = m ∧ t.lc.derate = limit ∧ t.lc.overheat = hot ∧ t.lc.h = s.lc.h ∧
        t.dd.lastCode = 0x25 ∧ t.dd.lastResult = 0 ∧
        (hot = s.lc.overheat → (s.lc.state ≠ .waitCool ∨ m < s.lc.h) →
          AnsweredLamp 0x25 .done
            (Lc.recompute { s.lc with lampGain := lg.toNat, fanGain := fg.toNat, derateStart := d, overheatLevel := o,
                                      restrikeMax := m, derate := limit })
            (if s.lc.derate = 1023 ∧ limit ≠ 1023 then [(.derateBegin, halfOf s.lc.h)]
             else if s.lc.derate ≠ 1023 ∧ limit = 1023 then [(.derateEnd, halfOf s.lc.h)] else []) s t) ∧
        (hot = s.lc.overheat → s.lc.state = .waitCool → s.lc.h ≤ m → t.lc.state = .striking))

/-- The output computed afresh: the least of the fade level (the ramp in STRIKING), the ceiling, the derate limit, the hold
cap in HELD and the cutoff cap, 0 in every other lamp state; in DARKENING an output at or below the recorded level
moves the hold to HELD with one report; the failure watch runs while LIT, LCUR absent and the output above 64 (R36,
R41, R47). LAMP_UPDATE computes the output, raises a strike's ramp to its target over 600 ms and leaves the fade level
where no fade is in progress; FADE_COMPLETE is the update that completes the fade (R35, R42). An update whose time has
not come changes nothing: the model's reading (assumption log 5). -/
def Obligations.LampUpdate : Prop :=
  (∀ lc : Lc, ∀ o, o = (if lc.state = .lit ∨ lc.state = .striking then
       min (if lc.state = .lit then lc.fadeLevel else (lc.strike.map (·.ramp)).getD 0)
         (min lc.ceiling (min lc.derate (min (if lc.hold = .held then lc.holdLevel.getD 1023 else 1023)
           (if lc.imposition = .cap ∨ lc.capLingers = true then lc.capLevel else 1023))))
       else 0) →
     ∀ dark, dark = decide (lc.hold = .darkening ∧ o ≤ lc.holdLevel.getD 1023) →
     lc.recompute = { lc with output := o, hold := if dark then .held else lc.hold, report := dark || lc.report,
                              failureWatch := if lc.state = .lit ∧ lc.lcur = false ∧ 64 < o then
                                some (lc.failureWatch.getD 100) else none }) ∧
  ∀ s : State, s.notices = [] →
    (s.lc.lampPhase ≠ some 0 →
      (∃ t, exec .lampUpdate s = .next t ∧ Effect [] [] s t) ∧ ∃ t, exec .fadeComplete s = .next t ∧ Effect [] [] s t) ∧
    (s.lc.lampPhase = some 0 → ∃ t, exec .lampUpdate s = .next t ∧
      t.lc.output = t.lc.computedOutput ∧ t.lc.lampPhase = some 2 ∧ Effect [.lamp] [] s t ∧
      (s.lc.fade = none → t.lc.fadeLevel = s.lc.fadeLevel ∧ t.lc.fade = none) ∧
      (∀ k, s.lc.strike = some k → t.lc.strike = some { k with ramp := k.target * min k.elapsed 600 / 600 })) ∧
    (∀ f, s.lc.fade = some f → s.lc.lampPhase = some 0 → f.duration ≤ f.elapsed →
      exec .fadeComplete s = exec .lampUpdate s) ∧
    (∀ f, s.lc.fade = some f → f.elapsed < f.duration → ∃ t, exec .fadeComplete s = .next t ∧ Effect [] [] s t)

/-- The fade level at a lamp update: the progress position, the course value by curve 4 or by the curve's shadow points, and
the level rounded half away from zero; it lies between L0 and L1, and at completion it is L1 (R44). -/
def Obligations.FadeLevel : Prop :=
  ∀ (f : Fade) (s : State), s.notices = [] → s.lc.lampPhase = some 0 → s.lc.fade = some f →
    ∃ t, exec .lampUpdate s = .next t ∧ Effect [.lamp] [] s t ∧
      min f.start f.target ≤ t.lc.fadeLevel ∧ t.lc.fadeLevel ≤ max f.start f.target ∧
      (f.duration ≤ f.elapsed → t.lc.fadeLevel = f.target ∧ t.lc.fade = none) ∧
      (f.elapsed < f.duration → ∀ u, u = f.elapsed * 16128 / f.duration →
        ∀ point : Nat → Nat, point = (fun j => (s.lc.curves.getD (64 * f.curve + j) 0).toNat) →
        ∀ c, c = (if f.curve = 4 then (u * 255 + 8064) / 16128
          else if u / 256 = 63 then point 63
          else (point (u / 256) * (256 - u % 256) + point (u / 256 + 1) * (u % 256) + 128) / 256) →
        t.lc.fade = some f ∧
        t.lc.fadeLevel = if f.start ≤ f.target then f.start + (2 * (f.target - f.start) * c + 255) / 510
          else f.start - (2 * (f.start - f.target) * c + 255) / 510)

/-- The strike's end: LCUR present lights the lamp at the strike target with LAMP_LIT, and starts a stored fade if no
hold is in force; LCUR absent is a failure: LAMP_FAIL, and an exchange to the other lamp if it is good or FAILED (R35,
R37, R38). LCUR_CHANGE starts and cancels the failure watch, and its expiry in LIT is a failure of the active lamp
(R36, R37). An expiry whose time has not come changes nothing: the model's reading (assumption log 5). A failure keeps the
hold, but for a DARKENING that the dark output completes (R47; assumption log 14), and a change of LCUR to the level that
stands changes nothing (assumption log 19). The stored fade before the fade after a lifted cap at entry to LIT is
assumption log 15, and LAMP_FAIL before the fan's COOLDOWN_DONE assumption log 4, since R213 leaves that order open. -/
def Obligations.StrikeAndWatch : Prop :=
  (∀ s : State, s.notices = [] → ∀ k, s.lc.strike = some k → s.lc.state = .striking →
     (k.elapsed < 600 → ∃ t, exec .strikeEnd s = .next t ∧ Effect [] [] s t) ∧
     (600 ≤ k.elapsed → s.lc.lcur = true → ∃ t, exec .strikeEnd s = .next t ∧ t.lc.state = .lit ∧ t.lc.strike = none ∧
       t.lc.output = t.lc.computedOutput ∧ t.lc.capLingers = false ∧
       (s.lc.heldRelease = none → s.lc.hold = .none → ∀ f, s.lc.stored = some f →
         t.lc.fade = some ⟨t.lc.fadeLevel, f.target, f.curve, f.duration, 0⟩ ∧ t.lc.stored = none) ∧
       (s.lc.heldRelease = none → s.lc.stored = none → s.lc.capLingers = false →
         t.lc.fadeLevel = k.target ∧ t.lc.fade = s.lc.fade) ∧
       Effect [.lamp] [(.lampLit, if s.lc.active = .a then 0 else 1)] s t) ∧
     (600 ≤ k.elapsed → s.lc.lcur = false → ∃ t, exec .strikeEnd s = .next t ∧ t.lc.output = 0 ∧ t.lc.heldRelease = none ∧
       t.lc.hold = (if s.lc.hold = .darkening then .held else s.lc.hold) ∧ t.lc.holdLevel = s.lc.holdLevel ∧
       (s.lc.active = .a → t.lc.goodA = false ∧ t.lc.goodB = s.lc.goodB) ∧
       (s.lc.active = .b → t.lc.goodB = false ∧ t.lc.goodA = s.lc.goodA) ∧
       ∀ spare, spare = (if s.lc.active = .a then s.lc.goodB else s.lc.goodA) →
         (spare = true → t.lc.state = .exchange ∧ t.lc.active ≠ s.lc.active ∧ t.lc.moveTimer = some 1500 ∧
           t.lc.restrike = decide (s.lc.imposition ≠ .off) ∧ t.lc.stored = s.lc.stored) ∧
         (spare = false → t.lc.state = .failed ∧ t.lc.active = s.lc.active ∧ t.lc.stored = none) ∧
         LampEffect t.lc [] [(.lampFail, if s.lc.active = .a then 0 else 1)] s t)) ∧
  (∀ s : State, s.notices = [] →
     (∀ present, ∃ t, exec (.lcurChange present) s = .next t ∧
       t.lc = { s.lc with lcur := present,
                          failureWatch := if s.lc.state = .lit ∧ present = false ∧ 64 < s.lc.output then
                            some (s.lc.failureWatch.getD 100) else none } ∧
       Effect [.lamp] [] s t) ∧
     (s.lc.failureWatch ≠ some 0 → ∃ t, exec .failureWatchExpiry s = .next t ∧ Effect [] [] s t) ∧
     (s.lc.failureWatch = some 0 → ∃ t, exec .failureWatchExpiry s = .next t ∧ t.lc.output = 0 ∧
       t.lc.hold = (if s.lc.hold = .darkening then .held else s.lc.hold) ∧ t.lc.holdLevel = s.lc.holdLevel ∧
       (s.lc.active = .a → t.lc.goodA = false) ∧ (s.lc.active = .b → t.lc.goodB = false) ∧
       (t.lc.state = .exchange ∨ t.lc.state = .failed) ∧
       LampEffect t.lc [] [(.lampFail, if s.lc.active = .a then 0 else 1)] s t))

/-- The changer move ends with LAMP_EXCHANGED: FAILED with no good lamp, a strike or a wait under the restrike intent,
OFF otherwise, where LAMP_OFF is logged if the intent was cleared during the move (R34, R38). An expiry whose time has
not come changes nothing: the model's reading (assumption log 5). The intent counts as cleared only if it was set
(assumption log 15), and after the last LAMP_ON of the move (assumption log 43). That the argument of LAMP_OFF is taken
from the imposition that stands at the end of the move, whatever cleared the intent, is the model's choice (assumption
log 38). LAMP_EXCHANGED comes before the fan's COOLDOWN_DONE, an order that R213 leaves open (assumption log 4). -/
def Obligations.ExchangeEnds : Prop :=
  ∀ s : State, s.notices = [] → ∀ which : Half, which = (if s.lc.active = .a then 0 else 1) →
    (¬ (s.lc.state = .exchange ∧ s.lc.moveTimer = some 0) →
      ∃ t, exec .exchangeMoveEnd s = .next t ∧ Effect [] [] s t) ∧
    (s.lc.state = .exchange → s.lc.moveTimer = some 0 → ∃ t, exec .exchangeMoveEnd s = .next t ∧
      (s.lc.goodA = false → s.lc.goodB = false →
        LampEffect (Lc.recompute { s.lc with moveTimer := none, restrike := false, moveCleared := false,
                                             state := .failed, stored := none }) [] [(.lampExchanged, which)] s t) ∧
      ((s.lc.goodA = true ∨ s.lc.goodB = true) → s.lc.restrike = true → s.lc.h ≤ s.lc.restrikeMax →
        LampEffect (Lc.recompute { s.lc with moveTimer := none, restrike := false, moveCleared := false,
                                             state := .striking, strike := some ⟨s.lc.showLevel, 0, 0⟩ }) []
          [(.lampExchanged, which)] s t) ∧
      ((s.lc.goodA = true ∨ s.lc.goodB = true) → s.lc.restrike = true → s.lc.restrikeMax < s.lc.h →
        LampEffect (Lc.recompute { s.lc with moveTimer := none, restrike := false, moveCleared := false,
                                             state := .waitCool }) []
          [(.lampExchanged, which), (.strikeDeferred, halfOf s.lc.h)] s t) ∧
      ((s.lc.goodA = true ∨ s.lc.goodB = true) → s.lc.restrike = false →
        LampEffect (Lc.recompute { s.lc with moveTimer := none, restrike := false, moveCleared := false,
                                             state := .off, stored := none }) []
          ((.lampExchanged, which) ::
            if s.lc.moveCleared then [(.lampOff, if s.lc.imposition = .off then 1 else 0)] else []) s t))

/-- The heat update advances H from the output and the fan speed, recomputes the derate limit and evaluates OVERHEAT,
which is reported to the Cutoff Unit (R52, R54, R55, R72). An update whose time has not come changes nothing: the
model's reading (assumption log 5). DERATE_BEGIN and DERATE_END come before the fan's COOLDOWN_DONE, an order that R213
leaves open (assumption log 4). -/
def Obligations.HeatUpdate : Prop :=
  ∀ s : State, s.notices = [] →
    (s.lc.heatPhase ≠ some 0 → ∃ t, exec .heatUpdate s = .next t ∧ Effect [] [] s t) ∧
    (s.lc.heatPhase = some 0 →
      ∀ h, h = min 65535 (s.lc.h + s.lc.output * s.lc.lampGain / 64 -
        s.lc.h * (64 + s.fc.speed * s.lc.fanGain) / 65536) →
      ∀ limit, limit = (if h ≤ s.lc.derateStart then 1023
        else if h < s.lc.overheatLevel then
          1023 - (h - s.lc.derateStart) * 767 / (s.lc.overheatLevel - s.lc.derateStart)
        else 1023 - (s.lc.overheatLevel - 1 - s.lc.derateStart) * 767 / (s.lc.overheatLevel - s.lc.derateStart)) →
      ∀ hot, hot = (if s.lc.overheatLevel ≤ h then true else if h < s.lc.derateStart then false else s.lc.overheat) →
      ∃ t, exec .heatUpdate s = .next t ∧ t.lc.h = h ∧ t.lc.derate = limit ∧ t.lc.overheat = hot ∧
        t.lc.heatPhase = some 100 ∧
        (hot ≠ s.lc.overheat → t.cu.overheat = hot) ∧
        (hot = true → s.lc.overheat = false → s.cu.overheat = false → s.cu.enabled .overheat = true →
          t.cu.flag = true ∧ t.cu.inSet .overheat = true) ∧
        (hot = s.lc.overheat → (s.lc.state ≠ .waitCool ∨ s.lc.restrikeMax < h) →
          LampEffect (Lc.recompute { s.lc with h := h, heatPhase := some 100, derate := limit }) []
            (if s.lc.derate = 1023 ∧ limit ≠ 1023 then [(.derateBegin, halfOf h)]
             else if s.lc.derate ≠ 1023 ∧ limit = 1023 then [(.derateEnd, halfOf h)] else []) s t) ∧
        (hot = s.lc.overheat → s.lc.state = .waitCool → h ≤ s.lc.restrikeMax → t.lc.state = .striking))

/-! ## The fan (03) -/

/-- FAN_PROFILE is refused BAD_OPERAND unless CD is below RM; otherwise the demand is computed afresh by R62, a demand that
leaves 0 spins the fan up, and one that becomes 0 stops it, with COOLDOWN_DONE when the lamp house has cooled (R61, R62,
R64, R68, R69). -/
def Obligations.FanProfile : Prop :=
  ∀ (minimum coolDone : Byte) (s : State), Ready s → ∀ cd, cd = 256 * coolDone.toNat →
    ∀ active, active = decide (s.lc.state = .striking ∨ s.lc.state = .lit ∨ s.lc.state = .exchange) →
    ∀ demand, demand = (if s.fc.full then 255
      else if active = true ∨ cd < s.lc.h then
        minimum.toNat + (255 - minimum.toNat) * min s.lc.h s.lc.derateStart / s.lc.derateStart
      else 0) →
    ∃ t, exec (.fanProfile minimum coolDone) s = .next t ∧
      (s.lc.restrikeMax ≤ cd → Answered 0x30 .badOperand [] [] s t) ∧
      (cd < s.lc.restrikeMax →
        t.fc.minimum = minimum.toNat ∧ t.fc.coolDone = cd ∧ t.fc.demand = demand ∧ t.fc.speed = s.fc.speed ∧
        t.fc.pulses = s.fc.pulses ∧ t.fc.full = s.fc.full ∧
        (s.fc.demand = 0 → demand ≠ 0 → t.fc.state = .spinup ∧ t.fc.grace = 4 ∧ t.fc.stallWindows = 0) ∧
        (s.fc.demand ≠ 0 → demand = 0 → t.fc.state = .stopped ∧ t.fc.grace = 0 ∧ t.fc.stallWindows = 0) ∧
        ((s.fc.demand = 0 ↔ demand = 0) → t.fc.grace = s.fc.grace ∧ t.fc.stallWindows = s.fc.stallWindows ∧
          t.fc.state = if s.fc.state = .running ∨ s.fc.state = .cooldown then
            (if active then .running else .cooldown) else s.fc.state) ∧
        Answered 0x30 .done [.fan]
          (if s.fc.demand ≠ 0 ∧ demand = 0 ∧ s.fc.full = false ∧ active = false ∧ s.lc.h ≤ cd then
            [(.cooldownDone, halfOf s.lc.h)] else []) s t)

/-- The fan's tachometer: FTACH pulses count, and the window's end turns them into the measured speed, takes a grace
window of SPINUP, watches for three stall windows in a row, and lets a stalled fan recover (R60, R64, R66, R67). The
third stall window raises FAN_STALL to the Cutoff Unit, whose OFF puts a burning lamp out: a fan that no imposition
keeps at FULL then stops at once where H stands at or below CD, with COOLDOWN_DONE (R62, R64, R68, R75 to R77, R80). That a
cutoff entered there imposes FULL before the lamp goes out, and the order of the entries of several blocks, are the
model's (assumption log 4). A window end whose time has not come changes nothing: the model's reading (assumption log
5). The pulse count stops at 65,535 (assumption log 29). -/
def Obligations.FanMeasured : Prop :=
  ∀ s : State, s.notices = [] →
    (∃ t, exec .ftachPulse s = .next t ∧ t.fc = { s.fc with pulses := min 65535 (s.fc.pulses + 1) } ∧
      Effect [.fan] [] s t) ∧
    (s.fc.windowPhase ≠ some 0 → ∃ t, exec .measurementWindowEnd s = .next t ∧ Effect [] [] s t) ∧
    (s.fc.windowPhase = some 0 → ∀ speed, speed = min 255 (4 * s.fc.pulses) →
      ∀ active, active = decide (s.lc.state = .striking ∨ s.lc.state = .lit ∨ s.lc.state = .exchange) →
      ∀ stall, stall = decide (64 ≤ s.fc.demand ∧ 4 * speed < s.fc.demand) →
      ∀ turning, turning = (if active then FanState.running else FanState.cooldown) →
      ∃ t, exec .measurementWindowEnd s = .next t ∧ t.fc.speed = speed ∧ t.fc.pulses = 0 ∧
        t.fc.windowPhase = some 250 ∧
        (s.fc.state = .stopped →
          t.fc = { s.fc with speed := speed, pulses := 0, windowPhase := some 250 } ∧ Effect [.fan] [] s t) ∧
        (s.fc.state = .spinup →
          t.fc = { s.fc with speed := speed, pulses := 0, windowPhase := some 250, grace := s.fc.grace - 1,
                             state := if s.fc.grace ≤ 1 then turning else .spinup } ∧ Effect [.fan] [] s t) ∧
        ((s.fc.state = .running ∨ s.fc.state = .cooldown) → stall = false →
          t.fc = { s.fc with speed := speed, pulses := 0, windowPhase := some 250, stallWindows := 0 } ∧
          Effect [.fan] [] s t) ∧
        ((s.fc.state = .running ∨ s.fc.state = .cooldown) → stall = true → s.fc.stallWindows < 2 →
          t.fc = { s.fc with speed := speed, pulses := 0, windowPhase := some 250,
                             stallWindows := s.fc.stallWindows + 1 } ∧ Effect [.fan] [] s t) ∧
        ((s.fc.state = .running ∨ s.fc.state = .cooldown) → stall = true → 2 ≤ s.fc.stallWindows →
          ∀ burning, burning = decide (s.lc.state = .striking ∨ s.lc.state = .lit) →
          (s.cu.enabled .fanStall = true → t.cu.flag = true ∧ t.cu.inSet .fanStall = true) ∧
          (s.cu.enabled .fanStall = false ∨ s.cu.flag = true ∧ s.cu.inSet .fanStall = true →
            t.fc = { s.fc with speed := speed, pulses := 0, windowPhase := some 250, stallWindows := 3,
                               state := .stalled } ∧
            Effect [.fan] [(.fanStall, argPair s.fc.demand speed)] s t) ∧
          (burning = false ∨ s.fc.full = true ∨ s.cu.flag = false ∧ s.cu.fanIgnore = false ∨
              s.fc.coolDone < s.lc.h ∧
                s.fc.minimum + (255 - s.fc.minimum) * min s.lc.h s.lc.derateStart / s.lc.derateStart ≠ 0 →
            t.fc.state = .stalled ∧ t.fc.stallWindows = 3) ∧
          (s.cu.enabled .fanStall = true → s.cu.inSet .fanStall = false → burning = true →
            s.cu.lampHanded ≠ .off → s.lc.imposition ≠ .off → s.fc.full = false →
            (s.cu.flag = true ∨ s.cu.fanIgnore = true) → s.lc.h ≤ s.fc.coolDone →
            t.fc = { s.fc with speed := speed, pulses := 0, windowPhase := some 250, stallWindows := 0,
                               state := .stopped, demand := 0, grace := 0 } ∧
            t.lc.state = .off ∧ t.lc.output = 0 ∧
            (s.cu.flag = true ∨ s.cu.traySel = .ignore ∧ s.cu.tapeIgnore = true ∧ s.cu.audioIgnore = true ∧
                s.ce.active = false →
              Effect [.fan, .cutoff, .lamp]
                [(.fanStall, argPair s.fc.demand speed), (if s.cu.flag then .cutoffCauseAdded else .cutoffEnter, 4),
                 (.lampOff, 1), (.cooldownDone, halfOf s.lc.h)] s t))) ∧
        (s.fc.state = .stalled →
          t.fc = { s.fc with speed := speed, pulses := 0, windowPhase := some 250,
                             state := if s.fc.demand ≤ 4 * speed then turning else .stalled,
                             stallWindows := if s.fc.demand ≤ 4 * speed then 0 else s.fc.stallWindows } ∧
          Effect [.fan] [] s t))

/-! ## The forced cutoff (04) -/

/-- CUTOFF_SELECT sets the five selections while the flag is clear; unassigned values are BAD_OPERAND and a set flag is
REFUSED_STATE (R82). CUTOFF_ENABLE sets the enables; each level cause that is newly enabled, present and not in the set
arrives at once, in the order of the cause numbers, and joins the set, and a cause in the set stays (R83). With the flag
clear the first of them enters cutoff with CUTOFF_ENTER and each later one is added with CUTOFF_CAUSE_ADDED; with the
flag set each is added (R75, R76, R83). That these entries come before those of the other blocks that an entry or a heat
cause leads to is the model's choice, an order that R213 leaves open (assumption log 4). -/
def Obligations.CutoffSettings : Prop :=
  (∀ (b0 b1 : Byte) (s : State), Ready s → ∀ lamp, lamp = b0.toNat % 4 → ∀ tray, tray = b0.toNat / 4 →
     ∃ t, exec (.cutoffSelect b0 b1) s = .next t ∧
       (s.cu.flag = true → Answered 0x38 .refusedState [] [] s t) ∧
       (s.cu.flag = false → (lamp = 3 ∨ 3 ≤ tray ∨ 8 ≤ b1.toNat) → Answered 0x38 .badOperand [] [] s t) ∧
       (s.cu.flag = false → lamp < 3 → tray < 3 → b1.toNat < 8 →
         t.cu = { s.cu with
           lampSel := if lamp = 0 then .off else if lamp = 1 then .holdBlackout else .ignore,
           traySel := if tray = 0 then .brake else if tray = 1 then .free else .ignore,
           tapeIgnore := b1.getLsbD 0, audioIgnore := b1.getLsbD 1, fanIgnore := b1.getLsbD 2 } ∧
         Answered 0x38 .done [.cutoff] [] s t)) ∧
  (∀ (causes : Byte) (s : State), Ready s → ∀ after, after = { s.cu with enables := causes } →
     ∃ t, exec (.cutoffEnable causes) s = .next t ∧ t.cu.enables = causes ∧ t.dd.lastCode = 0x39 ∧
       t.dd.lastResult = 0 ∧ t.dd.taken = s.dd.taken + 1 ∧
       (∀ c, s.cu.inSet c = true → t.cu.inSet c = true) ∧
       (∀ c, s.cu.enabled c = false → after.enabled c = true → s.cu.present c = true →
         t.cu.flag = true ∧ t.cu.inSet c = true ∨ s.cu.inSet c = true) ∧
       (∀ woken, woken = [Cause.overheat, .thermostat, .interlock, .trayLost].filter (fun c =>
           !s.cu.enabled c && after.enabled c && s.cu.present c && !s.cu.inSet c) →
         (∀ c, t.cu.inSet c = (s.cu.inSet c || woken.contains c)) ∧
         (s.cu.flag = false → ∀ first rest, woken = first :: rest → t.cu.flag = true ∧
           LogsFirst (abandoned 0x39 s ++ (.cutoffEnter, halfOf first.number) ::
             rest.map fun c => (Event.cutoffCauseAdded, halfOf c.number)) s t) ∧
         (s.cu.flag = true → t.cu.flag = true ∧
           LogsFirst (abandoned 0x39 s ++ woken.map fun c => (Event.cutoffCauseAdded, halfOf c.number)) s t ∧
           (s.cu.lampHanded = s.cu.lampImposition →
             s.cu.lampImposition = .off ∨ .overheat ∉ woken ∧ .thermostat ∉ woken →
             t.cu = { after with causes := t.cu.causes } ∧
             Answered 0x39 .done [.cutoff] (woken.map fun c => (Event.cutoffCauseAdded, halfOf c.number)) s t))) ∧
       ((∀ c, s.cu.enabled c = true ∨ after.enabled c = false ∨ s.cu.present c = false ∨ s.cu.inSet c = true) →
         t.cu = after ∧ Answered 0x39 .done [.cutoff] [] s t))

/-- CUTOFF_FORCE: REFUSED_STATE with FORCED disabled; in cutoff it adds FORCED; otherwise it enters cutoff, and the
selections take hold of the lamp, the tray, the tape, the sound, the fan, the pending requests and the show (R75 to R81,
R84, R143). The operation in service ends by its phase, with the gate, the homed flag and the hold of R24's table, its
outcome, which clears a run channel's request, and JAM (R24, R25, R156, R159); the lamp goes OFF by its state with
LAMP_OFF argument 1 (R51); a moving tape brakes (R110) and the sound ramps down from its level over 100 ms (R109). Marked
as the model's: the gate LOADED of a SETTLE that had ended EMPTY (assumption log 9), 0xFF for the position while not homed
(log 18), the order of entries of several blocks, and FULL before the lamp's going out (log 4), and a held-over release that
survives the OFF (log 15). -/
def Obligations.CutoffForce : Prop :=
  ∀ s : State, Ready s → Cutoff s.cu → ∃ t, exec .cutoffForce s = .next t ∧
    (s.cu.enabled .forced = false → Answered 0x3A .refusedState [] [] s t) ∧
    (s.cu.enabled .forced = true → s.cu.flag = true → s.cu.inSet .forced = true →
      Answered 0x3A .done [] [] s t) ∧
    (s.cu.enabled .forced = true → s.cu.flag = true → s.cu.inSet .forced = false →
      t.cu = { s.cu with causes := s.cu.causes ||| 0x40 } ∧ Answered 0x3A .done [.cutoff] [(.cutoffCauseAdded, 6)] s t) ∧
    (s.cu.enabled .forced = true → s.cu.flag = false →
      t.cu.flag = true ∧ t.cu.causes = 0x40 ∧ t.dd.lastCode = 0x3A ∧ t.dd.lastResult = 0 ∧
      (s.lc.imposition = .none → t.lc.imposition =
        (match s.cu.lampSel with | .off => .off | .holdBlackout => .cap | .ignore => .none)) ∧
      (s.cu.traySel ≠ .ignore → t.tmc.imposition = some s.cu.traySel ∧ t.tmc.op = none ∧
        t.ca.slots.directive = none ∧ t.ca.slots.remote = none ∧ t.ca.slots.tape = none) ∧
      (s.cu.tapeIgnore = false → t.ttc.stopImposed = true ∧ t.ttc.state.moving = false) ∧
      (s.cu.audioIgnore = false → t.ttc.muteImposed = true) ∧
      (s.cu.fanIgnore = false → t.fc.full = true ∧ t.fc.demand = 255) ∧
      (s.ce.active = true → t.ce.showState = .halted ∧ t.ce.reason = .cutoff ∧ t.ce.queue = []) ∧
      Unchanged [.decoder, .cutoff, .lamp, .mechanism, .arbiter, .channels, .deck, .fan, .engine, .waitCount] s t ∧
      (∀ ended : Tmc, ended = { s.tmc with
          imposition := some s.cu.traySel, motor := if s.cu.traySel = TraySelection.brake then .braked else .unpowered, op := none,
          redirect := false, darkenLimit := none, liftTimer := none, lowerTimer := none, positionTimer := none,
          dropTimer := none, settleTimer := none } →
        ∀ op : Operation, s.tmc.op = some op → s.cu.traySel ≠ .ignore →
        (s.tmc.state = .darken →
          t.tmc = { ended with
            state := if op.kind = .home ∨ op.kind = .clearGate ∧ s.tmc.fromUnhomed = true then .unhomed else .ready,
            homing := false, darkenStanding := s.tmc.fromDark } ∧
          (s.tmc.fromDark = true → (t.lc.hold = .none ↔ s.lc.hold = .none)) ∧
          (s.tmc.fromDark = false → s.lc.state ≠ .striking → t.lc.hold = .none)) ∧
        (s.tmc.state = .lift ∨ s.tmc.state = .turn ∨ s.tmc.state = .drop →
          t.tmc = { ended with state := .jammed, homed := false, display := 0xFFF, lifter := false, homing := false } ∧
          (t.lc.hold = .none ↔ s.lc.hold = .none)) ∧
        (s.tmc.state = .settle →
          t.tmc = { ended with state := .ready, gate := .loaded, darkenStanding := false } ∧
          (s.lc.state ≠ .striking → t.lc.hold = .none)) ∧
        (s.ca.inService = some op → t.ca.inService = none ∧
          (∀ m, s.rcu.serviceMarker = some m → op.source = .run → s.ca.slots.run = none → m.detached = false →
            t.rcu.serviceMarker = none ∧ (t.rcu.channels.get m.channel).request = false ∧
            (t.rcu.channels.get m.channel).armed = false ∧ (t.rcu.channels.get m.channel).dwellTimer = none)) ∧
        (Alone s op → s.tmc.inCycle = true → s.cu.lampSel = .ignore → s.cu.tapeIgnore = true → s.cu.audioIgnore = true →
          s.cu.fanIgnore = true → s.ce.active = false →
          Answered 0x3A .done [.cutoff, .mechanism, .arbiter, .lamp]
            [(.cutoffEnter, 6), (.jam, argPair (op.source.number + 0x80) (if s.tmc.homed then s.tmc.p else 0xFF))] s t)) ∧
      (s.cu.lampSel = .off → s.lc.imposition = .none →
        (s.lc.state = .striking ∨ s.lc.state = .lit ∨ s.lc.state = .waitCool → t.lc.state = .off ∧ t.lc.output = 0 ∧
          t.lc.fade = none ∧ t.lc.stored = none) ∧
        (s.lc.state = .exchange → t.lc.state = .exchange ∧ t.lc.restrike = false) ∧
        (s.lc.state = .off ∨ s.lc.state = .failed → t.lc.state = s.lc.state) ∧
        (∀ lc, lc = Lc.recompute { s.lc with imposition := .off, capLingers := false, state := .off, fade := none,
                                             stored := none, strike := none } →
          s.cu.traySel = .ignore → s.cu.tapeIgnore = true → s.cu.audioIgnore = true → s.cu.fanIgnore = true →
          s.ce.active = false → s.lc.state = .striking ∨ s.lc.state = .lit ∨ s.lc.state = .waitCool →
          t.lc = lc ∧ t.fc = (fanAfter s lc).1 ∧
          Answered 0x3A .done [.cutoff, .lamp, .fan]
            ([(.cutoffEnter, 6), (.lampOff, 1)] ++ loggedOf (fanAfter s lc).2) s t)) ∧
      (s.cu.tapeIgnore = false → s.cu.audioIgnore = true → s.ttc.state.moving = true →
        t.ttc = brakes { s.ttc with stopImposed := true } none) ∧
      (s.cu.audioIgnore = false → s.ttc.muteImposed = false → t.ttc.level = s.ttc.level ∧
        t.ttc.setLevel = s.ttc.setLevel ∧
        t.ttc.ramp = if s.ttc.level = 0 then none else some ⟨s.ttc.level, 0, 100, 0, 0⟩))

/-- CUTOFF_CLEAR: REFUSED_STATE with the flag clear, and with CLEAR_REFUSED while a level cause of the set is present
(R85). Otherwise CUTOFF_CLEARED is logged with the cause set, the flag and the set are cleared and every imposition is
lifted (R86). A JAMMED mechanism becomes UNHOMED with a tray and NO_TRAY without one, and the tray motor is unpowered
(R13, R25, R78): UNHOMED stands where no HOME or CLEAR_GATE is pending unmasked, which the selection would begin at
once. A lamp put out stays OFF and a capped one that is lit fades back up to SL with the in time (R51, R77); the tape
stays as it stands, and the sound ramps from its level to S over 100 ms (R79, R109); the fan computes its demand afresh
(R80). The effect is stated whole with no request pending. That CUTOFF_CLEARED comes before the fan's COOLDOWN_DONE is
the model's choice, an order that R213 leaves open (assumption log 4). -/
def Obligations.CutoffClear : Prop :=
  ∀ s : State, Ready s →
    ∀ held, held = (fun c => s.cu.inSet c && s.cu.present c) →
    ∃ t, exec .cutoffClear s = .next t ∧
      (s.cu.flag = false → Answered 0x3B .refusedState [] [] s t) ∧
      (s.cu.flag = true → (∃ c, held c = true) →
        Answered 0x3B .refusedState [] [(.clearRefused, halfOf (flagBit (held .overheat) 0 +
          flagBit (held .thermostat) 1 + flagBit (held .interlock) 2 + flagBit (held .trayLost) 3))] s t) ∧
      (s.cu.flag = true → (∀ c, held c = false) →
        t.cu.flag = false ∧ t.cu.causes = 0 ∧ t.dd.lastCode = 0x3B ∧ t.dd.lastResult = 0 ∧
        (s.lc.imposition = s.cu.lampHanded → t.lc.imposition = .none) ∧
        (s.cu.tapeIgnore = false → t.ttc.stopImposed = false) ∧
        (s.cu.audioIgnore = false → t.ttc.muteImposed = false) ∧
        (s.cu.fanIgnore = false → t.fc.full = false) ∧
        t.tmc.imposition = none ∧ t.tmc.motor ≠ .braked ∧ t.tmc.state ≠ .jammed ∧
        LogsFirst (abandoned 0x3B s ++ [(.cutoffCleared, halfOf s.cu.causes.toNat)]) s t ∧
        (s.tmc.state = .jammed → s.tmc.n = 0 → t.tmc.state = .noTray) ∧
        (s.tmc.state = .jammed → s.tmc.n ≠ 0 → s.ce.active = false →
          (∀ source q, s.ca.slots.get source = some q → s.ca.masks.get source = true ∨ changesSlide q.kind = true) →
          t.tmc.state = .unhomed) ∧
        (s.cu.audioIgnore = false → s.ttc.muteImposed = true →
          s.ce.active = false ∨ (∀ source, s.ca.slots.get source = none) →
          t.ttc.level = s.ttc.level ∧ t.ttc.setLevel = s.ttc.setLevel ∧
          t.ttc.ramp = if s.ttc.level = s.ttc.setLevel then none
            else some ⟨s.ttc.level, s.ttc.setLevel, 100, 0, 0⟩) ∧
        ((∀ source, s.ca.slots.get source = none) → ∀ fan : Reaction Fc, fan = (if s.cu.fanIgnore then (s.fc, [])
            else Fc.compute { s.fc with full := false } s.lc.h s.lc.derateStart s.lc.lampActive) →
          t.cu = { s.cu with flag := false, causes := 0, lampHanded := .none } ∧
          t.tmc = { s.tmc with
            imposition := none, motor := if s.tmc.motor = .braked then .unpowered else s.tmc.motor,
            state := if s.tmc.state = .jammed then (if s.tmc.n = 0 then .noTray else .unhomed) else s.tmc.state } ∧
          t.ttc.state = s.ttc.state ∧ t.lc.state = s.lc.state ∧
          (s.lc.imposition = .cap → s.cu.lampHanded = .cap → s.lc.hold = .none → s.lc.state = .lit →
            t.lc.fade = some ⟨s.lc.output, s.lc.showLevel, 4, s.tmc.inTime, 0⟩) ∧
          t.fc = fan.1 ∧
          Answered 0x3B .done [.cutoff, .lamp, .mechanism, .deck, .fan]
            ((.cutoffCleared, halfOf s.cu.causes.toNat) :: loggedOf fan.2) s t) ∧
        Unchanged [.decoder, .cutoff, .lamp, .mechanism, .arbiter, .channels, .deck, .fan, .engine, .waitCount] s t)

/-- The two filtered inputs: a raw level that differs from the filtered one starts a 10 ms timer, one that agrees
again cancels it, and at its expiry the filtered value takes the raw level; a value that becomes present arrives as a
cause when it is enabled (R72, R73, R75). An expiry whose time has not come changes nothing: the model's reading
(assumption log 5). An event to the level that stands changes nothing: the model's reading (assumption log 19). -/
def Obligations.InputsFiltered : Prop :=
  ∀ s : State, s.notices = [] →
    (∀ active, ∃ t, exec (.thswChange active) s = .next t ∧
      t.cu = { s.cu with thswRaw := active,
                         thswTimer := if active = s.cu.thermostat then none else some (s.cu.thswTimer.getD 10) } ∧
      Effect [.cutoff] [] s t) ∧
    (∀ opened, ∃ t, exec (.ilockChange opened) s = .next t ∧
      t.cu = { s.cu with ilockRaw := opened,
                         ilockTimer := if opened = s.cu.interlock then none else some (s.cu.ilockTimer.getD 10) } ∧
      Effect [.cutoff] [] s t) ∧
    (∃ t, exec (.filterTimerExpiry .thermostat) s = .next t ∧
      (s.cu.thswTimer ≠ some 0 → Effect [] [] s t) ∧
      (s.cu.thswTimer = some 0 → t.cu.thermostat = s.cu.thswRaw ∧ t.cu.thswTimer = none ∧
        (s.cu.thswRaw = false ∨ s.cu.thermostat = true ∨ s.cu.enabled .thermostat = false →
          t.cu = { s.cu with thermostat := s.cu.thswRaw, thswTimer := none } ∧ Effect [.cutoff] [] s t) ∧
        (s.cu.thswRaw = true → s.cu.thermostat = false → s.cu.enabled .thermostat = true →
          t.cu.flag = true ∧ t.cu.inSet .thermostat = true))) ∧
    (∃ t, exec (.filterTimerExpiry .interlock) s = .next t ∧
      (s.cu.ilockTimer ≠ some 0 → Effect [] [] s t) ∧
      (s.cu.ilockTimer = some 0 → t.cu.interlock = s.cu.ilockRaw ∧ t.cu.ilockTimer = none ∧
        (s.cu.ilockRaw = false ∨ s.cu.interlock = true ∨ s.cu.enabled .interlock = false →
          t.cu = { s.cu with interlock := s.cu.ilockRaw, ilockTimer := none } ∧ Effect [.cutoff] [] s t) ∧
        (s.cu.ilockRaw = true → s.cu.interlock = false → s.cu.enabled .interlock = true →
          t.cu.flag = true ∧ t.cu.inSet .interlock = true)))


/-! ## The tape, the cue track and the sound (05) -/

/-- TAPE_PLAY, TAPE_RECORD, TAPE_WIND and TAPE_LOCATE: refused under the tape imposition STOP, carried out at once in
STOPPED, latched in BRAKING, without effect where they ask for the motion in progress, and otherwise BRAKING with the
request latched, but for a locate that a new target retargets or completes (R90 to R92, R95, R96, R110). -/
def Obligations.TapeRequests : Prop :=
  ∀ (c : Instr) (s : State), Ready s →
    (∀ row, tapeRequestOf c = some row →
      ∃ t, exec c s = .next t ∧
        (s.ttc.stopImposed = true → Answered row.1 .refusedState [] [] s t) ∧
        (s.ttc.stopImposed = false →
          (s.ttc.state = .stopped → t.ttc = (carriedOut s.ttc row.2).1 ∧
            Answered row.1 .done [.deck] (carriedOut s.ttc row.2).2 s t) ∧
          (s.ttc.state = .braking → t.ttc = { s.ttc with latched := some row.2 } ∧
            Answered row.1 .done [.deck] [] s t) ∧
          (inProgress s.ttc.state row.2 → Answered row.1 .done [] [] s t) ∧
          (s.ttc.state.moving = true → ¬ inProgress s.ttc.state row.2 →
            ¬ (s.ttc.state = .locating ∧ row.1 = 0x43) →
            t.ttc = brakes s.ttc (some row.2) ∧ Answered row.1 .done [.deck] (cutBurst s.ttc) s t))) ∧
    (∀ direction : Byte, 2 ≤ direction.toNat →
      ∃ t, exec (.tapeWind direction) s = .next t ∧ Answered 0x42 .badOperand [] [] s t) ∧
    (∀ (lo hi : Byte) (g : Half), g = hi ++ lo → s.ttc.stopImposed = false → s.ttc.state = .locating →
      ∃ t, exec (.tapeLocate lo hi) s = .next t ∧
        (g = s.ttc.counter → t.ttc = brakes s.ttc none ∧
          Answered 0x43 .done [.deck] [(.locateDone, s.ttc.counter)] s t) ∧
        (s.ttc.counter.toNat < g.toNat → s.ttc.direction = .forward ∨ s.ttc.direction = .reverse →
          t.ttc = (if s.ttc.direction = .forward then { s.ttc with locateTarget := some g }
            else brakes s.ttc (some (.locate g))) ∧ Answered 0x43 .done [.deck] [] s t) ∧
        (g.toNat < s.ttc.counter.toNat → s.ttc.direction = .forward ∨ s.ttc.direction = .reverse →
          t.ttc = (if s.ttc.direction = .reverse then { s.ttc with locateTarget := some g }
            else brakes s.ttc (some (.locate g))) ∧ Answered 0x43 .done [.deck] [] s t))

/-- TAPE_STOP changes nothing in STOPPED, clears the latched request in BRAKING and brings a moving tape to BRAKING with
nothing latched (R90 to R92). TAPE_ZERO sets the counter to 0 in every state, with the target check of a locate (R94,
R96). -/
def Obligations.TapeStopAndZero : Prop :=
  ∀ s : State, Ready s →
    (∃ t, exec .tapeStop s = .next t ∧
      (s.ttc.state = .stopped → Answered 0x41 .done [] [] s t) ∧
      (s.ttc.state = .braking → t.ttc = { s.ttc with latched := none } ∧ Answered 0x41 .done [.deck] [] s t) ∧
      (s.ttc.state.moving = true → t.ttc = brakes s.ttc none ∧ Answered 0x41 .done [.deck] (cutBurst s.ttc) s t)) ∧
    (∃ t, exec .tapeZero s = .next t ∧
      (s.ttc.state ≠ .locating → t.ttc = { s.ttc with counter := 0 } ∧ Answered 0x45 .done [.deck] [] s t) ∧
      (∀ g, s.ttc.locateTarget = some g → s.ttc.state = .locating →
        (s.ttc.direction = .reverse ∨ g = 0 →
          t.ttc = brakes { s.ttc with counter := 0 } none ∧ Answered 0x45 .done [.deck] [(.locateDone, 0)] s t) ∧
        (s.ttc.direction ≠ .reverse → g ≠ 0 →
          t.ttc = { s.ttc with counter := 0 } ∧ Answered 0x45 .done [.deck] [] s t)))

/-- CUE_WRITE, CUE_ROUTE and AUDIO_LEVEL with their refusals (R103, R106, R108, R109); the burst writer's tone and
quiet periods end (R106); and the sound level takes one step of its ramp toward the target at floor(k * T / n) ms
(R108). An expiry whose time has not come changes nothing: the model's reading (assumption log 5). -/
def Obligations.SoundAndWriter : Prop :=
  (∀ (a b : Byte) (s : State), Ready s →
     (∃ t, exec (.cueWrite a) s = .next t ∧
       (4 ≤ a.toNat → Answered 0x46 .badOperand [] [] s t) ∧
       (a.toNat < 4 → s.ttc.state ≠ .recording → Answered 0x46 .refusedState [] [] s t) ∧
       (a.toNat < 4 → s.ttc.state = .recording → s.ttc.writer ≠ .idle → Answered 0x46 .refusedBusy [] [] s t) ∧
       (∀ cls, cueClass? a.toNat = some cls → s.ttc.state = .recording → s.ttc.writer = .idle →
         cls.number = a.toNat ∧
         t.ttc = { s.ttc with writer := .tone cls, writerTimer := some (
           match cls with | .advance => 40 | .reverse => 110 | .mark => 220 | .stop => 500) } ∧
         Answered 0x46 .done [.deck] [] s t)) ∧
     (∃ t, exec (.cueRoute a b) s = .next t ∧
       (3 ≤ a.toNat ∨ 4 ≤ b.toNat ∧ b.toNat ≤ 254 → Answered 0x47 .badOperand [] [] s t) ∧
       (∀ route, route = (if a = 0 then RouteMode.toShow else if a = 1 then .direct else .off) → a.toNat < 3 →
         (b.toNat < 4 ∨ b = 0xFF) →
         t.ttc = { s.ttc with route := route, markChannel := if b = 0xFF then none else some (BitVec.ofNat 2 b.toNat),
                              fifo := if s.ttc.route = .toShow ∧ a ≠ 0 then [] else s.ttc.fifo } ∧
         Answered 0x47 .done [.deck] [] s t)) ∧
     (∃ t, exec (.audioLevel a b) s = .next t ∧ Answered 0x48 .done [.deck] [] s t ∧
       (s.ttc.muteImposed = true → t.ttc = { s.ttc with setLevel := a.toNat }) ∧
       (s.ttc.muteImposed = false → s.ttc.level = a.toNat ∨ b = 0 →
         t.ttc = { s.ttc with setLevel := a.toNat, level := a.toNat, ramp := none }) ∧
       (s.ttc.muteImposed = false → s.ttc.level ≠ a.toNat → b ≠ 0 →
         t.ttc = { s.ttc with setLevel := a.toNat, ramp := some ⟨s.ttc.level, a.toNat, 20 * b.toNat, 0, 0⟩ }))) ∧
  (∀ s : State, s.notices = [] →
     (∃ t, exec .writerToneEnd s = .next t ∧
       (∀ cls, s.ttc.writer = .tone cls →
         (s.ttc.writerTimer ≠ some 0 → Effect [] [] s t) ∧
         (s.ttc.writerTimer = some 0 → t.ttc = { s.ttc with writer := .quiet, writerTimer := some 20 } ∧
           Effect [.deck] [(.cueWritten, argPair 0 cls.number)] s t)) ∧
       ((s.ttc.writer = .idle ∨ s.ttc.writer = .quiet) → Effect [] [] s t)) ∧
     (∃ t, exec .writerQuietEnd s = .next t ∧
       (¬ (s.ttc.writer = .quiet ∧ s.ttc.writerTimer = some 0) → Effect [] [] s t) ∧
       (s.ttc.writer = .quiet → s.ttc.writerTimer = some 0 →
         t.ttc = { s.ttc with writer := .idle, writerTimer := none } ∧ Effect [.deck] [] s t)) ∧
     (∃ t, exec .audioRampStep s = .next t ∧
       (s.ttc.ramp = none → Effect [] [] s t) ∧
       (∀ r, s.ttc.ramp = some r → ∀ n, n = (r.target - r.start) + (r.start - r.target) →
         (r.elapsed < (r.steps + 1) * r.time / n → Effect [] [] s t) ∧
         ((r.steps + 1) * r.time / n ≤ r.elapsed →
           t.ttc = { s.ttc with
             level := if s.ttc.level < r.target then s.ttc.level + 1 else s.ttc.level - 1,
             ramp := if r.steps + 1 < n then some { r with steps := r.steps + 1 } else none } ∧
           Effect [.deck] [] s t))))

/-- What moves and ends the tape's motion. A TMOTN pulse is counted by the direction in force, restarts the stall watch,
advances the leader allowance, which ends the motion at its sixty-fourth pulse, and is checked against a locate's target (R93,
R94, R96 to R98). TEND brings a moving tape to BRAKING, the end of BRAKING stops it and carries the latched request out, and a
stall stops it at once (R92, R97, R98). Marked as the model's: an expiry, or a leader allowance's end, whose time has not come
changes nothing (assumption log 5); an edge to the level that stands changes nothing, the leader allowance is judged before the
locate's target, and TAPE_END and TAPE_STALL come before the CUE_WRITTEN of the burst they cut (assumption log 19). -/
def Obligations.TapeStops : Prop :=
  (∀ s : State, s.notices = [] → Deck s.ttc →
     ∀ counted, counted = { s.ttc with
       counter := if s.ttc.direction = .forward then s.ttc.counter + 1 else s.ttc.counter - 1,
       stallWatch := if s.ttc.state = .playing ∨ s.ttc.state = .recording then some 500 else s.ttc.stallWatch,
       leader := s.ttc.leader.map (· + 1) } →
     (∃ t, exec .tmotnPulse s = .next t ∧
       (s.ttc.state = .stopped → Effect [] [] s t) ∧
       (s.ttc.leader = some 63 → t.ttc = brakes counted none ∧
         Effect [.deck] ((.tapeEnd, counted.counter) :: cutBurst s.ttc) s t) ∧
       (∀ g, s.ttc.locateTarget = some g → s.ttc.leader ≠ some 63 → s.ttc.state = .locating →
         (if s.ttc.direction = .forward then g.toNat ≤ counted.counter.toNat else counted.counter.toNat ≤ g.toNat) →
         t.ttc = brakes counted none ∧ Effect [.deck] [(.locateDone, counted.counter)] s t) ∧
       (∀ g, s.ttc.locateTarget = some g → s.ttc.leader ≠ some 63 → s.ttc.state = .locating →
         ¬ (if s.ttc.direction = .forward then g.toNat ≤ counted.counter.toNat else counted.counter.toNat ≤ g.toNat) →
         t.ttc = counted ∧ Effect [.deck] [] s t) ∧
       (s.ttc.leader ≠ some 63 → s.ttc.state ≠ .locating → s.ttc.state ≠ .stopped →
         t.ttc = counted ∧ Effect [.deck] [] s t)) ∧
     (∃ t, exec .leaderAllowanceEnd s = .next t ∧
       (s.ttc.leader ≠ some 63 → Effect [] [] s t) ∧
       (s.ttc.leader = some 63 → t.ttc = brakes counted none ∧
         Effect [.deck] ((.tapeEnd, counted.counter) :: cutBurst s.ttc) s t))) ∧
  (∀ s : State, s.notices = [] →
     (∀ active, ∃ t, exec (.tendChange active) s = .next t ∧
       (active = s.ttc.tend → Effect [] [] s t) ∧
       (active = false → s.ttc.tend = true → t.ttc = { s.ttc with tend := false, leader := none } ∧
         Effect [.deck] [] s t) ∧
       (active = true → s.ttc.tend = false → s.ttc.state.moving = false → t.ttc = { s.ttc with tend := true } ∧
         Effect [.deck] [] s t) ∧
       (active = true → s.ttc.tend = false → s.ttc.state.moving = true →
         t.ttc = brakes { s.ttc with tend := true } none ∧
         Effect [.deck] ((.tapeEnd, s.ttc.counter) :: cutBurst s.ttc) s t)) ∧
     (∃ t, exec .brakingTimerExpiry s = .next t ∧
       (¬ (s.ttc.state = .braking ∧ s.ttc.brakingTimer = some 0) → Effect [] [] s t) ∧
       (∀ stopped, stopped = { s.ttc with state := .stopped, direction := .none, brakingTimer := none,
                                          latched := none } →
         s.ttc.state = .braking → s.ttc.brakingTimer = some 0 →
         (s.ttc.latched = none → t.ttc = stopped ∧ Effect [.deck] [] s t) ∧
         (∀ req, s.ttc.latched = some req → t.ttc = (carriedOut stopped req).1 ∧
           Effect [.deck] (carriedOut stopped req).2 s t))) ∧
     (∃ t, exec .stallWatchExpiry s = .next t ∧
       (¬ ((s.ttc.state = .playing ∨ s.ttc.state = .recording) ∧ s.ttc.stallWatch = some 0) → Effect [] [] s t) ∧
       ((s.ttc.state = .playing ∨ s.ttc.state = .recording) → s.ttc.stallWatch = some 0 →
         t.ttc = { recordingEnds s.ttc with state := .stopped, direction := .none, stallWatch := none,
                                            leader := none } ∧
         Effect [.deck] ((.tapeStall, s.ttc.counter) :: cutBurst s.ttc) s t)))

/-- The tape counter wraps, +1 from 65535 giving 0 and -1 from 0 giving 65535; status line 5 reports it, low byte first, and
is marked dirty at each change (R93). A pulse, the sixty-fourth of a leader allowance included, counts by the direction in
force, and TAPE_ZERO sets 0 (R94). A line that an idle Report Writer starts at once is clean again, so the mark is stated
while a write is in progress. That a LEADER_ALLOWANCE_END without a sixty-fourth pulse leaves the counter is the model's
reading (assumption log 5). -/
def Obligations.TapeCounter : Prop :=
  ∀ s : State, s.notices = [] → 5 < s.rw.lines.length → ∀ m, m = s.ttc.counter.toNat →
    (∀ c ∈ [Instr.tmotnPulse, Instr.leaderAllowanceEnd],
      ∀ counted, counted = decide (c = .tmotnPulse ∨ s.ttc.state.moving = true ∧ s.ttc.leader = some 63) →
      ∃ t, exec c s = .next t ∧
        (counted = true → s.ttc.direction = .forward → t.ttc.counter.toNat = if m = 65535 then 0 else m + 1) ∧
        (counted = true → s.ttc.direction = .reverse → t.ttc.counter.toNat = if m = 0 then 65535 else m - 1) ∧
        (counted = false ∨ s.ttc.direction = .none → t.ttc.counter = s.ttc.counter) ∧
        (t.lineData 5).getD 2 0 ++ (t.lineData 5).getD 1 0 = t.ttc.counter ∧
        (counted = true → s.ttc.direction ≠ .none → s.rw.job.isSome = true →
          (t.rw.lines.getD 5 LineRecord.reset).dirty = true)) ∧
    (s.pu.inReset = false → ∃ t, exec .tapeZero s = .next t ∧ t.ttc.counter = 0 ∧
      (t.lineData 5).getD 1 0 = 0 ∧ (t.lineData 5).getD 2 0 = 0 ∧
      (m ≠ 0 → s.rw.job.isSome = true → (t.rw.lines.getD 5 LineRecord.reset).dirty = true))

/-- A cue burst is measured from its first rising edge to its last falling edge, a gap of less than 8 ms bridged; a tone past
800 ms is stuck, and a stuck or resynchronising decoder listens again after 8 ms of quiet (R99, R101, R102). An expiry
whose time has not come, and an edge to the level that stands, change nothing: the model's reading (assumption logs 5
and 19). A falling edge taken at the instant of the stuck timer's expiry, and before it, ends the tone as any other does: the
model's choice (assumption log 36). -/
def Obligations.CueBurst : Prop :=
  ∀ s : State, s.notices = [] →
    (∀ rising, ∃ t, exec (.cueinEdge rising) s = .next t ∧
      (rising = s.ttc.cuein → Effect [] [] s t) ∧
      (rising = true → s.ttc.cuein = false →
        (s.ttc.decoder = .quiet →
          t.ttc = { s.ttc with cuein := true, decoder := .tone, burstStart := s.rw.uptime,
                               burstCount := s.ttc.counter, stuckTimer := some 801, past800 := false } ∧
          Effect [.deck] [] s t) ∧
        (s.ttc.decoder = .gap → s.ttc.past800 = false →
          t.ttc = { s.ttc with cuein := true, decoder := .tone, gapTimer := none } ∧ Effect [.deck] [] s t) ∧
        (s.ttc.decoder = .gap → s.ttc.past800 = true →
          t.ttc.decoder = .stuck ∧ Effect [.deck] [(.toneStuck, s.ttc.burstCount)] s t) ∧
        ((s.ttc.decoder = .stuck ∨ s.ttc.decoder = .resync) →
          t.ttc = { s.ttc with cuein := true, gapTimer := none } ∧ Effect [.deck] [] s t) ∧
        (s.ttc.decoder = .off → t.ttc = { s.ttc with cuein := true } ∧ Effect [.deck] [] s t)) ∧
      (rising = false → s.ttc.cuein = true →
        (s.ttc.decoder = .tone →
          t.ttc = { s.ttc with cuein := false, decoder := .gap, lastFall := s.rw.uptime, gapTimer := some 8 } ∧
          Effect [.deck] [] s t) ∧
        ((s.ttc.decoder = .stuck ∨ s.ttc.decoder = .resync) →
          t.ttc = { s.ttc with cuein := false, gapTimer := some 8 } ∧ Effect [.deck] [] s t) ∧
        (s.ttc.decoder = .off → t.ttc = { s.ttc with cuein := false } ∧ Effect [.deck] [] s t))) ∧
    (∃ t, exec .stuckTimerExpiry s = .next t ∧
      (s.ttc.stuckTimer ≠ some 0 ∨ s.ttc.decoder ≠ .tone ∧ s.ttc.decoder ≠ .gap → Effect [] [] s t) ∧
      (s.ttc.stuckTimer = some 0 → s.ttc.decoder = .tone →
        t.ttc.decoder = .stuck ∧ Effect [.deck] [(.toneStuck, s.ttc.burstCount)] s t) ∧
      (s.ttc.stuckTimer = some 0 → s.ttc.decoder = .gap →
        t.ttc = { s.ttc with stuckTimer := none, past800 := true } ∧ Effect [.deck] [] s t)) ∧
    (∃ t, exec .gapTimerExpiry s = .next t ∧
      (s.ttc.gapTimer ≠ some 0 → Effect [] [] s t) ∧
      (s.ttc.gapTimer = some 0 → (s.ttc.decoder = .stuck ∨ s.ttc.decoder = .resync) →
        t.ttc = { s.ttc with decoder := .quiet, gapTimer := none } ∧ Effect [.deck] [] s t))

/-- The class of a burst by its length, both ends of each range included: 20 to 60 ms ADVANCE, 80 to 140 REVERSE, 180 to
260 MARK, 400 to 800 STOP, and any other length no cue (R100). At the end of its gap a burst with a class is logged and
handed to the routing with its start count, its class and its last fall; any other is logged CUE_INVALID with its length.
TO_SHOW fills the FIFO, whose overrun is logged (R104, R105). DIRECT turns a STOP into a stop of the tape (R91, R92), a MARK
into a trigger of the MARK channel (R152, R154), and an ADVANCE or a REVERSE into a step of the TAPE source, which is granted,
refused, preempts or waits as the arbiter finds it (R130, R133, R136, R137, R142). CUE_DECODED before the entry of the block
that acts on the cue, an order that R213 leaves open, is the model's (assumption log 4), and so is CUE_INVALID with the
length 801 for a fall taken at the instant of the stuck timer's expiry and before it (assumption log 36). -/
def Obligations.CueClasses : Prop :=
  (∀ length : Nat,
     (classOf? length = some .advance ↔ 20 ≤ length ∧ length ≤ 60) ∧
     (classOf? length = some .reverse ↔ 80 ≤ length ∧ length ≤ 140) ∧
     (classOf? length = some .mark ↔ 180 ≤ length ∧ length ≤ 260) ∧
     (classOf? length = some .stop ↔ 400 ≤ length ∧ length ≤ 800) ∧
     (classOf? length = none ↔ length < 20 ∨ 61 ≤ length ∧ length ≤ 79 ∨ 141 ≤ length ∧ length ≤ 179 ∨
       261 ≤ length ∧ length ≤ 399 ∨ 801 ≤ length)) ∧
  ∀ s : State, s.notices = [] →
    ∀ heard : Ttc, heard = { s.ttc with decoder := .quiet, gapTimer := none, stuckTimer := none, past800 := false } →
    ∀ length, length = (s.ttc.lastFall - s.ttc.burstStart).toNat →
    s.ttc.gapTimer = some 0 → s.ttc.decoder = .gap →
    ∃ t, exec .gapTimerExpiry s = .next t ∧
    (classOf? length = none → t.ttc = heard ∧ Effect [.deck] [(.cueInvalid, halfOf length)] s t) ∧
    (∀ cls, classOf? length = some cls → ∀ decoded, decoded = (Event.cueDecoded, halfOf cls.number) →
      (s.ttc.route = .off → t.ttc = heard ∧ Effect [.deck] [decoded] s t) ∧
      (s.ttc.route = .toShow → s.ttc.fifo.length < 8 → s.ce.awaits? 2 = none →
        t.ttc = { heard with fifo := s.ttc.fifo ++ [⟨cls, s.ttc.burstCount, s.ttc.lastFall⟩] } ∧
        Effect [.deck] [decoded] s t) ∧
      (s.ttc.route = .toShow → 8 ≤ s.ttc.fifo.length →
        t.ttc = heard ∧ Effect [.deck] [decoded, (.cueOverrun, halfOf cls.number)] s t) ∧
      (s.ttc.route = .direct → cls = .stop →
        (s.ttc.state = .stopped → t.ttc = heard ∧ Effect [.deck] [decoded] s t) ∧
        (s.ttc.state = .braking → t.ttc = { heard with latched := none } ∧ Effect [.deck] [decoded] s t) ∧
        (s.ttc.state.moving = true → t.ttc = brakes heard none ∧ Effect [.deck] (decoded :: cutBurst heard) s t)) ∧
      (s.ttc.route = .direct → cls = .mark →
        (s.ttc.markChannel = none → t.ttc = heard ∧ Effect [.deck] [decoded] s t) ∧
        (∀ c, s.ttc.markChannel = some c → ∀ k, k = s.rcu.channels.get c →
          ∀ wanted, wanted = s.rcu.channels.set c { k with
            request := true, armed := k.armed || k.demand, dwellTimer := none } →
          (k.mask = true ∨ k.request = true → t.ttc = heard ∧ Effect [.deck] [decoded] s t) ∧
          (k.mask = false → k.request = false → s.rcu.pendingMarker ≠ none →
            t.ttc = heard ∧ t.rcu = { s.rcu with channels := wanted } ∧ Effect [.deck, .channels] [decoded] s t) ∧
          (k.mask = false → k.request = false → s.rcu.pendingMarker = none → s.rcu.serviceMarker = none →
            (∀ other, (s.rcu.channels.get other).request = false) → s.tmc.state = .jammed → s.ca.inService = none →
            s.ca.slots.run = none →
            t.ttc = heard ∧ t.rcu = { s.rcu with pendingMarker := some ⟨c, false⟩, channels := wanted } ∧
            t.ca = { s.ca with slots := { s.ca.slots with run := some ⟨.changeTo k.slot, s.ca.levels.run⟩ } } ∧
            Effect [.deck, .channels, .arbiter] [decoded] s t))) ∧
      (s.ttc.route = .direct → cls = .advance ∨ cls = .reverse →
        ∀ step, step = OpKind.moveBy (if cls = .advance then 1 else -1) →
        ∀ new, new = { kind := step, source := .tape, level := s.ca.levels.tape : Operation } →
        ∀ shut, shut = decide (s.cu.flag = true ∧ s.cu.traySel ≠ .ignore) →
        ∀ rests, rests = decide (s.ca.inService = none ∧
          (s.tmc.state = .ready ∨ s.tmc.state = .unhomed ∨ s.tmc.state = .noTray)) →
        ∀ others, others = (s.ca.slots.directive.isSome || s.ca.slots.cue.isSome || s.ca.slots.remote.isSome ||
          s.ca.slots.run.isSome) →
        t.ttc = heard ∧
        (∀ kind, kind = (match s.ca.slots.tape with
            | none => step
            | some r => mergeKinds s.tmc.n r.kind step) →
          shut = true ∨ s.ca.masks.tape = true ∧ (rests = false ∨ others = false) ∨
            rests = false ∧ (∀ old, s.ca.inService = some old → old.level ≤ s.ca.levels.tape ∨ s.tmc.homed = false ∨
              s.tmc.state ≠ .darken ∧ s.tmc.state ≠ .turn) →
          t.ca = { s.ca with slots := { s.ca.slots with tape := some ⟨kind, s.ca.levels.tape⟩ } } ∧
          Effect [.deck, .arbiter] [decoded] s t) ∧
        (shut = false → s.ca.masks.tape = false → rests = true → others = false → s.ca.slots.tape = none →
          (s.tmc.state = .ready → s.tmc.n ≠ 0 →
            t.tmc.state = .darken ∧ t.tmc.op = some new ∧ t.tmc.target = some (targetOf s.tmc step) ∧
            t.ca = { s.ca with inService := some new } ∧
            Effect [.deck, .arbiter, .mechanism, .lamp] [decoded] s t) ∧
          (s.tmc.state = .unhomed → t.ca = s.ca ∧
            Effect [.deck, .arbiter] [decoded, (.requestsDiscarded, 0x0508)] s t) ∧
          (s.tmc.state = .noTray → t.ca = s.ca ∧
            Effect [.deck, .arbiter] [decoded, (.requestsDiscarded, 0x0608)] s t)) ∧
        (∀ old, s.ca.inService = some old → s.tmc.op = some old →
          shut = false → s.ca.masks.tape = false → s.ca.slots.tape = none → s.ca.levels.tape < old.level →
          s.tmc.homed = true → s.tmc.n ≠ 0 → s.tmc.state = .darken ∨ s.tmc.state = .turn ∧ s.tmc.homing = false →
          old.source = .directive ∨ old.source = .remote ∨ old.source = .tape →
          t.ca = { s.ca with inService := some new } ∧
          t.tmc = { s.tmc with op := some new, fromUnhomed := false, liftRetried := false, seatRetried := false,
                               target := some (targetOf s.tmc step),
                               redirect := if s.tmc.state = .turn then true else s.tmc.redirect } ∧
          Effect [.deck, .arbiter, .mechanism] [decoded, (.preempted, argPair old.source.number s.tmc.p)] s t)))

/-! ## The remote (06) -/

/-- The frame receiver: each level on RLINE is measured at the edge that ends it, pulses and spaces in their ranges
build the frame, and anything else fails it (R113, R114, R116). An expiry whose time has not come changes nothing: the
model's reading (assumption log 5). An edge carries the length of the level it ends (assumption log 13), and one to the
level that stands changes nothing (assumption log 19). FRAME_ERROR taken as a row acts only where its kind can happen, with
the line at the level which that failure leaves (assumption log 20). -/
def Obligations.RemoteLine : Prop :=
  ∀ s : State, s.notices = [] →
    (∀ (rising : Bool) (micros : Nat), ∃ t, exec (.rlineEdge rising micros) s = .next t ∧
      (rising = s.rr.rline → Effect [] [] s t) ∧
      (rising = false → s.rr.rline = true →
        (s.rr.receiver = .listen →
          t.rr = { s.rr with rline := false, receiver := .start, lowLimit := some 3 } ∧ Effect [.remote] [] s t) ∧
        (s.rr.receiver = .resync → t.rr = { s.rr with rline := false, idleTimer := none } ∧ Effect [.remote] [] s t) ∧
        (∀ bits, s.rr.receiver = .space bits →
          (bits.length ≠ 12 → 450 ≤ micros → micros ≤ 750 →
            t.rr = { s.rr with rline := false, receiver := .bit bits, frameEnd := none, lowLimit := some 3 } ∧
            Effect [.remote] [] s t) ∧
          (bits.length ≠ 12 → micros < 450 ∨ 750 < micros →
            t.rr = frameFails { s.rr with rline := false } false ∧
            Effect [.remote] [(.frameError, argPair 3 bits.length)] s t) ∧
          (bits.length = 12 → t.rr = frameFails { s.rr with rline := false } false ∧
            Effect [.remote] [(.frameError, argPair 5 12)] s t))) ∧
      (rising = true → s.rr.rline = false →
        (s.rr.receiver = .resync → t.rr = { s.rr with rline := true, idleTimer := some 3 } ∧
          Effect [.remote] [] s t) ∧
        (s.rr.receiver = .start → 1800 ≤ micros → micros ≤ 3000 →
          t.rr = { s.rr with rline := true, receiver := .space [], lowLimit := none, frameEnd := some 3 } ∧
          Effect [.remote] [] s t) ∧
        (s.rr.receiver = .start → micros < 1800 ∨ 3000 < micros →
          t.rr = frameFails { s.rr with rline := true } false ∧ Effect [.remote] [(.frameError, argPair 1 0)] s t) ∧
        (∀ bits, s.rr.receiver = .bit bits →
          (450 ≤ micros → micros ≤ 750 →
            t.rr = { s.rr with rline := true, receiver := .space (bits ++ [false]), lowLimit := none,
                               frameEnd := some 3 } ∧ Effect [.remote] [] s t) ∧
          (900 ≤ micros → micros ≤ 1500 →
            t.rr = { s.rr with rline := true, receiver := .space (bits ++ [true]), lowLimit := none,
                               frameEnd := some 3 } ∧ Effect [.remote] [] s t) ∧
          (micros < 450 ∨ 750 < micros ∧ micros < 900 ∨ 1500 < micros →
            t.rr = frameFails { s.rr with rline := true } false ∧
            Effect [.remote] [(.frameError, argPair 2 bits.length)] s t)))) ∧
    (∀ failure, ∃ t, exec (.frameError failure) s = .next t ∧
      (canFail s.rr failure = false → Effect [] [] s t) ∧
      (canFail s.rr failure = true →
        t.rr = frameFails { s.rr with rline := lineAfter s.rr failure } (endsInListen s.rr failure) ∧
        Effect [.remote] [(.frameError, argPair (FrameFailure.number failure) s.rr.receiver.bits.length)] s t)) ∧
    (∃ t, exec .lowLimitExpiry s = .next t ∧
      (canFail s.rr .stuckLow = false → Effect [] [] s t) ∧
      (canFail s.rr .stuckLow = true → t.rr = frameFails s.rr false ∧
        Effect [.remote] [(.frameError, argPair 4 s.rr.receiver.bits.length)] s t)) ∧
    (∃ t, exec .idleTimerExpiry s = .next t ∧
      (¬ (s.rr.receiver = .resync ∧ s.rr.idleTimer = some 0) → Effect [] [] s t) ∧
      (s.rr.receiver = .resync → s.rr.idleTimer = some 0 →
        t.rr = { s.rr with receiver := .listen, idleTimer := none } ∧ Effect [.remote] [] s t))

/-- A completed frame is checked, addressed, and taken as a repeat or a new press, which acts by its key's entry (R114,
R115, R118, R121, R122, R124). A press that an AWAIT_KEY waits for is consumed: it resolves the await and does none of
the key's actions (R121, R180). A frame of another key, or of the same key with the toggle flipped, releases the key
held first, with what its release leads to: a step that it deposits stands before the press acts, and a show that it
resumes makes its checks before the press is offered, a timeout reached among them (R118, R119, R168, R178). A resolved
await is held while the CUE slot is occupied, and is otherwise issued, its slide change granted at once or pending, and
goes on to its successor (R136, R173, R174, R176, R183). The staged entry 1 that is this successor becomes current,
valid or still loading; another one is a path miss, which empties the queue and fetches the successor afresh; with no
entry 1 the successor is placed and fetched, or, beyond the store, the show halts and the pending request is withdrawn
(R145, R186, R189). A record that enters WAITING has the prediction go on behind it; an END ends the show there and a
bad record halts it (R165, R171, R185). After such a timeout the press is no longer the show's, unless the new current
record is an AWAIT_KEY of the same key, which is not stated here. An expiry whose time has not come changes nothing: the
model's reading (assumption log 5). That a focus key starts no repeat timer under any policy is the model's choice
(assumption log 33), and that KEY is logged before what the press leads to is its reading (assumption log 20). That L0
is the fade level of a fade that starts is the model's reading (assumption log 14), and so are CUE_LATE of a record that
was never held and its place after MARK (assumption log 24). That the prediction comes before a new current record acts
is the model's choice (assumption log 34), and so is the count that a withdrawal leaves while the Report Writer writes
(assumption log 30). The order of the entries of several blocks, which R213 leaves open, is the model's (assumption log
4). -/
def Obligations.RemoteFrame : Prop :=
  ∀ s : State, s.notices = [] → ∃ t, exec .remoteFrame s = .next t ∧
    (s.rr.frameBits? = none → Effect [] [] s t) ∧
    (∀ bits, s.rr.frameBits? = some bits →
      ∀ done, done = { s.rr with receiver := .listen, frameEnd := none } →
      ∀ key, key = BitVec.ofNat 5 (frameField bits 4 5) → ∀ toggle, toggle = bits.getD 9 false →
      ∀ unit, unit = frameField bits 0 4 →
      ∀ accepted, accepted = decide (s.rr.enabled = true ∧ (unit = s.rr.unit.toNat ∨ unit = 15)) →
      (frameField bits 10 2 ≠ (bits.take 10).count true % 4 → t.rr = frameFails s.rr true ∧
        Effect [.remote] [(.frameError, argPair 6 12)] s t) ∧
      (frameField bits 10 2 = (bits.take 10).count true % 4 →
        (accepted = false → t.rr = done ∧ Effect [.remote] [] s t) ∧
        (∀ h, s.rr.held = some h → accepted = true → h.key = key → h.toggle = toggle →
          t.rr = { done with releaseTimer := some 250 } ∧ Effect [.remote] [] s t) ∧
        (accepted = true → s.rr.held = none → s.ce.takesKey key = false →
          ∀ e, e = s.rr.entry key → ∀ pressed, pressed = keyPressed done key toggle false →
          (e.policy = 2 → e.effective ≠ 6 → e.effective ≠ 7 →
            t.rr = pressed ∧ Effect [.remote] [(.key, argPair 0 key.toNat)] s t) ∧
          (e.effective = 0 →
            t.rr = { pressed with repeatTimer := if e.policy = 1 ∧ 0 < e.interval then some (100 * e.interval)
                                                 else s.rr.repeatTimer } ∧
            Effect [.remote] [(.key, argPair 0 key.toNat)] s t) ∧
          (e.effective = 6 →
            t.rr = (if s.rr.flim = true ∧ s.rr.limitSide = .inward then pressed
              else { pressed with focus := .inward,
                                  escapeWatch := if s.rr.flim = true ∧ s.rr.limitSide = .unknown then some 300
                                                 else none }) ∧
            Effect [.remote] [(.key, argPair 0 key.toNat)] s t) ∧
          (e.effective = 7 →
            t.rr = (if s.rr.flim = true ∧ s.rr.limitSide = .outward then pressed
              else { pressed with focus := .outward,
                                  escapeWatch := if s.rr.flim = true ∧ s.rr.limitSide = .unknown then some 300
                                                 else none }) ∧
            Effect [.remote] [(.key, argPair 0 key.toNat)] s t) ∧
          (1 ≤ e.effective → e.effective ≤ 4 → e.policy = 0 → s.tmc.state = .jammed → s.ca.inService = none →
            s.ca.slots.remote = none →
            t.rr = pressed ∧
            t.ca = { s.ca with slots := { s.ca.slots with remote := some ⟨
              (if e.effective = 1 then .moveBy 1 else if e.effective = 2 then .moveBy (-1)
                else if e.effective = 3 then .changeTo e.argument else .clearGate), s.ca.levels.remote⟩ } } ∧
            Effect [.remote, .arbiter] [(.key, argPair 0 key.toNat)] s t) ∧
          (e.effective = 11 → e.policy = 0 → s.cu.enabled .remoteStop = true →
            t.rr = pressed ∧ t.cu.flag = true ∧ t.cu.inSet .remoteStop = true)) ∧
        (accepted = true → s.rr.held = none → ∀ r, s.ce.awaits? 3 = some r → recWaitArg r = key.toNat →
          t.rr = keyPressed done key toggle true ∧
          Resolves s r false (stepFrame [.remote] [(.key, argPair 1 key.toNat)] s t) t) ∧
        (∀ h, s.rr.held = some h → accepted = true → ¬ (h.key = key ∧ h.toggle = toggle) →
          ∀ released, released = keyReleased done → ∀ e, e = s.rr.entry key → ∀ old, old = s.rr.entry h.key →
          (s.ce.takesKey key = false → e.effective = 0 → e.policy ≠ 1 →
            (old.policy ≠ 2 ∨ h.consumed = true →
              t.rr = keyPressed released key toggle false ∧ Effect [.remote] [(.key, argPair 0 key.toNat)] s t) ∧
            (old.policy = 2 → h.consumed = false → old.effective = 1 ∨ old.effective = 2 → s.tmc.state = .jammed →
              s.ca.inService = none → s.ca.slots.remote = none →
              t.rr = keyPressed released key toggle false ∧
              t.ca = { s.ca with slots := { s.ca.slots with remote := some ⟨
                .moveBy (if old.effective = 1 then 1 else -1), s.ca.levels.remote⟩ } } ∧
              Effect [.remote, .arbiter] [(.key, argPair 0 key.toNat)] s t)) ∧
          (old.policy = 2 → h.consumed = false → old.effective = 8 → s.ce.showState = .paused →
            ∀ ce, ce = { s.ce with showState := .running } → ∀ r, ce.awaits? 3 = some r → recWaitArg r = key.toNat →
            ∀ expired, expired = decide (0 < recTime r ∧
              reached s.ce.clock (s.ce.startInstant + BitVec.ofNat 32 (10 * recTime r)) = true) →
            (expired = false → t.rr = keyPressed released key toggle true ∧
              Resolves { s with ce := ce } r false (stepFrame [.remote] [(.key, argPair 1 key.toNat)] s t) t) ∧
            (expired = true → e.effective = 0 → e.policy ≠ 1 →
              (∀ k, s.ce.queue[1]? = some k → k.valid = true → recForm k.copy ≠ 3 ∨ recWaitArg k.copy ≠ key.toNat) →
              Resolves { s with ce := ce } r true (fun parts now after =>
                t.rr = keyPressed released key toggle false ∧
                stepFrame [.remote] [(.awaitTimeout, halfOf s.ce.index)] s t parts now
                  (after ++ [(.key, argPair 0 key.toNat)])) t)))))

/-- The held key: its release ends it and performs a RELEASE entry's action, and its repeat timer performs a REPEAT
entry's action again (R119, R122, R123). An expiry whose time has not come changes nothing: the model's reading
(assumption log 5). -/
def Obligations.RemoteKeys : Prop :=
  ∀ s : State, s.notices = [] →
    (∃ t, exec .releaseTimerExpiry s = .next t ∧
      (s.rr.releaseTimer ≠ some 0 ∨ s.rr.held = none → Effect [] [] s t) ∧
      (∀ h, s.rr.held = some h → ∀ e, e = s.rr.entry h.key → s.rr.releaseTimer = some 0 →
        t.rr = keyReleased s.rr ∧
        (e.policy ≠ 2 ∨ h.consumed = true ∨ e.effective = 0 ∨ e.effective = 6 ∨ e.effective = 7 →
          Effect [.remote] [] s t) ∧
        (e.policy = 2 → h.consumed = false → e.effective = 1 ∨ e.effective = 2 → s.tmc.state = .jammed →
          s.ca.inService = none → s.ca.slots.remote = none →
          t.ca = { s.ca with slots := { s.ca.slots with remote := some ⟨
            .moveBy (if e.effective = 1 then 1 else -1), s.ca.levels.remote⟩ } } ∧
          Effect [.remote, .arbiter] [] s t))) ∧
    (∃ t, exec .repeatTimerExpiry s = .next t ∧
      (s.rr.repeatTimer ≠ some 0 ∨ s.rr.held = none → Effect [] [] s t) ∧
      (∀ h, s.rr.held = some h → ∀ e, e = s.rr.entry h.key → s.rr.repeatTimer = some 0 →
        (e.policy ≠ 1 ∨ e.interval = 0 → t.rr = { s.rr with repeatTimer := none } ∧ Effect [.remote] [] s t) ∧
        (e.policy = 1 → 0 < e.interval →
          t.rr = { s.rr with repeatTimer := some (100 * e.interval) } ∧
          (e.effective = 0 ∨ e.effective = 6 ∨ e.effective = 7 → Effect [.remote] [] s t) ∧
          (e.effective = 1 ∨ e.effective = 2 → s.tmc.state = .jammed → s.ca.inService = none →
            s.ca.slots.remote = none →
            t.ca = { s.ca with slots := { s.ca.slots with remote := some ⟨
              .moveBy (if e.effective = 1 then 1 else -1), s.ca.levels.remote⟩ } } ∧
            Effect [.remote, .arbiter] [] s t))))

/-- REMOTE_SETUP, and the focus limit: FLIM becoming active or the escape watch's expiry ends a drive at its limit,
and FLIM becoming inactive makes the limit side unknown (R117, R125). An expiry whose time has not come changes
nothing: the model's reading (assumption log 5). An event to the level that stands changes nothing: the model's
reading (assumption log 19). -/
def Obligations.RemoteSetupAndFocus : Prop :=
  (∀ (unit enable : Byte) (s : State), Ready s → ∃ t, exec (.remoteSetup unit enable) s = .next t ∧
    (15 < unit.toNat ∨ 1 < enable.toNat → Answered 0x02 .badOperand [] [] s t) ∧
    (unit.toNat ≤ 15 → enable.toNat ≤ 1 →
      t.rr = { s.rr with unit := BitVec.ofNat 4 unit.toNat, enabled := decide (enable = 1) } ∧
      Answered 0x02 .done [.remote] [] s t)) ∧
  (∀ s : State, s.notices = [] →
    (∀ active, ∃ t, exec (.flimChange active) s = .next t ∧
      (active = s.rr.flim → Effect [] [] s t) ∧
      (active = true → s.rr.flim = false →
        t.rr = (match s.rr.focus with
          | .stopped => { s.rr with flim := true }
          | .inward => { s.rr with flim := true, focus := .stopped, escapeWatch := none, limitSide := .inward }
          | .outward => { s.rr with flim := true, focus := .stopped, escapeWatch := none, limitSide := .outward }) ∧
        Effect [.remote] [] s t) ∧
      (active = false → s.rr.flim = true →
        t.rr = { s.rr with flim := false, limitSide := .unknown, escapeWatch := none } ∧ Effect [.remote] [] s t)) ∧
    (∃ t, exec .escapeWatchExpiry s = .next t ∧
      (s.rr.escapeWatch ≠ some 0 ∨ s.rr.focus = .stopped → Effect [] [] s t) ∧
      (s.rr.escapeWatch = some 0 → s.rr.focus ≠ .stopped →
        t.rr = { s.rr with focus := .stopped, escapeWatch := none,
                           limitSide := if s.rr.focus = .inward then .inward else .outward } ∧
        Effect [.remote] [] s t)))


/-! ## Change arbitration (07) -/

/-- ARB_LEVELS sets the five levels and restamps the pending records, and ARB_MASK sets the five masks; a nonzero unused
bit is BAD_OPERAND (R134). A mask that is cleared while the mechanism is available leads to a selection (R135), which
refuses what an empty tray well cannot take (R137, R140). -/
def Obligations.ArbiterSettings : Prop :=
  ∀ (b0 b1 : Byte) (s : State), Ready s →
    (∃ t, exec (.arbLevels b0 b1) s = .next t ∧
      (4 ≤ b1.toNat → Answered 0x50 .badOperand [] [] s t) ∧
      (b1.toNat < 4 →
        t.ca.levels = ⟨b0.extractLsb' 0 2, b0.extractLsb' 2 2, b0.extractLsb' 4 2, b0.extractLsb' 6 2,
          b1.extractLsb' 0 2⟩ ∧
        (∀ source, t.ca.slots.get source =
          (s.ca.slots.get source).map fun r => { r with level := t.ca.levels.get source }) ∧
        t.ca.masks = s.ca.masks ∧ t.ca.inService = s.ca.inService ∧ Answered 0x50 .done [.arbiter] [] s t)) ∧
    (∀ masks : PerSource Bool, masks = ⟨b0.getLsbD 0, b0.getLsbD 1, b0.getLsbD 2, b0.getLsbD 3, b0.getLsbD 4⟩ →
      ∃ t, exec (.arbMask b0) s = .next t ∧
      (32 ≤ b0.toNat → Answered 0x51 .badOperand [] [] s t) ∧
      (b0.toNat < 32 → (∀ source, s.ca.masks.get source = true → masks.get source = true) ∨
        s.tmc.state = .jammed ∨ (s.cu.flag = true ∧ s.cu.traySel ≠ .ignore) ∨
        (∀ source, s.ca.slots.get source = none) →
        t.ca = { s.ca with masks := masks } ∧ Answered 0x51 .done [.arbiter] [] s t) ∧
      (∀ r, s.ca.slots.remote = some r → b0 = 0 → s.ca.masks.remote = true → s.tmc.state = .noTray →
        s.ca.inService = none → s.cu.flag = false → s.ca.slots = { s.ca.slots with
          directive := none, cue := none, tape := none, run := none } →
        t.ca = { s.ca with masks := masks, slots := { s.ca.slots with remote := none } } ∧
        Answered 0x51 .done [.arbiter] [(.requestsDiscarded, 0x0604)] s t))

/-- The choice of a selection: among the sources that are not masked and hold a record, the lowest level number, and among
equal levels the lowest rank (R136). An ARB_MASK that clears a mask while the mechanism stands READY leads to a selection,
which grants the record chosen among all that are pending: it leaves its slot and goes into service with its level, the
mechanism darkens toward the target that it resolves at that instant, and the owner of a CUE or RUN record moves its marker
(R5, R134 to R136, R155, R175). A REMOTE or TAPE step merges with the record pending from its source (R133). -/
def Obligations.ArbiterChoice : Prop :=
  (∀ s : State,
    (s.ca.best? = none ↔ ∀ source, s.ca.masks.get source = true ∨ s.ca.slots.get source = none) ∧
    ∀ best, s.ca.best? = some best →
      s.ca.masks.get best.1 = false ∧ s.ca.slots.get best.1 = some best.2 ∧
      ∀ source, s.ca.masks.get source = false → ∀ r, s.ca.slots.get source = some r →
        best.2.level < r.level ∨ best.2.level = r.level ∧ best.1.number ≤ source.number) ∧
  (∀ (n t : Nat) (j : Int), -9 ≤ j → j ≤ 9 →
    (∀ k : Int, mergeKinds n (.moveBy k) (.moveBy j) = .moveBy (max (-9) (min 9 (k + j)))) ∧
    (n ≠ 0 → t ≤ n → mergeKinds n (.changeTo t) (.moveBy j) = .changeTo (((t : Int) + j) % (n + 1)).toNat) ∧
    (n = 0 ∨ n < t → mergeKinds n (.changeTo t) (.moveBy j) = .moveBy j) ∧
    mergeKinds n .clearGate (.moveBy j) = .moveBy j ∧
    ∀ old slot, mergeKinds n old (.changeTo slot) = .changeTo slot ∧ mergeKinds n old .clearGate = .clearGate) ∧
  (∀ (b : Byte) (s : State), Ready s → b.toNat < 32 →
    ∀ ca, ca = { s.ca with masks := ⟨b.getLsbD 0, b.getLsbD 1, b.getLsbD 2, b.getLsbD 3, b.getLsbD 4⟩ } →
    (∃ source, s.ca.masks.get source = true ∧ ca.masks.get source = false) →
    s.tmc.state = .ready → s.tmc.homed = true → s.ca.inService = none → (s.cu.flag = false ∨ s.cu.traySel = .ignore) →
    ∀ best, ca.best? = some best → ∀ op, op = (⟨best.2.kind, best.1, best.2.level⟩ : Operation) →
    ∀ g, g = targetOf s.tmc op.kind → (∀ slot, op.kind = .changeTo slot → slot ≤ s.tmc.n) →
    ¬ (changesSlide op.kind = true ∧ g = s.tmc.p ∧ s.tmc.gate = .loaded) →
    (best.1 = .cue → ¬ (s.ce.showState = .running ∧ s.ce.phase = .held)) →
    (best.1 = .run → ∀ other, (s.rcu.channels.get other).mask = true ∨
      (s.rcu.channels.get other).request = false ∨ s.rcu.pendingMarker = some ⟨other, false⟩) →
    ∃ t, exec (.arbMask b) s = .next t ∧ t.tmc.op = some op ∧ t.tmc.state = .darken ∧ t.tmc.darkenLimit = some 1000 ∧
      t.tmc.target = some g ∧ t.lc.holdLevel = some s.tmc.blackout ∧
      t.ca = { ca with inService := some op, slots := s.ca.slots.set best.1 none } ∧
      t.ce = (if best.1 = .cue ∧ s.ce.pendingMarker ≠ none then
        { s.ce with serviceMarker := s.ce.pendingMarker, pendingMarker := none } else s.ce) ∧
      (best.1 ≠ .run ∨ s.rcu.pendingMarker = none → t.rcu = s.rcu) ∧
      (∀ m, s.rcu.pendingMarker = some m → best.1 = .run → t.rcu = { s.rcu with
        serviceMarker := some m, pendingMarker := none,
        pointer := if s.rcu.rotating = true ∧ m.detached = false then m.channel + 1 else s.rcu.pointer }) ∧
      Answered 0x51 .done ([.arbiter, .mechanism, .lamp] ++ (if best.1 = .cue then [.engine] else []) ++
        (if best.1 = .run then [.channels] else [])) [] s t)

/-- A HOME, GOTO_SLOT, MOVE_BY or CLEAR_GATE of strictly lower level takes over a change that is darkening, or turning
but not homing: the ousted request is PREEMPTED, the new one is in service, with its target resolved against the last
position, and in TURN it is recorded for the next arrival (R22, R23, R140 to R142, R201). A HOME in DARKEN sets HOMING,
clears the homed flag and samples GSLIDE; that one in TURN does not sample it is the model's reading (assumption log
17). A GOTO_SLOT or MOVE_BY whose target is the slot that stands in the lit gate, which can be only in DARKEN, is done
at once: the hold is released with the in time, the mechanism is READY and CHANGE_DONE is logged, here with nothing else
pending (R22, R49). Any other deposit while an operation is in service waits in its slot (R141). That PREEMPTED comes
before CHANGE_DONE is the model's choice, an order that R213 leaves open (assumption log 4). -/
def Obligations.Preemption : Prop :=
  ∀ (c : Instr) (s : State), Ready s → Mechanism s.tmc → ∀ q, requestOf c = some q → ∀ old, s.tmc.op = some old →
    s.ca.inService = some old → s.ca.slots.directive = none → s.tmc.n ≠ 0 →
    (∀ slot, q.kind = .changeTo slot → slot ≤ s.tmc.n) → ∀ g, g = targetOf s.tmc q.kind →
    ∀ new, new = { kind := q.kind, source := .directive, level := s.ca.levels.directive : Operation } →
    ∀ may, may = decide (s.ca.masks.directive = false ∧ s.ca.levels.directive < old.level ∧ s.tmc.homed = true ∧
      (s.tmc.state = .darken ∨ s.tmc.state = .turn) ∧ (s.cu.flag = false ∨ s.cu.traySel = .ignore)) →
    ∀ standing, standing = decide (changesSlide q.kind = true ∧ g = s.tmc.p ∧ s.tmc.gate = .loaded) →
    ∃ t, exec c s = .next t ∧
      (may = true → (old.source = .directive ∨ old.source = .remote ∨ old.source = .tape) →
        (standing = false → ∀ m, m = (if q.kind = .home ∧ s.tmc.state = .darken then
            { s.tmc with homing := true, homed := false, display := 0xFFF,
                         gate := if s.tmc.sensors.gslide then .loaded else .empty }
          else s.tmc) →
          t.ca = { s.ca with inService := some new } ∧
          t.tmc = { m with op := some new, fromUnhomed := false, liftRetried := false, seatRetried := false,
                           target := some g,
                           redirect := if s.tmc.state = .turn then true else s.tmc.redirect } ∧
          Answered q.code q.result [.arbiter, .mechanism] [(.preempted, argPair old.source.number s.tmc.p)] s t) ∧
        (standing = true → s.tmc.state = .darken ∧
          ((∀ source, s.ca.slots.get source = none) →
            t.ca = { s.ca with inService := none } ∧
            t.tmc = { s.tmc with op := none, fromUnhomed := false, liftRetried := false, seatRetried := false,
                                 target := some g, redirect := false, state := .ready, darkenLimit := none,
                                 darkenStanding := false } ∧
            (s.lc.state ≠ .striking → t.lc.hold = .none) ∧
            (s.lc.state = .lit → s.lc.hold ≠ .none → t.lc.stored = none ∧
              t.lc.fade = some (match s.lc.stored with
                | some f => ⟨s.lc.output, f.target, f.curve, f.duration, 0⟩
                | none => ⟨s.lc.output, s.lc.showLevel, 4, s.tmc.inTime, 0⟩)) ∧
            Answered q.code q.result [.arbiter, .mechanism, .lamp]
              [(.preempted, argPair old.source.number s.tmc.p), (.changeDone, argPair 0 s.tmc.p)] s t))) ∧
      (may = false →
        t.ca = { s.ca with slots := { s.ca.slots with directive := some ⟨q.kind, s.ca.levels.directive⟩ } } ∧
        Answered q.code q.result [.arbiter] [] s t)

/-! ## Run channels (08) -/

/-- RUN_LOAD, RUN_CLEAR_ALL and RUN_ORDER: the loaded run starts from its base with its flags clear and its mask kept,
the master-cleared channels are masked, and a record at the arbiter is detached from the channel it named (R150, R161,
R162). -/
def Obligations.RunSettings : Prop :=
  (∀ (channel slot count mode dwell : Byte) (s : State), Ready s → ∀ c, c = BitVec.ofNat 2 channel.toNat →
    ∃ t, exec (.runLoad channel slot count mode dwell) s = .next t ∧
      (3 < channel.toNat ∨ slot = 0 ∨ 120 < slot.toNat ∨ 119 < count.toNat ∨ 8 ≤ mode.toNat ∨ dwell = 0 →
        Answered 0x60 .badOperand [] [] s t) ∧
      (channel.toNat ≤ 3 → slot ≠ 0 → slot.toNat ≤ 120 → count.toNat ≤ 119 → mode.toNat < 8 → dwell ≠ 0 →
        t.rcu.channels.get c = { s.rcu.channels.get c with
          baseSlot := slot.toNat, baseCount := count.toNat, slot := slot.toNat, count := count.toNat,
          demand := mode.getLsbD 0, down := mode.getLsbD 1, reload := mode.getLsbD 2, dwell := dwell.toNat,
          tc := false, range := false, request := false, armed := false, dwellTimer := none } ∧
        (∀ other, other ≠ c → t.rcu.channels.get other = s.rcu.channels.get other) ∧
        t.rcu.rotating = s.rcu.rotating ∧ t.rcu.pointer = s.rcu.pointer ∧
        t.rcu.pendingMarker = s.rcu.pendingMarker.map (fun k => { k with detached := k.detached || k.channel == c }) ∧
        t.rcu.serviceMarker = s.rcu.serviceMarker.map (fun k => { k with detached := k.detached || k.channel == c }) ∧
        Answered 0x60 .done [.channels] [] s t)) ∧
  (∀ s : State, Ready s → ∃ t, exec .runClearAll s = .next t ∧
    (∀ c, t.rcu.channels.get c = ⟨1, 0, 1, 0, false, false, 10, false, true, false, false, false, false, none⟩) ∧
    t.rcu.rotating = false ∧ t.rcu.pointer = 0 ∧
    t.rcu.pendingMarker = s.rcu.pendingMarker.map (fun k => { k with detached := true }) ∧
    t.rcu.serviceMarker = s.rcu.serviceMarker.map (fun k => { k with detached := true }) ∧
    Answered 0x63 .done [.channels] [] s t) ∧
  (∀ (order : Byte) (s : State), Ready s → ∃ t, exec (.runOrder order) s = .next t ∧
    (1 < order.toNat → Answered 0x64 .badOperand [] [] s t) ∧
    (order.toNat ≤ 1 → t.rcu = { s.rcu with rotating := decide (order = 1) } ∧
      Answered 0x64 .done [.channels] [] s t))

/-- Triggers, channel masks and the dwell: what sets a request flag, and the presentation that follows when the RUN
slot is empty (R151 to R155). A change granted at once moves the marker into service and, in ROTATING, the rotation
pointer to the next channel; a slot beyond the tray is OUT_OF_TRAY, which sets RANGE, masks the channel and logs
RUN_RANGE, and a mechanism without a homed tray refuses and disarms (R136, R137, R140, R155, R156, R159). The arbiter's
entry before the RCU's RUN_RANGE is an order that R213 leaves open (assumption log 4). An expiry whose time has not come
changes nothing: the model's reading (assumption log 5). -/
def Obligations.RunTriggers : Prop :=
  ∀ s : State, s.notices = [] →
    (∀ select values : Byte, s.pu.inReset = false → ∃ t, exec (.runMask select values) s = .next t ∧
      (16 ≤ select.toNat ∨ 16 ≤ values.toNat → Answered 0x61 .badOperand [] [] s t) ∧
      (select.toNat < 16 → values.toNat < 16 →
        s.rcu.pendingMarker ≠ none ∨ (∀ c, (s.rcu.channels.get c).request = false) →
        (∀ c k, k = s.rcu.channels.get c → t.rcu.channels.get c =
          if select.getLsbD c.toNat = true ∧ k.mask ≠ values.getLsbD c.toNat then
            (if values.getLsbD c.toNat then { k with mask := true, armed := false, dwellTimer := none }
             else { k with mask := false })
          else k) ∧
        t.rcu.pendingMarker = s.rcu.pendingMarker ∧ t.rcu.serviceMarker = s.rcu.serviceMarker ∧
        t.rcu.rotating = s.rcu.rotating ∧ t.rcu.pointer = s.rcu.pointer ∧
        Answered 0x61 .done [.channels] [] s t)) ∧
    (∀ channel : Byte, s.pu.inReset = false → ∃ t, exec (.runTrigger channel) s = .next t ∧
      (3 < channel.toNat → Answered 0x62 .badOperand [] [] s t) ∧
      (∀ c, c = BitVec.ofNat 2 channel.toNat → ∀ k, k = s.rcu.channels.get c → channel.toNat ≤ 3 →
        (k.mask = true → Answered 0x62 .refusedState [] [] s t) ∧
        (k.mask = false → k.request = true → Answered 0x62 .done [] [] s t) ∧
        (k.mask = false → k.request = false → s.rcu.pendingMarker ≠ none →
          t.rcu = { s.rcu with channels := s.rcu.channels.set c { k with
            request := true, armed := k.armed || k.demand, dwellTimer := none } } ∧
          Answered 0x62 .done [.channels] [] s t) ∧
        (k.mask = false → k.request = false → s.rcu.pendingMarker = none → s.rcu.serviceMarker = none →
          (∀ other, (s.rcu.channels.get other).request = false) → s.tmc.state = .jammed → s.ca.inService = none →
          s.ca.slots.run = none →
          t.rcu = { s.rcu with pendingMarker := some ⟨c, false⟩, channels := s.rcu.channels.set c { k with
            request := true, armed := k.armed || k.demand, dwellTimer := none } } ∧
          t.ca = { s.ca with slots := { s.ca.slots with run := some ⟨.changeTo k.slot, s.ca.levels.run⟩ } } ∧
          Answered 0x62 .done [.channels, .arbiter] [] s t) ∧
        (k.mask = false → k.request = false → s.rcu.pendingMarker = none → s.rcu.serviceMarker = none →
          (∀ other, (s.rcu.channels.get other).request = false) → s.ca.inService = none →
          (∀ source, s.ca.slots.get source = none) → s.ca.masks.run = false →
          (s.cu.flag = false ∨ s.cu.traySel = .ignore) →
          (s.tmc.state = .ready → k.slot ≤ s.tmc.n → ¬ (k.slot = s.tmc.p ∧ s.tmc.gate = .loaded) →
            t.rcu = { s.rcu with serviceMarker := some ⟨c, false⟩,
                                 pointer := if s.rcu.rotating then c + 1 else s.rcu.pointer,
                                 channels := s.rcu.channels.set c { k with
                                   request := true, armed := k.armed || k.demand, dwellTimer := none } } ∧
            t.ca = { s.ca with inService := some ⟨.changeTo k.slot, .run, s.ca.levels.run⟩ } ∧
            t.tmc.op = some ⟨.changeTo k.slot, .run, s.ca.levels.run⟩ ∧ t.tmc.state = .darken ∧
            t.tmc.darkenLimit = some 1000 ∧ t.tmc.target = some k.slot ∧ t.lc.holdLevel = some s.tmc.blackout ∧
            Answered 0x62 .done [.channels, .arbiter, .mechanism, .lamp] [] s t) ∧
          (s.tmc.state = .ready → s.tmc.n < k.slot →
            t.rcu = { s.rcu with channels := s.rcu.channels.set c { k with
              request := false, range := true, mask := true, armed := false, dwellTimer := none } } ∧
            Answered 0x62 .done [.channels] [(.requestsDiscarded, 0x0710), (.runRange, argPair c.toNat k.slot)] s t) ∧
          (s.tmc.state = .unhomed ∨ s.tmc.state = .noTray →
            t.rcu = { s.rcu with channels := s.rcu.channels.set c { k with
              request := false, armed := false, dwellTimer := none } } ∧
            Answered 0x62 .done [.channels]
              [(.requestsDiscarded, if s.tmc.state = .unhomed then 0x0510 else 0x0610)] s t)))) ∧
    (∀ c k, k = s.rcu.channels.get c → ∃ t, exec (.dwellTimerExpiry c) s = .next t ∧
      (k.dwellTimer ≠ some 0 → Effect [] [] s t) ∧
      (k.dwellTimer = some 0 → s.rcu.pendingMarker ≠ none →
        t.rcu = { s.rcu with channels := s.rcu.channels.set c { k with request := true, dwellTimer := none } } ∧
        Effect [.channels] [] s t) ∧
      (k.dwellTimer = some 0 → s.rcu.pendingMarker = none → s.rcu.serviceMarker = none → k.mask = false →
        (∀ other, (s.rcu.channels.get other).request = false) → s.tmc.state = .jammed → s.ca.inService = none →
        s.ca.slots.run = none →
        t.rcu = { s.rcu with pendingMarker := some ⟨c, false⟩,
                             channels := s.rcu.channels.set c { k with request := true, dwellTimer := none } } ∧
        t.ca = { s.ca with slots := { s.ca.slots with run := some ⟨.changeTo k.slot, s.ca.levels.run⟩ } } ∧
        Effect [.channels, .arbiter] [] s t))

/-- The end of a channel's change: its request is cleared and its slot stepped on the slots 1..N; a run with changes
left counts down and an armed channel dwells, and the last change sets TC, logs RUN_TC and reloads or masks the
channel (R153, R156 to R158). A channel's change that a directive preempts was not shown: its request is cleared, its slot
and count are left, and an armed channel dwells; an outcome of a detached record leaves every channel as it is (R142,
R156, R159). The argument of CHANGE_DONE carries 0xFF for the position while not homed (assumption log 18), and
CHANGE_DONE comes before the RCU's RUN_TC, an order that R213 leaves open (assumption log 4). -/
def Obligations.RunCompletion : Prop :=
  (∀ s : State, s.notices = [] → s.tmc.state = .settle → s.tmc.settleTimer = some 0 → s.tmc.gate = .loaded →
    s.tmc.n ≠ 0 → ∀ op, s.tmc.op = some op → op.source = .run → s.ca.inService = some op →
    (∀ source, s.ca.slots.get source = none) → s.rcu.pendingMarker = none →
    (∀ other, (s.rcu.channels.get other).mask = true ∨ (s.rcu.channels.get other).request = false ∨
      s.rcu.serviceMarker = some ⟨other, false⟩) → s.ce.awaits? 4 = none →
    ∀ m, s.rcu.serviceMarker = some m → m.detached = false → ∀ k, k = s.rcu.channels.get m.channel →
    ∀ next, next = (if k.down then (if k.slot ≤ 1 then s.tmc.n else k.slot - 1)
      else if s.tmc.n ≤ k.slot then 1 else k.slot + 1) →
    ∀ ended, ended = (Event.changeDone, argPair 4 (if s.tmc.homed then s.tmc.p else 0xFF)) →
    ∃ t, exec .settleEnd s = .next t ∧ t.ca = { s.ca with inService := none } ∧ t.tmc.state = .ready ∧
      (0 < k.count →
        t.rcu = { s.rcu with serviceMarker := none, channels := s.rcu.channels.set m.channel { k with
          request := false, slot := next, count := k.count - 1,
          dwellTimer := if k.armed then some (100 * k.dwell) else none } } ∧
        Effect [.mechanism, .arbiter, .lamp, .channels] [ended] s t) ∧
      (k.count = 0 → k.reload = true →
        t.rcu = { s.rcu with serviceMarker := none, channels := s.rcu.channels.set m.channel { k with
          request := false, tc := true, slot := k.baseSlot, count := k.baseCount, armed := false,
          dwellTimer := none } } ∧
        Effect [.mechanism, .arbiter, .lamp, .channels] [ended, (.runTc, argPair m.channel.toNat k.slot)] s t) ∧
      (k.count = 0 → k.reload = false →
        t.rcu = { s.rcu with serviceMarker := none, channels := s.rcu.channels.set m.channel { k with
          request := false, tc := true, slot := next, mask := true, armed := false, dwellTimer := none } } ∧
        Effect [.mechanism, .arbiter, .lamp, .channels] [ended, (.runTc, argPair m.channel.toNat k.slot)] s t)) ∧
  (∀ (slot : Byte) (s : State), Ready s → Mechanism s.tmc → ∀ old, s.tmc.op = some old → s.ca.inService = some old →
    old.source = .run → s.ca.slots.directive = none → s.ca.slots.run = none → s.ca.masks.directive = false →
    s.ca.levels.directive < old.level → s.tmc.homed = true → (s.tmc.state = .darken ∨ s.tmc.state = .turn) →
    (s.cu.flag = false ∨ s.cu.traySel = .ignore) → s.tmc.n ≠ 0 → slot.toNat ≤ s.tmc.n →
    (slot.toNat ≠ s.tmc.p ∨ s.tmc.gate = .empty) → s.rcu.pendingMarker = none →
    (∀ other, (s.rcu.channels.get other).mask = true ∨ (s.rcu.channels.get other).request = false ∨
      s.rcu.serviceMarker = some ⟨other, false⟩) →
    ∀ m, s.rcu.serviceMarker = some m → ∀ k, k = s.rcu.channels.get m.channel →
    ∃ t, exec (.gotoSlot slot) s = .next t ∧
      t.ca = { s.ca with inService := some ⟨.changeTo slot.toNat, .directive, s.ca.levels.directive⟩ } ∧
      t.tmc.op = some ⟨.changeTo slot.toNat, .directive, s.ca.levels.directive⟩ ∧ t.tmc.target = some slot.toNat ∧
      t.rcu = (if m.detached then { s.rcu with serviceMarker := none }
        else { s.rcu with serviceMarker := none, channels := s.rcu.channels.set m.channel { k with
          request := false, dwellTimer := if k.armed then some (100 * k.dwell) else none } }) ∧
      Answered 0x11 .done [.arbiter, .mechanism, .channels] [(.preempted, argPair 4 s.tmc.p)] s t)


/-! ## The show (09) -/

/-- SHOW_START, SHOW_PAUSE, SHOW_RESUME, SHOW_STOP and SHOW_LEAD with their refusals: a start empties the engine's tables
and fetches the start record, a pause freezes and a resume goes on, and a stop withdraws the pending request (R145, R167 to
R170). What the outcome of a CUE change in service does to the show (R175): DONE, EMPTY_SLOT and PREEMPTED free its marker
and let the show go on, JAMMED halts a running or paused show, and a cutoff that aborts the change and discards the record
pending halts it for CUTOFF (R189, R190); a stale marker is freed without effect. JAM before SHOW_HALTED, an order that R213
leaves open, is the model's (assumption log 4), as is 0xFF for the position while not homed (assumption log 18). The outcomes
of a record that is refused are in Obligations.Timeline. -/
def Obligations.ShowDirectives : Prop :=
  (∀ (lo hi : Byte) (s : State), Ready s → ∀ i, i = lo.toNat + 256 * hi.toNat →
    ∃ t, exec (.showStart lo hi) s = .next t ∧
      (s.ce.active = true ∨ s.cu.flag = true → Answered 0x70 .refusedState [] [] s t) ∧
      (s.ce.active = false → s.cu.flag = false → 3968 ≤ i → Answered 0x70 .badOperand [] [] s t) ∧
      (s.ce.active = false → s.cu.flag = false → i < 3968 →
        t.ce = { s.ce with showState := .running, reason := .none, index := i, clock := 0, lateMax := 0, pathMiss := 0,
                           queue := [⟨i, [], false, .sequential⟩], phase := .loading, startInstant := 0,
                           timelineInstant := 0, dueInstant := 0, fired := [], timedOut := false, loops := [],
                           memory := [], pendingMarker := s.ce.pendingMarker.map fun _ => true,
                           serviceMarker := s.ce.serviceMarker.map fun _ => true } ∧
        Fetches t i ∧ Answered 0x70 .done [.engine] [(.showStarted, halfOf i)] s t)) ∧
  (∀ s : State, Ready s →
    (∃ t, exec .showPause s = .next t ∧
      (s.ce.showState ≠ .running → Answered 0x71 .refusedState [] [] s t) ∧
      (s.ce.showState = .running → t.ce = { s.ce with showState := .paused } ∧
        Answered 0x71 .done [.engine] [] s t)) ∧
    (∃ t, exec .showResume s = .next t ∧
      (s.ce.showState ≠ .paused → Answered 0x72 .refusedState [] [] s t) ∧
      (s.ce.showState = .paused → s.ce.phase = .loading → t.ce = { s.ce with showState := .running } ∧
        Answered 0x72 .done [.engine] [] s t)) ∧
    (∃ t, exec .showStop s = .next t ∧ t.ce.showState = .idle ∧ t.ce.queue = [] ∧ t.ce.index = s.ce.index ∧
      t.ce.clock = s.ce.clock ∧ t.ce.loops = s.ce.loops ∧ t.ce.memory = s.ce.memory ∧ t.pu.ceRequest = none ∧
      (s.ca.slots.cue = none → t.ce = { s.ce with showState := .idle, queue := [], phase := .loading, fired := [] } ∧
        Answered 0x73 .done [.engine, .waitCount] [] s t) ∧
      (s.ca.slots.cue ≠ none → t.ca = { s.ca with slots := { s.ca.slots with cue := none } } ∧
        t.ce.pendingMarker = none ∧
        Answered 0x73 .done [.engine, .arbiter, .waitCount] [(.requestsDiscarded, 0x0902)] s t))) ∧
  (∀ (enable extra : Byte) (s : State), Ready s → ∃ t, exec (.showLead enable extra) s = .next t ∧
    (1 < enable.toNat → Answered 0x75 .badOperand [] [] s t) ∧
    (enable.toNat ≤ 1 → s.ce.waiting? = none →
      t.ce = { s.ce with leadOn := decide (enable = 1), leadExtra := extra.toNat } ∧
      Answered 0x75 .done [.engine] [] s t)) ∧
  (∀ s : State, s.notices = [] → ∀ op, s.tmc.op = some op → op.source = .cue → s.ca.inService = some op →
    ∀ p, p = (if s.tmc.homed then s.tmc.p else 0xFF) →
    (s.tmc.state = .settle → s.tmc.settleTimer = some 0 → (∀ source, s.ca.slots.get source = none) →
      ∃ t, exec .settleEnd s = .next t ∧ t.ca = { s.ca with inService := none } ∧
        t.ce = { s.ce with serviceMarker := none } ∧
        Effect [.mechanism, .arbiter, .lamp, .engine]
          [(if s.tmc.gate = .empty then .emptySlot else .changeDone, argPair 1 p)] s t) ∧
    (s.tmc.state = .turn → s.tmc.positionTimer = some 0 → s.cu.enabled .trayJam = false →
      ∃ t, exec .positionTimerExpiry s = .next t ∧ t.ca.inService = none ∧
        (s.ce.active = false ∨ s.ce.serviceMarker ≠ some false →
          t.ca = { s.ca with inService := none } ∧ t.ce = { s.ce with serviceMarker := none } ∧
          Effect [.mechanism, .arbiter, .engine] [(.jam, argPair 1 p)] s t) ∧
        (s.ce.active = true → s.ce.serviceMarker = some false → s.ca.slots.cue = none →
          t.ca = { s.ca with inService := none } ∧ t.ce = { haltedFor s.ce .jammed with serviceMarker := none } ∧
          Effect [.mechanism, .arbiter, .engine, .waitCount] [(.jam, argPair 1 p), haltEntry s.ce 5] s t) ∧
        (s.ce.active = true → s.ce.serviceMarker = some false → s.ca.slots.cue ≠ none →
          t.ca = { s.ca with inService := none, slots := { s.ca.slots with cue := none } } ∧
          t.ce = { haltedFor s.ce .jammed with serviceMarker := none, pendingMarker := none } ∧
          Effect [.mechanism, .arbiter, .engine, .waitCount]
            [(.jam, argPair 1 p), haltEntry s.ce 5, (.requestsDiscarded, 0x0902)] s t)) ∧
    (Ready s → s.tmc.inCycle = true → s.cu.flag = false → s.cu.enabled .forced = true → s.cu.traySel ≠ .ignore →
      ∃ t, exec .cutoffForce s = .next t ∧ t.ca.inService = none ∧ t.ca.slots.cue = none ∧ t.ce.serviceMarker = none ∧
        (s.ca.slots.cue ≠ none → t.ce.pendingMarker = none) ∧
        (s.ce.active = true → t.ce.showState = .halted ∧ t.ce.reason = .cutoff ∧ t.ce.queue = []) ∧
        (s.ce.active = false → t.ce.showState = s.ce.showState ∧ t.ce.reason = s.ce.reason)) ∧
    (∀ slot : Byte, Ready s → Mechanism s.tmc → s.ca.slots.directive = none → s.ca.slots.cue = none →
      s.ca.masks.directive = false → s.ca.levels.directive < op.level → s.tmc.homed = true →
      (s.tmc.state = .darken ∨ s.tmc.state = .turn) → (s.cu.flag = false ∨ s.cu.traySel = .ignore) → s.tmc.n ≠ 0 →
      slot.toNat ≤ s.tmc.n → (slot.toNat ≠ s.tmc.p ∨ s.tmc.gate = .empty) →
      ∃ t, exec (.gotoSlot slot) s = .next t ∧ t.ce = { s.ce with serviceMarker := none } ∧
        t.ca = { s.ca with inService := some ⟨.changeTo slot.toNat, .directive, s.ca.levels.directive⟩ } ∧
        Answered 0x11 .done [.arbiter, .mechanism, .engine] [(.preempted, argPair 1 p)] s t))

/-- CUE_GO resolves a waiting AWAIT_GO, and the timeout of a waiting await resolves it into ALT: a record with a slide
action is held while the CUE slot is occupied, and another, or one whose deposit is granted at once or stays in the
slot, is issued with all its actions and goes on to its successor (R136, R173, R174, R176, R178, R182, R183). The staged
entry 1 that is this successor becomes current, valid or still loading; another one is a path miss, which empties the
queue and fetches the successor afresh; with no entry 1 the successor is placed and fetched, or, beyond the store, the
show halts and the pending request is withdrawn (R145, R186, R189). A record that enters WAITING has the prediction go
on behind it; an END ends the show there and a bad record halts it (R165, R171, R185). A cue that joins the FIFO is
looked at by a waiting AWAIT_TAPE, which discards the classes it does not wait for and is resolved by its own (R179).
The terminal count of a channel that a waiting AWAIT_RUN names is consumed and resolves it (R160, R181). A SHOW_RESUME
makes these two checks at once, after a timeout already reached (R168). That order, of a timeout and an event that are
there together, is the model's reading (assumption log 12). An expiry whose time has not come changes nothing: the
model's reading (assumption log 5). That L0 is the fade level of a fade that starts is the model's reading (assumption
log 14), and so are CUE_LATE of a record that was never held and its place after MARK (assumption log 24). That the
prediction comes before a new current record acts is the model's choice (assumption log 34), and so is the count that a
withdrawal leaves while the Report Writer writes (assumption log 30). The argument of CHANGE_DONE carries 0xFF for the
position while not homed (assumption log 18). The order of the entries of several blocks, which R213 leaves open, is the
model's (assumption log 4). -/
def Obligations.AwaitResolved : Prop :=
  ∀ s : State, Ready s →
    (∃ t, exec .cueGo s = .next t ∧
      (s.ce.awaits? 5 = none → Answered 0x74 .refusedState [] [] s t) ∧
      (∀ r, s.ce.awaits? 5 = some r → Resolves s r false (answerFrame 0x74 [] [] s t) t)) ∧
    (∃ t, exec .awaitTimeout s = .next t ∧
      (s.ce.waiting? = none → Effect [] [] s t) ∧
      (∀ r, s.ce.waiting? = some r →
        ∀ expired, expired = (recIsAwait r && decide (0 < recTime r) && reached s.ce.clock (timeOf s.ce r)) →
        (expired = false → Effect [] [] s t) ∧
        (expired = true → Resolves s r true (stepFrame [] [(.awaitTimeout, halfOf s.ce.index)] s t) t))) ∧
    (∀ cls, classOf? (s.ttc.lastFall - s.ttc.burstStart).toNat = some cls → ∀ r, s.ce.awaits? 2 = some r →
      s.ttc.gapTimer = some 0 → s.ttc.decoder = .gap → s.ttc.route = .toShow → s.ttc.fifo.length < 8 →
      ∃ t, exec .gapTimerExpiry s = .next t ∧
        LooksAt { s with ttc := { s.ttc with decoder := .quiet, gapTimer := none, stuckTimer := none, past800 := false,
                                             fifo := s.ttc.fifo ++ [⟨cls, s.ttc.burstCount, s.ttc.lastFall⟩] } } r
          (stepFrame [.deck] [(.cueDecoded, halfOf cls.number)] s t) t) ∧
    (s.tmc.state = .settle → s.tmc.settleTimer = some 0 → s.tmc.gate = .loaded → s.tmc.n ≠ 0 →
      ∀ op, s.tmc.op = some op → op.source = .run → s.ca.inService = some op →
      (∀ source, s.ca.slots.get source = none) → s.rcu.pendingMarker = none →
      ∀ m, s.rcu.serviceMarker = some m → m.detached = false → ∀ k, k = s.rcu.channels.get m.channel → k.count = 0 →
      (∀ other, (s.rcu.channels.get other).mask = true ∨ (s.rcu.channels.get other).request = false ∨
        other = m.channel) →
      ∀ r, s.ce.awaits? 4 = some r → recWaitArg r = m.channel.toNat →
      ∀ next, next = (if k.down then (if k.slot ≤ 1 then s.tmc.n else k.slot - 1)
        else if s.tmc.n ≤ k.slot then 1 else k.slot + 1) →
      ∀ rcu, rcu = { s.rcu with serviceMarker := none, channels := s.rcu.channels.set m.channel { k with
        request := false, tc := false, slot := if k.reload then k.baseSlot else next,
        count := if k.reload then k.baseCount else 0, mask := if k.reload then k.mask else true, armed := false,
        dwellTimer := none } } →
      ∀ ended, ended = (Event.changeDone, argPair 4 (if s.tmc.homed then s.tmc.p else 0xFF)) →
      ∃ t, exec .settleEnd s = .next t ∧
        Resolves { s with ca := { s.ca with inService := none }, rcu := rcu, lc := s.lc.takeRelease s.tmc.inTime } r false
          (stepFrame [.mechanism, .lamp, .channels] [ended, (.runTc, argPair m.channel.toNat k.slot)] s t) t) ∧
    (s.ce.showState = .paused → ∀ ce, ce = { s.ce with showState := .running } → ∀ r, ce.waiting? = some r →
      ∀ expired, expired = (recIsAwait r && decide (0 < recTime r) && reached s.ce.clock (timeOf s.ce r)) →
      ∃ t, exec .showResume s = .next t ∧
        (expired = true → Resolves { s with ce := ce } r true
          (answerFrame 0x72 [] [(.awaitTimeout, halfOf s.ce.index)] s t) t) ∧
        (expired = false → recForm r = 2 → LooksAt { s with ce := ce } r (answerFrame 0x72 [] [] s t) t) ∧
        (∀ c, c = BitVec.ofNat 2 (recWaitArg r) → ∀ k, k = s.rcu.channels.get c → expired = false → recForm r = 4 →
          (k.tc = false → t.ce = ce ∧ Answered 0x72 .done [.engine] [] s t) ∧
          (k.tc = true →
            Resolves { s with ce := ce,
                              rcu := { s.rcu with channels := s.rcu.channels.set c { k with tc := false } } } r false
              (answerFrame 0x72 [.channels] [] s t) t)) ∧
        (expired = false → recForm r = 3 ∨ recForm r = 5 → t.ce = ce ∧ Answered 0x72 .done [.engine] [] s t))

/-- A DELAY is due at its fire instant, which SHOW_LEAD evaluates afresh: it deposits its slide change, which is granted
at once or stays in the slot, is held while the CUE slot is occupied, and its lateness is measured from that instant
(R136, R170, R172 to R174). All its actions go to their blocks at the issue: the slide, the lamp order, which is a
return fade to store beside a slide action and a fade to start without one, and the extra action (R173). A slide change
refused at once halts the show, for REFUSED or RANGE (R137, R175, R189). A HELD record, a DELAY or an await, is offered
again when the CUE slot is emptied, after the marker has moved, and at SHOW_RESUME, where a WAITING DELAY and a FIRED
one are looked at too (R168, R174, R175). At the timeline instant a FIRED record takes its successor step, and a record
issued at or after that instant takes it at the issue (R172, R176). The staged entry 1 that is this successor becomes
current, valid or still loading; another one is a path miss, which empties the queue, drops its fetch and fetches the
successor afresh; with no entry 1 the successor is placed and fetched, or, beyond the store, the show halts and the
pending request is withdrawn (R145, R186, R189, R196, R197). A record that enters WAITING has the prediction go on
behind it; an END ends the show there and a bad record halts it (R165, R171, R185). With REPEAT above 0 the loop table
chooses the successor, and takes an entry, counts it down or gives it up (R177). An instant whose time has not come
changes nothing: the model's reading (assumption log 5). That L0 is the fade level of a fade that starts is the model's
reading (assumption log 14), and so are CUE_LATE of a record that was never held and its place after MARK (assumption
log 24). The model's choices: the prediction comes before a new current record acts (assumption log 34), a successor
step before the refusal of the change issued with it (assumption log 44), and the count that a withdrawal leaves while
the Report Writer writes (assumption log 30). So is the order of several blocks' entries, which R213 leaves open
(assumption log 4). -/
def Obligations.Timeline : Prop :=
  ∀ s : State, s.notices = [] →
    (∃ t, exec .fireInstant s = .next t ∧
      (s.ce.waiting? = none → Effect [] [] s t) ∧
      (∀ r, s.ce.waiting? = some r → ∀ due, due = dueAs s.ce s.tmc.outTime r →
        (recForm r ≠ 1 ∨ reached s.ce.clock due.dueInstant = false → Effect [] [] s t) ∧
        (recForm r = 1 → reached s.ce.clock due.dueInstant = true →
          ComesDue { s with ce := due } (stepFrame [] [] s t) t ∧
          (∀ atT, atT = reached s.ce.clock due.timelineInstant → ∀ next, next = recNextIndex s.ce.index r →
            ∀ moved, moved = { issuedOf due with index := next.1, startInstant := due.timelineInstant } →
            ∀ at_ passed,
            (atT = false ∧ at_ = issuedOf due ∧ passed = [] ∨
             atT = true ∧ recRepeat r = 0 ∧ next.1 < 3968 ∧
              (s.ce.queue.length = 1 ∧ at_ = moved ∧ passed = [] ∨
               ∃ e, s.ce.queue[1]? = some e ∧
                (e.index = next.1 ∧ e.tag = next.2 ∧ at_ = moved ∧ passed = [] ∧
                  (e.valid = false ∧ s.ce.queue.length = 2 ∨
                   e.valid = true ∧ recBad e.copy = false ∧ recForm e.copy ≠ 0 ∧ Rests { s with ce := moved } e.copy) ∨
                 (e.index ≠ next.1 ∨ e.tag ≠ next.2) ∧
                  at_ = { moved with pathMiss := min 65535 (s.ce.pathMiss + 1) } ∧
                  passed = [(Event.pathMiss, halfOf next.1)]))) →
            ∀ reason outcome, recHasSlide r = true → recPlain r → s.ca.masks.cue = false → s.ca.inService = none →
            (∀ source, s.ca.slots.get source = none) → s.ce.pendingMarker = none →
            (s.cu.flag = false ∨ s.cu.traySel = .ignore) →
            (s.tmc.state = .noTray ∧ reason = .refused ∧ outcome = 0x0602 ∨
             s.tmc.state = .unhomed ∧ recSlideKind r ≠ .clearGate ∧ reason = .refused ∧ outcome = 0x0502 ∨
             s.tmc.state = .ready ∧ (∃ slot, recSlideKind r = .changeTo slot ∧ s.tmc.n < slot) ∧ reason = .range ∧
               outcome = 0x0702) →
            t.ce = { haltedFor at_ reason with pendingMarker := none } ∧
            Effect [.engine, .waitCount] (lateEntry due ++ passed ++ [(.requestsDiscarded, outcome),
              haltEntry at_ (if reason = .range then 2 else 4)]) s t)))) ∧
    (∃ t, exec .timelineInstant s = .next t ∧
      ∀ now, now = decide (s.ce.showState = .running ∧ s.ce.phase = .fired ∧
        reached s.ce.clock s.ce.timelineInstant = true) →
      (now = false → Effect [] [] s t) ∧ (now = true → Succeeds s (stepFrame [] [] s t) t)) ∧
    (s.pu.inReset = false → s.ce.showState = .paused → ∀ ce, ce = { s.ce with showState := .running } →
      ∃ t, exec .showResume s = .next t ∧
        (s.ce.phase = .held → ComesDue { s with ce := ce } (answerFrame 0x72 [] [] s t) t) ∧
        (s.ce.phase = .fired →
          (reached s.ce.clock s.ce.timelineInstant = false → t.ce = ce ∧ Answered 0x72 .done [.engine] [] s t) ∧
          (reached s.ce.clock s.ce.timelineInstant = true →
            Succeeds { s with ce := ce } (answerFrame 0x72 [] [] s t) t)) ∧
        (∀ r, ce.waiting? = some r → recForm r = 1 → ∀ due, due = dueAs ce s.tmc.outTime r →
          (reached s.ce.clock due.dueInstant = false → t.ce = ce ∧ Answered 0x72 .done [.engine] [] s t) ∧
          (reached s.ce.clock due.dueInstant = true →
            ComesDue { s with ce := due } (answerFrame 0x72 [] [] s t) t))) ∧
    (s.pu.inReset = false → ∀ (enable extra : Byte), enable.toNat ≤ 1 → ∀ r, s.ce.waiting? = some r → recForm r = 1 →
      ∀ ce, ce = { s.ce with leadOn := decide (enable = 1), leadExtra := extra.toNat } →
      ∀ due, due = dueAs ce s.tmc.outTime r →
      ∃ t, exec (.showLead enable extra) s = .next t ∧
        (reached s.ce.clock due.dueInstant = false → t.ce = ce ∧ Answered 0x75 .done [.engine] [] s t) ∧
        (reached s.ce.clock due.dueInstant = true →
          ComesDue { s with ce := due } (answerFrame 0x75 [] [] s t) t)) ∧
    (s.pu.inReset = false → s.ce.phase = .held → recHasSlide s.ce.fired = true → recPlain s.ce.fired →
      ∀ q stale, s.ce.showState = .running → s.ca.slots = ⟨none, some q, none, none, none⟩ →
      s.ce.pendingMarker = some stale → s.ca.masks.cue = true → s.tmc.state = .ready → s.tmc.homed = true →
      s.ca.inService = none → (s.cu.flag = false ∨ s.cu.traySel = .ignore) → q.level ≤ s.ca.levels.cue →
      (∀ slot, q.kind = .changeTo slot → slot ≤ s.tmc.n) → ∀ g, g = targetOf s.tmc q.kind →
      ¬ (changesSlide q.kind = true ∧ g = s.tmc.p ∧ s.tmc.gate = .loaded) →
      ∃ t, exec (.arbMask 0) s = .next t ∧
        ∀ u, u = { s with
            tmc := t.tmc, lc := t.lc,
            ca := { s.ca with masks := ⟨false, false, false, false, false⟩, slots := ⟨none, none, none, none, none⟩,
                              inService := some ⟨q.kind, .cue, q.level⟩ },
            ce := { s.ce with pendingMarker := none, serviceMarker := some stale } } →
        Issues u (issuedOn u) (answerFrame 0x51 [.mechanism, .lamp] [] s t) t)


/-! ## The bus, the directive stream, the reports and the resets (10 to 12) -/

/-- Every directive is answered exactly once, with a result an owner can give, at the instant it is taken; while RESET
is asserted none is taken (R199, R206, R207, R210). That the row of a directive is the instant of its taking, here and
in every statement about a directive, is the model's reading (assumption log 10), as is what RESET holds still
(assumption log 7). -/
def Obligations.DirectivesAnswered : Prop :=
  ∀ (c : Instr) (s : State), s.notices = [] → ∀ code, directiveCode c = some code → ∃ t, exec c s = .next t ∧
    (s.pu.inReset = true → Effect [] [] s t) ∧
    (s.pu.inReset = false → t.dd.collecting = false ∧ t.dd.lastCode = code ∧ t.dd.lastResult.toNat ≤ 4 ∧
      t.dd.taken = s.dd.taken + 1)

/-- Lead and operand bytes: a lead byte abandons an open directive and opens, takes or answers UNKNOWN_CODE; an operand
byte completes the open directive or is stray; the byte stands in the RAM as any other write (R192, R203 to R208). A
directive that a lead byte or its last operand byte takes is the command of its own row, with the operand bytes in the
order in which they came, on the state in which the byte stands in the RAM (R206). The lead byte 0x01 is PART_RESET,
which leaves every block as PRST does and the Report Writer at work on line 0 (R209, R211, R215). While RESET is
asserted neither is observed (R199). What the bus shows after the cycle, and that each cycle says whether it leaves a
gap, is the model's view of the bus (assumption log 11), and that the row of a directive is the instant of its taking is
its reading (assumption log 10); the order of the entries of several blocks is log 4, and the fields that no rule gives
at reset are log 26; that PRST keeps the fade level is log 31, and the mark of an intent cleared during a move log 15.
The RAM is the model's list in its canonical form (Obligations.PassageKept), where a decoder that collects has the
operand count of the code table. -/
def Obligations.DirectiveStream : Prop :=
  ∀ (b : Byte) (gap : Bool) (s : State), s.notices = [] → Ram s →
    ∀ left, left = (if s.dd.collecting then [(Event.directiveAbandoned, halfOf s.dd.openCode.toNat)] else []) →
    (∀ c, c ∈ [Instr.leadByte b gap, Instr.unknownCode b gap] → ∃ t, exec c s = .next t ∧
      Memory.read t.mem s.pu.base.toNat = b ∧
      (BusFree s → HostWrote s.pu.base b gap s t ∧
        (s.pu.inReset = true → WroteAt 0 b gap [] [] s t) ∧
        (s.pu.inReset = false →
          (∀ n, operandCount? b = some n → 0 < n →
            t.dd = { s.dd with collecting := true, openCode := b, buffer := [], expected := n, received := 0 } ∧
            WroteAt 0 b gap [.decoder] left s t) ∧
          (operandCount? b = none →
            t.dd = { s.dd with collecting := false, openCode := 0, buffer := [], expected := 0, received := 0,
                               lastCode := b, lastResult := 5, taken := s.dd.taken + 1 } ∧
            WroteAt 0 b gap [.decoder] left s t) ∧
          (∀ row, rowOf b [] = some row → exec c s = exec row (written 0 b gap s)) ∧
          (operandCount? b = some 0 → b ≠ 1 → t.dd.collecting = false ∧ t.dd.lastCode = b ∧
            t.dd.lastResult.toNat ≤ 4 ∧ t.dd.taken = s.dd.taken + 1) ∧
          (b = 1 → AfterPrst s t ∧ t.pending = s.pending ∧ t.pu.waitCount = 0 ∧ t.rw.uptime = s.rw.uptime ∧
            t.rw.writeIndex = 0 ∧ t.rw.readIndex = 0 ∧
            (s.rw.lines.length = 11 → t.rw.dropped = 0 ∧ t.rw.buffer = (reportsAfterPrst s).buffer ∧
              LineChosen (fun _ => False) 0 { s with rw := reportsAfterPrst s } t))))) ∧
    (∃ t, exec (.operandByte b gap) s = .next t ∧ Memory.read t.mem (s.pu.base + 1).toNat = b ∧
      (BusFree s → HostWrote (s.pu.base + 1) b gap s t ∧
        (s.pu.inReset = true → WroteAt 1 b gap [] [] s t) ∧
        (s.pu.inReset = false →
          (s.dd.collecting = false →
            WroteAt 1 b gap [] [(.strayOperand, argPair s.dd.lastCode.toNat b.toNat)] s t) ∧
          (s.dd.collecting = true → s.dd.received + 1 ≠ s.dd.expected →
            t.dd = { s.dd with buffer := s.dd.buffer ++ [b], received := s.dd.received + 1 } ∧
            WroteAt 1 b gap [.decoder] [] s t) ∧
          (s.dd.collecting = true → s.dd.received + 1 = s.dd.expected →
            t.dd.collecting = false ∧ t.dd.lastCode = s.dd.openCode ∧ t.dd.taken = s.dd.taken + 1 ∧
            ∀ row, rowOf s.dd.openCode (s.dd.buffer ++ [b]) = some row →
              exec (.operandByte b gap) s = exec row (written 1 b gap s)))))

/-- The host's cycles: a write puts its byte in the RAM and a read returns the RAM's, nothing else changes outside the
snooped regions, and a cycle that finds an own cycle in progress, or the hold limit reached, is held until that own
cycle, at the limit one for the head of the queue, has completed (R192, R194, R196, R197, R199). A held write or read is
then the same cycle on the free bus after the own cycle: the own cycle's byte is in the RAM first, a write's byte over
it, the count was set to 0 by the own cycle, and the held cycle counts where a request waits then (R197, R198). Each
cycle says whether it leaves a gap, and held and hostBusy show the bus (assumption log 11). The RAM is the model's list
in its canonical form (Obligations.PassageKept). -/
def Obligations.HostCycles : Prop :=
  ∀ (a : Address) (b : Byte) (gap : Bool) (s : State), s.notices = [] → Ram s →
    ∀ offset, offset = (a - s.pu.base).toNat →
    (∃ t, exec (.hostWrite a b gap) s = .next t ∧ Memory.read t.mem a.toNat = b ∧
      (BusFree s → s.pu.inReset = true ∨ 65536 ≤ offset ∨ 3 ≤ offset ∧ offset < 0x0600 ∨
          0x0780 ≤ offset ∧ offset < 0x0800 → WroteAt offset b gap [] [] s t)) ∧
    (∃ t, exec (.hostRead a gap) s = .next t ∧ t.pu.hostData = Memory.read t.mem a.toNat ∧
      (BusFree s → t.pu.held = false ∧ t.pu.hostBusy = !gap ∧ t.pu.base = s.pu.base ∧
        t.pu.waitCount = (if s.pu.waiting then min 8 (s.pu.waitCount + 1) else s.pu.waitCount) ∧
        Effect [.window, .waitCount] [] s t) ∧
      (∀ c, s.pu.own = some c → t.pu.held = true ∧ t.pu.waitCount ≤ 1 ∧ OwnServed c s t) ∧
      (s.pu.own = none → s.pu.waitCount = 8 → s.pu.waiting = true → s.pu.inReset = false →
        t.pu.held = true ∧ t.pu.waitCount ≤ 1)) ∧
    (∀ c running, HeldFor s.pu c running →
      ∃ u, exec .ownCycleComplete { s with pu := { running with hostBusy := true } } = .next u ∧ OwnServed c s u ∧
        BusFree u ∧ u.pu.base = s.pu.base ∧ u.pu.waitCount = 0 ∧
        (∃ t v, exec (.hostWrite a b gap) s = .next t ∧ exec (.hostWrite a b gap) u = .next v ∧
          t = { v with pu := { v.pu with held := true } } ∧
          (∀ k, Memory.read t.mem k = if k = a.toNat then b else Memory.read u.mem k) ∧
          (s.pu.inReset = true ∨ 65536 ≤ offset ∨ 3 ≤ offset ∧ offset < 0x0600 ∨ 0x0780 ≤ offset ∧ offset < 0x0800 →
            t.pu.hostBusy = !gap ∧ t.pu.base = s.pu.base ∧ t.pu.hostData = s.pu.hostData ∧
            t.pu.waitCount = (if u.pu.waiting then 1 else 0) ∧ Effect [.ram, .window, .waitCount] [] u t)) ∧
        (∃ t v, exec (.hostRead a gap) s = .next t ∧ exec (.hostRead a gap) u = .next v ∧
          t = { v with pu := { v.pu with held := true } } ∧ t.pu.hostBusy = !gap ∧ t.pu.base = s.pu.base ∧
          t.pu.hostData = Memory.read u.mem a.toNat ∧ t.pu.waitCount = (if u.pu.waiting then 1 else 0) ∧
          Effect [.window, .waitCount] [] u t))

/-- A host write to a snooped location of the window is the command of that location (R193, R194). RIDX replaces the
read index, a curve point and a key-map byte replace their shadows, and a cue-store write invalidates the copies staged
of its record (R45, R120, R187, R188, R193, R194, R214). Entry 0 before it is due returns to LOADING with the entries
behind it removed; due, it loses its valid flag alone; and the first later entry of the record is fetched from byte 0,
with the entries behind it removed (R187, R188). STAGE_INVALIDATED is logged where a valid copy is lost or an entry
removed (R187). A record index beyond the store is the fault noSuchCueRecord (assumption log 23). What the bus shows
after the cycle, and that each cycle says whether it leaves a gap, is the model's view of the bus (assumption log 11). A
fetch that restarts replaces its request, and one that is abandoned withdraws it, with the wait count that follows: the
model's choice (assumption log 30). The RAM is the model's list in its canonical form (Obligations.PassageKept). -/
def Obligations.SnoopedWrites : Prop :=
  (∀ (b : Byte) (gap : Bool) (s : State),
     exec (.hostWrite s.pu.base b gap) s = exec (.leadByte b gap) s ∧
     exec (.hostWrite (s.pu.base + 1) b gap) s = exec (.operandByte b gap) s ∧
     exec (.hostWrite (s.pu.base + 2) b gap) s = exec (.ridxWrite b gap) s ∧
     (∀ curve point, exec (.hostWrite (s.pu.base + BitVec.ofNat 20 (0x0600 + 64 * curve.toNat + point.toNat)) b gap) s =
       exec (.curveWrite curve point b gap) s) ∧
     (∀ key field, exec (.hostWrite (s.pu.base + BitVec.ofNat 20 (0x0700 + 4 * key.toNat + field.toNat)) b gap) s =
       exec (.keyMapWrite key field b gap) s) ∧
     (∀ (record : BitVec 12) (k : BitVec 4), record.toNat < 3968 →
       exec (.hostWrite (s.pu.base + BitVec.ofNat 20 (0x0800 + 16 * record.toNat + k.toNat)) b gap) s =
       exec (.cueStoreWrite record k b gap) s)) ∧
  (∀ (b : Byte) (gap : Bool) (s : State), s.notices = [] → Ram s →
     ∀ clear, clear = (BusFree s ∧ s.pu.inReset = false) →
     (∃ t, exec (.ridxWrite b gap) s = .next t ∧ Memory.read t.mem (s.pu.base + 2).toNat = b ∧
       (clear → t.rw.readIndex = BitVec.ofNat 7 b.toNat ∧ t.rw.writeIndex = s.rw.writeIndex ∧
         WroteAt 2 b gap [.ring] [] s t)) ∧
     (∀ (curve : BitVec 2) (point : BitVec 6), ∀ offset, offset = 0x0600 + 64 * curve.toNat + point.toNat →
       ∃ t, exec (.curveWrite curve point b gap) s = .next t ∧
       Memory.read t.mem (s.pu.base + BitVec.ofNat 20 offset).toNat = b ∧
       (clear → t.lc = { s.lc with curves := s.lc.curves.set (64 * curve.toNat + point.toNat) b } ∧
         WroteAt offset b gap [.lamp] [] s t)) ∧
     (∀ (key : BitVec 5) (field : BitVec 2), ∀ offset, offset = 0x0700 + 4 * key.toNat + field.toNat →
       ∃ t, exec (.keyMapWrite key field b gap) s = .next t ∧
       Memory.read t.mem (s.pu.base + BitVec.ofNat 20 offset).toNat = b ∧
       (clear → t.rr = { s.rr with keyMap := s.rr.keyMap.set (4 * key.toNat + field.toNat) b } ∧
         WroteAt offset b gap [.remote] [] s t)) ∧
     (∀ (record : BitVec 12) (k : BitVec 4), ∀ offset, offset = 0x0800 + 16 * record.toNat + k.toNat →
       (3968 ≤ record.toNat → exec (.cueStoreWrite record k b gap) s = .fault .noSuchCueRecord) ∧
       (record.toNat < 3968 → ∃ t, exec (.cueStoreWrite record k b gap) s = .next t ∧
         Memory.read t.mem (s.pu.base + BitVec.ofNat 20 offset).toNat = b ∧
         (clear → ∀ x, x = record.toNat → ∀ note, note = [(Event.stageInvalidated, halfOf x)] →
           ((∀ e ∈ s.ce.queue, e.index ≠ x) → WroteAt offset b gap [] [] s t) ∧
           (∀ head rest, s.ce.queue = head :: rest → ∀ due, due = (s.ce.phase = .held ∨ s.ce.phase = .fired) →
             ∀ stale, stale = decide (head.index = x ∧ head.valid = true) →
             (head.index = x → ¬ due →
               t.ce = { s.ce with queue := [{ head with copy := [], valid := false }], phase := .loading } ∧
               Fetches t x ∧ EditedAt offset b gap rest (if head.valid = true ∨ rest ≠ [] then note else []) s t) ∧
             (head.index = x → due → (∀ e ∈ rest, e.index ≠ x) →
               t.ce = { s.ce with queue := { head with valid := false } :: rest } ∧
               EditedAt offset b gap [] (if head.valid then note else []) s t) ∧
             (head.index ≠ x ∨ due → ∀ pre e post, rest = pre ++ e :: post → (∀ k ∈ pre, k.index ≠ x) → e.index = x →
               t.ce = { s.ce with queue := { head with valid := head.valid && !stale } ::
                 pre ++ [{ e with copy := [], valid := false }] } ∧
               Fetches t x ∧
               EditedAt offset b gap post
                 (if stale = true ∨ e.valid = true ∨ post ≠ [] then note else []) s t))))))

/-- An own cycle completes: a write puts its byte in the RAM, a live write leads the Report Writer to its next byte, its
next ring slot or its line's new image, and a live read brings the Cue Engine the next byte of its fetch, at whose
sixteenth the copy is valid (R184, R196, R197, R212, R214). A current record is then judged: a bad one halts the show,
an END ends it, and another enters WAITING, where it rests, or as a DELAY past its fire instant is held, or issued
before its timeline instant (R165, R171 to R174). At the end of every fetch the successor of the last entry is
predicted, staged and its fetch begun (R185). Marked as the model's: a completion with no own cycle in progress changes
nothing (assumption log 5), a record is judged while the show is PAUSED too and CUE_LATE comes after MARK (assumption
log 24), the prediction comes before a record that is due acts (assumption log 34), L0 is the fade level of a fade that
starts (assumption log 14), the order of the entries of several blocks (assumption log 4), and no own cycle starts while
the host has left no gap (assumption log 11). The RAM is the model's list in its canonical form
(Obligations.PassageKept). -/
def Obligations.OwnCycleCompletes : Prop :=
  ∀ s : State, s.notices = [] → Ram s → ∃ t, exec .ownCycleComplete s = .next t ∧
    (s.pu.own = none → Effect [] [] s t) ∧
    (∀ c, s.pu.own = some c → ∀ at_, at_ = (s.pu.base + BitVec.ofNat 20 c.offset).toNat →
      (∀ d, c.data = some d →
        (∀ k, Memory.read t.mem k = if k = at_ then d else Memory.read s.mem k) ∧ t.pu.waitCount = 0 ∧
        (c.live = false ∨ s.rw.job = none → Effect [.ram, .waitCount] [] s t) ∧
        (∀ j, s.rw.job = some j → c.live = true →
          (∀ w, j.todo[1]? = some w → t.rw.job = some { j with todo := j.todo.tail } ∧ Effect [.ram, .waitCount] [] s t ∧
            (s.pu.ceRequest = none → s.pu.hostBusy = false → s.pu.inReset = false → Writes t w)) ∧
          (j.todo.length ≤ 1 → j.kind = .entry → t.rw.writeIndex = s.rw.writeIndex + 1 ∧
            t.rw.readIndex = s.rw.readIndex ∧ Unchanged [.ram, .waitCount, .ring] s t) ∧
          (∀ n image, j.kind = .line n image → j.todo.length ≤ 1 → n < s.rw.lines.length →
            (t.rw.lines.getD n LineRecord.reset).image = image ∧
            (t.rw.lines.getD n LineRecord.reset).full = false ∧ Unchanged [.ram, .waitCount] s t))) ∧
      (c.data = none → c.live = false → Effect [.waitCount] [] s t ∧ t.pu.waitCount = 0) ∧
      (∀ e, s.ce.fetching? = some e → c.data = none → c.live = true →
        ∀ copy, copy = e.copy ++ [Memory.read s.mem at_] →
        (copy.length < 16 →
          t.ce = { s.ce with queue := s.ce.queue.dropLast ++ [{ e with copy := copy }] } ∧ t.pu.waitCount = 0 ∧
          (s.pu.hostBusy = false → s.pu.inReset = false →
            t.pu.own = some ⟨.cueEngine, 0x0800 + 16 * e.index + copy.length, none, true⟩) ∧
          Effect [.waitCount, .engine] [] s t) ∧
        (16 ≤ copy.length → s.ce.active = true → t.pu.waitCount = 0 ∧
          ∀ fetched, fetched =
            { s.ce with queue := s.ce.queue.dropLast ++ [{ e with copy := copy, valid := true }] } →
          (s.ce.queue.length = 1 → Enters { s with ce := fetched } (stepFrame [.waitCount] [] s t) t) ∧
          (s.ce.queue.length ≠ 1 →
            t.ce = foreseeing fetched ∧ FetchesForeseen fetched t ∧ Effect [.waitCount, .engine] [] s t))))

/-- A millisecond passes: the uptime and a running show's clock count one up, the timers one down, and the sensors THOME and
GSLIDE read as they now stand (R166, R211). An idle Report Writer starts the first dirty line in cyclic order after the line
last written, lines 0 and 9 with the uptime and the show clock among them, with the bytes of R212, or writes the head entry
into the ring when it is an entry's turn; an entry that finds the ring full is dropped and counted, and a line with the new
count follows (R211, R212, R214). That LTOP and GSEAT only fall in a tick is the model's choice (assumption log 8), and that
a dropped entry has had its turn is its reading (assumption log 21). The model's too: a timer that stands at 0 stays there
until its expiry is taken (assumption log 5), the receiver's 3 ms limits count ticks (assumption log 13), and the periodic
updates are counters of ticks (assumption log 25). -/
def Obligations.MillisecondTick : Prop :=
  ∀ (sensors : Sensors) (s : State), s.notices = [] → ∃ t, exec (.uptimeTick sensors) s = .next t ∧
    t.rw.uptime = s.rw.uptime + 1 ∧
    t.ce = { s.ce with clock := if s.ce.showState = .running then s.ce.clock + 1 else s.ce.clock } ∧
    t.tmc = { s.tmc with
      sensors := ⟨sensors.thome, s.tmc.sensors.ltop && sensors.ltop, s.tmc.sensors.gseat && sensors.gseat,
        sensors.gslide⟩,
      darkenLimit := s.tmc.darkenLimit.map (· - 1), liftTimer := s.tmc.liftTimer.map (· - 1),
      lowerTimer := s.tmc.lowerTimer.map (· - 1), positionTimer := s.tmc.positionTimer.map (· - 1),
      dropTimer := s.tmc.dropTimer.map (· - 1), settleTimer := s.tmc.settleTimer.map (· - 1) } ∧
    t.lc = { s.lc with
      lampPhase := s.lc.lampPhase.map (· - 1), heatPhase := s.lc.heatPhase.map (· - 1),
      moveTimer := s.lc.moveTimer.map (· - 1), failureWatch := s.lc.failureWatch.map (· - 1),
      fade := s.lc.fade.map fun f => { f with elapsed := f.elapsed + 1 },
      strike := s.lc.strike.map fun k => { k with elapsed := k.elapsed + 1 } } ∧
    t.fc = { s.fc with windowPhase := s.fc.windowPhase.map (· - 1) } ∧
    t.cu = { s.cu with thswTimer := s.cu.thswTimer.map (· - 1), ilockTimer := s.cu.ilockTimer.map (· - 1) } ∧
    t.ttc = { s.ttc with
      brakingTimer := s.ttc.brakingTimer.map (· - 1), stallWatch := s.ttc.stallWatch.map (· - 1),
      gapTimer := s.ttc.gapTimer.map (· - 1), stuckTimer := s.ttc.stuckTimer.map (· - 1),
      writerTimer := s.ttc.writerTimer.map (· - 1),
      ramp := s.ttc.ramp.map fun r => { r with elapsed := r.elapsed + 1 } } ∧
    t.rr = { s.rr with
      lowLimit := s.rr.lowLimit.map (· - 1), frameEnd := s.rr.frameEnd.map (· - 1),
      idleTimer := s.rr.idleTimer.map (· - 1), releaseTimer := s.rr.releaseTimer.map (· - 1),
      repeatTimer := s.rr.repeatTimer.map (· - 1), escapeWatch := s.rr.escapeWatch.map (· - 1) } ∧
    (∀ c, t.rcu.channels.get c = { s.rcu.channels.get c with
      dwellTimer := (s.rcu.channels.get c).dwellTimer.map (· - 1) }) ∧
    Effect [.clock, .engine, .mechanism, .lamp, .fan, .cutoff, .deck, .remote, .channels] [] s t ∧
    (s.rw.job = none → s.rw.lines.length = 11 → s.rw.lastLine ≤ 10 →
      ∀ fresh : Nat → Prop, fresh = (fun k => k = 0 ∨ k = 9 ∧ s.ce.showState = .running) →
      (s.rw.buffer = [] ∨ s.rw.entryNext = false →
        t.rw.buffer = s.rw.buffer ∧ t.rw.dropped = s.rw.dropped ∧ ∃ n, LineChosen fresh n s t) ∧
      (∀ e, s.rw.buffer.head? = some e → s.rw.entryNext = true → s.rw.writeIndex + 1 ≠ s.rw.readIndex →
        t.rw.buffer = s.rw.buffer.tail ∧ t.rw.dropped = s.rw.dropped ∧ t.rw.entryNext = false ∧
        (∀ n, fresh n ∨ (s.rw.lines.getD n LineRecord.reset).dirty = true → n ≤ 10 →
          (t.rw.lines.getD n LineRecord.reset).dirty = true) ∧
        ∃ j, t.rw.job = some j ∧ j.kind = .entry ∧ j.todo.map (·.data) = e.bytes ∧
          (j.todo.map (·.offset) = (List.range 8).map fun k => 0x0200 + 8 * s.rw.writeIndex.toNat + k) ∧
          ∀ w, j.todo.head? = some w → Writes t w) ∧
      (∀ e, s.rw.buffer.head? = some e → s.rw.entryNext = true → s.rw.writeIndex + 1 = s.rw.readIndex →
        t.rw.buffer = s.rw.buffer.tail ∧ t.rw.dropped = min 255 (s.rw.dropped + 1) ∧
        t.rw.writeIndex = s.rw.writeIndex ∧ ∃ n, LineChosen fresh n s t))

/-- POWER_ON_RESET leaves every block in its state after POR, the RAM as it was, and cutoff entered exactly when a level
cause is present, with its causes logged in number order; RESET_ASSERTED stops the own cycles (R29, R57, R70, R87, R111, R127,
R146, R163, R191, R193, R199, R210, R215). The command's input levels are those of the pins at the release. Marked as the
model's: no write in progress and none asked for in the row of a reset (assumption log 6), what RESET_ASSERTED leaves (log 7),
the fields of the blocks that no rule gives at reset (log 26), what the bus shows (log 11), and TRAY_CODE_BAD before the cutoff
entries (log 4). -/
def Obligations.PowerOnReset : Prop :=
  (∀ (pins : Pins) (s : State), ∀ cut, cut = (pins.thsw || pins.ilockOpen || pins.tcode == 3) →
    ∃ t, exec (.powerOnReset pins) s = .next t ∧
    (∀ a, Memory.read t.mem a = Memory.read s.mem a) ∧ t.pending = s.pending ∧ t.notices = [] ∧
    t.pu.base = (if pins.wsel = 0 then 0x40000 else if pins.wsel = 1 then 0x80000
      else if pins.wsel = 2 then 0xC0000 else 0xF0000) ∧
    t.pu.inReset = false ∧ t.pu.own = none ∧ t.pu.waiting = false ∧ t.pu.waitCount = 0 ∧
    t.pu.hostBusy = s.pu.hostBusy ∧ t.pu.held = s.pu.held ∧ t.pu.hostData = s.pu.hostData ∧
    t.dd = ⟨false, 0, [], 0, 0, 0, 0xFF, 0⟩ ∧
    t.rw.uptime = 0 ∧ t.rw.writeIndex = 0 ∧ t.rw.readIndex = 0 ∧ t.rw.dropped = 0 ∧ t.rw.lastLine = 10 ∧
    t.rw.entryNext = false ∧ t.rw.job = none ∧
    t.rw.lines = List.replicate 11 ⟨true, true, 0, List.replicate 14 0⟩ ∧
    t.rw.buffer.map (fun e => (e.event, e.arg, e.uptime)) =
      (if pins.tcode = 3 then [(Event.trayCodeBad, 3, 0)] else []) ++
      (if pins.thsw then [(.cutoffEnter, 1, 0)] else []) ++
      (if pins.ilockOpen then [(if pins.thsw then .cutoffCauseAdded else .cutoffEnter, 2, 0)] else []) ++
      (if pins.tcode = 3 then [(if pins.thsw || pins.ilockOpen then .cutoffCauseAdded else .cutoffEnter, 3, 0)] else []) ∧
    t.ca = { slots := ⟨none, none, none, none, none⟩, masks := ⟨false, false, false, false, false⟩,
             levels := ⟨0, 1, 1, 2, 2⟩, inService := none } ∧
    t.rcu.channels = (let c := ⟨1, 0, 1, 0, false, false, 10, false, true, false, false, false, false, none⟩
      ⟨c, c, c, c⟩) ∧
    t.rcu.rotating = false ∧ t.rcu.pointer = 0 ∧ t.rcu.pendingMarker = none ∧ t.rcu.serviceMarker = none ∧
    t.ce = { showState := .idle, reason := .none, index := 0xFFFF, clock := 0, leadOn := true, leadExtra := 10,
             lateMax := 0, pathMiss := 0, queue := [], phase := .loading, startInstant := 0, timelineInstant := 0,
             dueInstant := 0, fired := [], timedOut := false, loops := [], memory := [], pendingMarker := none,
             serviceMarker := none } ∧
    t.tmc = { tcode := pins.tcode, sensors := pins.sensors,
              state := if pins.tcode = 1 ∨ pins.tcode = 2 then .unhomed else .noTray,
              n := if pins.tcode = 1 then 80 else if pins.tcode = 2 then 120 else 0, p := 0, homed := false,
              homing := false, gate := if pins.sensors.gslide then .loaded else .empty,
              motor := if cut then .braked else .unpowered, lifter := false, display := 0xFFF, target := none, op := none,
              fromUnhomed := false, fromDark := false, darkenStanding := false, liftRetried := false,
              seatRetried := false, redirect := false, arrivals := 0, uncleanLoss := false,
              imposition := if cut then some .brake else none, liftRetryCount := 0, seatRetryCount := 0,
              outTime := 150, inTime := 200, blackout := 16, darkenLimit := none, liftTimer := none, lowerTimer := none,
              positionTimer := none, dropTimer := none, settleTimer := none } ∧
    t.lc = { lcur := pins.lcur, state := .off, active := .a, goodA := true, goodB := true, restrike := false,
             moveCleared := false, output := 0, fadeLevel := 0, showLevel := 900, ceiling := 1023, derate := 1023,
             fade := none, stored := none, strike := none, moveTimer := none, failureWatch := none, hold := .none,
             holdLevel := none, report := false, heldRelease := none, imposition := if cut then .off else .none,
             capLevel := 0, capLingers := false, h := 12288, lampGain := 32, fanGain := 8, derateStart := 19968,
             overheatLevel := 28160, restrikeMax := 8192, overheat := false, curves := linearCurves,
             lampPhase := some 2, heatPhase := some 100 } ∧
    t.fc = { state := .spinup, demand := if cut then 255 else 193, speed := 0, pulses := 0, grace := 4, stallWindows := 0,
             minimum := 96, coolDone := 3072, full := cut, windowPhase := some 250 } ∧
    t.cu = { flag := cut, causes := (if pins.thsw then 2 else 0) ||| (if pins.ilockOpen then 4 else 0) |||
               (if pins.tcode = 3 then 8 else 0), enables := 0xFF,
             lampSel := .off, traySel := .brake, tapeIgnore := false, audioIgnore := false, fanIgnore := false,
             overheat := false, thermostat := pins.thsw, interlock := pins.ilockOpen, trayLost := pins.tcode == 3,
             lampHanded := if cut then .off else .none, thswRaw := pins.thsw, ilockRaw := pins.ilockOpen,
             thswTimer := none, ilockTimer := none } ∧
    t.ttc = { tend := pins.tend, cuein := pins.cuein, state := .stopped, direction := .none, latched := none, counter := 0,
              locateTarget := none, brakingTimer := none, stallWatch := none, leader := none,
              decoder := if pins.cuein then .resync else .quiet, burstStart := 0, burstCount := 0, lastFall := 0,
              gapTimer := none, stuckTimer := none, past800 := false, fifo := [], route := .toShow, markChannel := none,
              writer := .idle, writerTimer := none, setLevel := 192, level := 192,
              ramp := if cut then some ⟨192, 0, 100, 0, 0⟩ else none, stopImposed := cut, muteImposed := cut } ∧
    t.rr = { rline := pins.rline, flim := pins.flim, receiver := .resync, lowLimit := none, frameEnd := none,
             idleTimer := if pins.rline then some 3 else none, unit := 0, enabled := true, held := none,
             releaseTimer := none, repeatTimer := none, lastKey := 0xFF, errors := 0, keyMap := defaultKeyMap,
             focus := .stopped, limitSide := .unknown, escapeWatch := none }) ∧
  (∀ s : State, s.notices = [] → exec .resetAsserted s = .next { s with
    pu := { s.pu with inReset := true, ceRequest := none, rwRequest := none, own := none, waitCount := 0 } })

/-- PART_RESET is answered DONE as the first directive of a new count, keeps the window base, the RAM, the heat, the curve
and key-map shadows, the tape counter and the uptime, and returns the rest to its state after PRST: each block's record, with
the impositions of a cutoff that a level cause still present enters again (R30, R58, R71, R88, R112, R128, R147, R163, R191,
R199, R209, R215). Marked as the model's: no effect while RESET is asserted (assumption log 7), no write in progress and none
asked for in the row of a reset (log 6), the open code, the show's fields and the other fields that no rule gives at reset
(log 26), the fade level kept (log 31), the mark of an intent cleared during a move kept (log 15), and the order of the
entries of several blocks (log 4). -/
def Obligations.PartReset : Prop :=
  ∀ s : State, s.notices = [] →
    (s.pu.inReset = true → exec .partReset s = .next s) ∧
    (s.pu.inReset = false → ∃ t, exec .partReset s = .next t ∧
      (∀ a, Memory.read t.mem a = Memory.read s.mem a) ∧ t.pending = s.pending ∧ t.notices = [] ∧
      t.pu.base = s.pu.base ∧ t.pu.inReset = false ∧ t.pu.waiting = false ∧ t.pu.waitCount = 0 ∧
      t.pu.hostBusy = s.pu.hostBusy ∧ t.pu.held = s.pu.held ∧ t.pu.hostData = s.pu.hostData ∧
      (t.pu.own.map fun c => (c.offset, c.data)) = (s.pu.own.map fun c => (c.offset, c.data)) ∧
      (∀ c, t.pu.own = some c → c.live = false) ∧
      AfterPrst s t ∧ t.rw = reportsAfterPrst s ∧
      (t.cu.flag = true ↔ s.cu.thswRaw = true ∨ s.cu.ilockRaw = true ∨ s.tmc.tcode = 3 ∨ t.lc.overheat = true))

/-! ## The step -/

/-- A step takes the command at the front of the queue and carries it out on the state with the queue's rest; with no
command waiting the part idles, which is the model's choice (assumption log 1). -/
def Obligations.StepTakesFront : Prop :=
  (∀ (c : Instr) (s : State), step { s with pending := c :: s.pending } = exec c s) ∧
  (∀ s : State, s.pending = [] → step s = .next s)


/-! ## What every step keeps -/

/-- Every step keeps the mechanism sound: the tray size of the code, the position on the ring and shown on the display, the
motor driven exactly in TURN, and an operation in service exactly in the phases of a cycle (R1, R2, R4, R9, R21, R28). -/
def Obligations.MechanismKept : Prop :=
  ∀ s : State, s.notices = [] → Mechanism s.tmc → ∀ t, step s = .next t → Mechanism t.tmc

/-- Every step keeps the lamp house sound: the output is the least of its terms, the thresholds of the heat profile stay in
order, the fan is stopped exactly at demand 0 and spins up exactly through its grace, and CD stays below RM (R41, R53, R54,
R64, R69). -/
def Obligations.LampHouseKept : Prop :=
  ∀ s : State, s.notices = [] → Lamphouse s.lc → Fan s.fc → CoolDone s → ∀ t, step s = .next t →
    Lamphouse t.lc ∧ Fan t.fc ∧ CoolDone t

/-- Every step keeps the cutoff sound: the set is empty exactly while the flag is clear, and a present enabled level cause is
in the set (R74, R77, R83). The levels that the blocks report stand at the Cutoff Unit as at their owners (R72). -/
def Obligations.CutoffKept : Prop :=
  ∀ s : State, s.notices = [] → Cutoff s.cu → s.cu.overheat = s.lc.overheat → s.cu.trayLost = s.tmc.trayLost →
    ∀ t, step s = .next t → Cutoff t.cu ∧ t.cu.overheat = t.lc.overheat ∧ t.cu.trayLost = t.tmc.trayLost

/-- Every step keeps the deck and the remote sound: at most eight cues wait, a request is latched only in BRAKING, the tape
has no direction exactly in STOPPED, the writer works only in RECORDING, at most twelve bits are held and the focus is
driven only for a key held (R89, R92, R97, R98, R102, R105, R107, R114, R116, R124). -/
def Obligations.DeckAndRemoteKept : Prop :=
  ∀ s : State, s.notices = [] → Deck s.ttc → Remote s.rr → ∀ t, step s = .next t → Deck t.ttc ∧ Remote t.rr

/-- Every step keeps the run channels and the Cue Engine sound: current count <= base count <= 119 with the slots in 1..120,
at most four staged entries with the current record at entry 0, and no index twice in the loop table or the outcome memory
(R148, R177, R183, R184). -/
def Obligations.ChannelsAndEngineKept : Prop :=
  ∀ s : State, s.notices = [] → RunChannels s → Engine s.ce → ∀ t, step s = .next t → RunChannels t ∧ Engine t.ce

/-- Every step keeps the memory, the passage, the reports and the decoder sound: the RAM list canonical, the part's own
writes inside the status block and the event ring, at most eight entries waiting, a wait count of 0 while nothing waits,
and a collecting directive short of an operand of those that the code table gives its code (R193, R195, R197, R203,
R205, R213). No notice is left between commands (assumption log 4). -/
def Obligations.PassageKept : Prop :=
  ∀ s : State, Drained s → Ram s → Reports s → Decoder s.dd → ∀ t, step s = .next t →
    Drained t ∧ Ram t ∧ Reports t ∧ Decoder t.dd

/-- Right after reset the part is sound in every block: what the steps keep holds where they begin. The input levels of this
state are the model's choice (assumption log 3). -/
def Obligations.ResetSound : Prop :=
  Ram State.reset ∧ Drained State.reset ∧ Mechanism State.reset.tmc ∧ Lamphouse State.reset.lc ∧ Fan State.reset.fc ∧
    CoolDone State.reset ∧ Cutoff State.reset.cu ∧ Deck State.reset.ttc ∧ Remote State.reset.rr ∧
    RunChannels State.reset ∧ Engine State.reset.ce ∧ Reports State.reset ∧ Decoder State.reset.dd ∧
    State.reset.cu.overheat = State.reset.lc.overheat ∧ State.reset.cu.trayLost = State.reset.tmc.trayLost


end
end

