-- ==== Sys2Proof/Laws/State.lean ====
section
/-! SUPPORT. The small lemmas of the state's shared updates: what posting a notice, replacing a block's record, marking
dirty lines, an act and the settling after it each leave in every field. -/

namespace Sys2Proof.Machine

open Sys2Proof.Safety

/-! ## Posting notices -/

/-- The notice is one the RW takes at once. -/
def Notice.immediate : Notice → Bool
  | .log _ _ | .dirty _ => true
  | _ => false

/-- The notices that join the queue. -/
def queuedOf (ns : List Notice) : List Notice := ns.filter fun n => !n.immediate

@[simp] theorem queuedOf_nil : queuedOf [] = [] := rfl

@[simp] theorem queuedOf_append (a b : List Notice) : queuedOf (a ++ b) = queuedOf a ++ queuedOf b := by
  simp [queuedOf]

@[simp] theorem loggedOf_nil : loggedOf [] = [] := rfl

@[simp] theorem loggedOf_append (a b : List Notice) : loggedOf (a ++ b) = loggedOf a ++ loggedOf b := by
  simp [loggedOf]

@[simp] theorem queuedOf_log (e : Event) (arg : Half) (ns : List Notice) : queuedOf (.log e arg :: ns) = queuedOf ns := by
  simp [queuedOf, Notice.immediate]

@[simp] theorem queuedOf_dirty (line : Nat) (ns : List Notice) : queuedOf (.dirty line :: ns) = queuedOf ns := by
  simp [queuedOf, Notice.immediate]

@[simp] theorem loggedOf_dirty (line : Nat) (ns : List Notice) : loggedOf (.dirty line :: ns) = loggedOf ns := by
  simp [loggedOf]

@[simp] theorem loggedOf_log (e : Event) (arg : Half) (ns : List Notice) :
    loggedOf (.log e arg :: ns) = (e, arg) :: loggedOf ns := by
  simp [loggedOf]

theorem State.post_cons (s : State) (n : Notice) (ns : List Notice) : s.post (n :: ns) = (s.post1 n).post ns := rfl

@[simp] theorem State.post_nil (s : State) : s.post [] = s := rfl

theorem State.post_append (s : State) (a b : List Notice) : s.post (a ++ b) = (s.post a).post b := by
  simp [State.post]

/-- Posting touches the notice queue and, in the RW, the buffer, the dropped count and the lines. -/
theorem State.post_eq (s : State) (ns : List Notice) :
    ∃ buffer dropped lines,
      s.post ns = { s with rw := { s.rw with buffer := buffer, dropped := dropped, lines := lines },
                           notices := s.notices ++ queuedOf ns } := by
  induction ns generalizing s with
  | nil => exact ⟨s.rw.buffer, s.rw.dropped, s.rw.lines, by simp⟩
  | cons n ns ih =>
    obtain ⟨b, d, l, h⟩ := ih (s.post1 n)
    rw [State.post_cons, h]
    cases n with
    | log e arg =>
      simp only [State.post1, Rw.handOver, queuedOf_log]
      split <;> exact ⟨b, d, l, rfl⟩
    | dirty k => exact ⟨b, d, l, by simp [State.post1, Rw.markDirty, queuedOf, Notice.immediate]⟩
    | _ => exact ⟨b, d, l, by simp [State.post1, queuedOf, Notice.immediate]⟩

@[simp] theorem State.post_mem (s : State) (ns : List Notice) :
    (s.post ns).mem = s.mem := by
  obtain ⟨_, _, _, h⟩ := s.post_eq ns; rw [h]

@[simp] theorem State.post_pu (s : State) (ns : List Notice) :
    (s.post ns).pu = s.pu := by
  obtain ⟨_, _, _, h⟩ := s.post_eq ns; rw [h]

@[simp] theorem State.post_dd (s : State) (ns : List Notice) :
    (s.post ns).dd = s.dd := by
  obtain ⟨_, _, _, h⟩ := s.post_eq ns; rw [h]

@[simp] theorem State.post_ce (s : State) (ns : List Notice) :
    (s.post ns).ce = s.ce := by
  obtain ⟨_, _, _, h⟩ := s.post_eq ns; rw [h]

@[simp] theorem State.post_ca (s : State) (ns : List Notice) :
    (s.post ns).ca = s.ca := by
  obtain ⟨_, _, _, h⟩ := s.post_eq ns; rw [h]

@[simp] theorem State.post_rcu (s : State) (ns : List Notice) :
    (s.post ns).rcu = s.rcu := by
  obtain ⟨_, _, _, h⟩ := s.post_eq ns; rw [h]

@[simp] theorem State.post_tmc (s : State) (ns : List Notice) :
    (s.post ns).tmc = s.tmc := by
  obtain ⟨_, _, _, h⟩ := s.post_eq ns; rw [h]

@[simp] theorem State.post_lc (s : State) (ns : List Notice) :
    (s.post ns).lc = s.lc := by
  obtain ⟨_, _, _, h⟩ := s.post_eq ns; rw [h]

@[simp] theorem State.post_fc (s : State) (ns : List Notice) :
    (s.post ns).fc = s.fc := by
  obtain ⟨_, _, _, h⟩ := s.post_eq ns; rw [h]

@[simp] theorem State.post_cu (s : State) (ns : List Notice) :
    (s.post ns).cu = s.cu := by
  obtain ⟨_, _, _, h⟩ := s.post_eq ns; rw [h]

@[simp] theorem State.post_ttc (s : State) (ns : List Notice) :
    (s.post ns).ttc = s.ttc := by
  obtain ⟨_, _, _, h⟩ := s.post_eq ns; rw [h]

@[simp] theorem State.post_rr (s : State) (ns : List Notice) :
    (s.post ns).rr = s.rr := by
  obtain ⟨_, _, _, h⟩ := s.post_eq ns; rw [h]

@[simp] theorem State.post_pending (s : State) (ns : List Notice) :
    (s.post ns).pending = s.pending := by
  obtain ⟨_, _, _, h⟩ := s.post_eq ns; rw [h]

@[simp] theorem State.post_notices (s : State) (ns : List Notice) :
    (s.post ns).notices = s.notices ++ queuedOf ns := by
  obtain ⟨_, _, _, h⟩ := s.post_eq ns; rw [h]

@[simp] theorem State.post_rw_uptime (s : State) (ns : List Notice) :
    (s.post ns).rw.uptime = s.rw.uptime := by
  obtain ⟨_, _, _, h⟩ := s.post_eq ns; rw [h]

@[simp] theorem State.post_rw_writeIndex (s : State) (ns : List Notice) :
    (s.post ns).rw.writeIndex = s.rw.writeIndex := by
  obtain ⟨_, _, _, h⟩ := s.post_eq ns; rw [h]

@[simp] theorem State.post_rw_readIndex (s : State) (ns : List Notice) :
    (s.post ns).rw.readIndex = s.rw.readIndex := by
  obtain ⟨_, _, _, h⟩ := s.post_eq ns; rw [h]

@[simp] theorem State.post_rw_job (s : State) (ns : List Notice) :
    (s.post ns).rw.job = s.rw.job := by
  obtain ⟨_, _, _, h⟩ := s.post_eq ns; rw [h]

@[simp] theorem State.post_rw_lastLine (s : State) (ns : List Notice) :
    (s.post ns).rw.lastLine = s.rw.lastLine := by
  obtain ⟨_, _, _, h⟩ := s.post_eq ns; rw [h]

@[simp] theorem State.post_rw_entryNext (s : State) (ns : List Notice) :
    (s.post ns).rw.entryNext = s.rw.entryNext := by
  obtain ⟨_, _, _, h⟩ := s.post_eq ns; rw [h]

/-- Entries handed over with room for them join the buffer in order (R213). -/
theorem State.post_rw_buffer (s : State) (ns : List Notice) (room : s.rw.buffer.length + (loggedOf ns).length ≤ 8) :
    (s.post ns).rw.buffer = s.rw.buffer ++ (loggedOf ns).map fun e => ⟨e.1, e.2, s.rw.uptime⟩ := by
  induction ns generalizing s with
  | nil => simp
  | cons n ns ih =>
    rw [State.post_cons]
    cases n with
    | log e arg =>
      have here : s.rw.buffer.length < 8 := by simp at room; omega
      rw [ih]
      · simp [State.post1, Rw.handOver, here]
      · simp [State.post1, Rw.handOver, here] at room ⊢; omega
    | _ => rw [ih] <;> first | rfl | exact room

/-! ## Dirty marks, acts and settling -/

/-- Marking lines touches nothing but the lines' dirty flags. -/
theorem foldl_mark_eq (g : Rw → Nat → Rw) (hg : ∀ rw n, ∃ ls, g rw n = { rw with lines := ls }) (ns : List Nat)
    (rw : Rw) : ∃ ls, ns.foldl g rw = { rw with lines := ls } := by
  induction ns generalizing rw with
  | nil => exact ⟨rw.lines, rfl⟩
  | cons n ns ih =>
    obtain ⟨ls, h⟩ := hg rw n
    obtain ⟨ls', h'⟩ := ih { rw with lines := ls }
    exact ⟨ls', by rw [List.foldl_cons, h, h']⟩

/-- Marking the changed lines changes the lines' records alone. -/
theorem State.markChanged_eq (before after : State) :
    ∃ ls, State.markChanged before after = { after with rw := { after.rw with lines := ls } } := by
  obtain ⟨ls, h⟩ := foldl_mark_eq
    (fun rw n => if before.lineData n = after.lineData n then rw else rw.markDirty n)
    (fun rw n => by
      by_cases hd : before.lineData n = after.lineData n
      · exact ⟨rw.lines, by simp [hd]⟩
      · exact ⟨_, by simp only [hd, if_false]; rfl⟩)
    (List.range 11) after.rw
  exact ⟨ls, by simp only [State.markChanged]; rw [h]⟩

/-- An act is its effect with some lines marked dirty. -/
theorem State.act_eq (s : State) (f : State → State) :
    ∃ ls, s.act f = { f s with rw := { (f s).rw with lines := ls } } := State.markChanged_eq s (f s)

@[simp] theorem State.act_mem (s : State) (f : State → State) :
    (s.act f).mem = (f s).mem := by
  obtain ⟨_, h⟩ := s.act_eq f; rw [h]

@[simp] theorem State.act_pu (s : State) (f : State → State) :
    (s.act f).pu = (f s).pu := by
  obtain ⟨_, h⟩ := s.act_eq f; rw [h]

@[simp] theorem State.act_dd (s : State) (f : State → State) :
    (s.act f).dd = (f s).dd := by
  obtain ⟨_, h⟩ := s.act_eq f; rw [h]

@[simp] theorem State.act_ce (s : State) (f : State → State) :
    (s.act f).ce = (f s).ce := by
  obtain ⟨_, h⟩ := s.act_eq f; rw [h]

@[simp] theorem State.act_ca (s : State) (f : State → State) :
    (s.act f).ca = (f s).ca := by
  obtain ⟨_, h⟩ := s.act_eq f; rw [h]

@[simp] theorem State.act_rcu (s : State) (f : State → State) :
    (s.act f).rcu = (f s).rcu := by
  obtain ⟨_, h⟩ := s.act_eq f; rw [h]

@[simp] theorem State.act_tmc (s : State) (f : State → State) :
    (s.act f).tmc = (f s).tmc := by
  obtain ⟨_, h⟩ := s.act_eq f; rw [h]

@[simp] theorem State.act_lc (s : State) (f : State → State) :
    (s.act f).lc = (f s).lc := by
  obtain ⟨_, h⟩ := s.act_eq f; rw [h]

@[simp] theorem State.act_fc (s : State) (f : State → State) :
    (s.act f).fc = (f s).fc := by
  obtain ⟨_, h⟩ := s.act_eq f; rw [h]

@[simp] theorem State.act_cu (s : State) (f : State → State) :
    (s.act f).cu = (f s).cu := by
  obtain ⟨_, h⟩ := s.act_eq f; rw [h]

@[simp] theorem State.act_ttc (s : State) (f : State → State) :
    (s.act f).ttc = (f s).ttc := by
  obtain ⟨_, h⟩ := s.act_eq f; rw [h]

@[simp] theorem State.act_rr (s : State) (f : State → State) :
    (s.act f).rr = (f s).rr := by
  obtain ⟨_, h⟩ := s.act_eq f; rw [h]

@[simp] theorem State.act_pending (s : State) (f : State → State) :
    (s.act f).pending = (f s).pending := by
  obtain ⟨_, h⟩ := s.act_eq f; rw [h]

@[simp] theorem State.act_notices (s : State) (f : State → State) :
    (s.act f).notices = (f s).notices := by
  obtain ⟨_, h⟩ := s.act_eq f; rw [h]

@[simp] theorem State.act_rw_uptime (s : State) (f : State → State) :
    (s.act f).rw.uptime = (f s).rw.uptime := by
  obtain ⟨_, h⟩ := s.act_eq f; rw [h]

@[simp] theorem State.act_rw_writeIndex (s : State) (f : State → State) :
    (s.act f).rw.writeIndex = (f s).rw.writeIndex := by
  obtain ⟨_, h⟩ := s.act_eq f; rw [h]

@[simp] theorem State.act_rw_readIndex (s : State) (f : State → State) :
    (s.act f).rw.readIndex = (f s).rw.readIndex := by
  obtain ⟨_, h⟩ := s.act_eq f; rw [h]

@[simp] theorem State.act_rw_job (s : State) (f : State → State) :
    (s.act f).rw.job = (f s).rw.job := by
  obtain ⟨_, h⟩ := s.act_eq f; rw [h]

@[simp] theorem State.act_rw_lastLine (s : State) (f : State → State) :
    (s.act f).rw.lastLine = (f s).rw.lastLine := by
  obtain ⟨_, h⟩ := s.act_eq f; rw [h]

@[simp] theorem State.act_rw_entryNext (s : State) (f : State → State) :
    (s.act f).rw.entryNext = (f s).rw.entryNext := by
  obtain ⟨_, h⟩ := s.act_eq f; rw [h]

@[simp] theorem State.act_rw_buffer (s : State) (f : State → State) :
    (s.act f).rw.buffer = (f s).rw.buffer := by
  obtain ⟨_, h⟩ := s.act_eq f; rw [h]

@[simp] theorem State.act_rw_dropped (s : State) (f : State → State) :
    (s.act f).rw.dropped = (f s).rw.dropped := by
  obtain ⟨_, h⟩ := s.act_eq f; rw [h]

/-- An entry lost at a full ring moves the dropped count, up to its limit, and lines' dirty flags alone (R211, R214). -/
theorem Rw.countDropped_eq (rw : Rw) :
    ∃ ls, rw.countDropped = { rw with dropped := min 255 (rw.dropped + 1), lines := ls } := by
  unfold Rw.countDropped
  split
  · exact ⟨_, by rw [Nat.min_eq_right (by omega)]; rfl⟩
  · exact ⟨rw.lines, by rw [Nat.min_eq_left (by omega)]⟩

/-- Choosing a write changes the RW alone, and there neither the clock nor the ring's indices. -/
theorem State.chooseJob_eq (fuel : Nat) (s : State) :
    ∃ rw : Rw, State.chooseJob fuel s = { s with rw := rw } ∧ rw.uptime = s.rw.uptime ∧
      rw.writeIndex = s.rw.writeIndex ∧ rw.readIndex = s.rw.readIndex := by
  induction fuel generalizing s with
  | zero => exact ⟨s.rw, rfl, rfl, rfl, rfl⟩
  | succ fuel ih =>
    have entry (e : Entry) (rest : List Entry) : ∃ rw : Rw,
        State.chooseJob fuel { s with rw := s.rw.takeEntry e rest } = { s with rw := rw } ∧ rw.uptime = s.rw.uptime ∧
          rw.writeIndex = s.rw.writeIndex ∧ rw.readIndex = s.rw.readIndex := by
      obtain ⟨rw, h, a, b, c⟩ := ih { s with rw := s.rw.takeEntry e rest }
      refine ⟨rw, h, a.trans ?_, b.trans ?_, c.trans ?_⟩ <;> simp only [Rw.takeEntry, Rw.countDropped] <;>
        (repeat' split) <;> rfl
    unfold State.chooseJob
    split
    · exact ⟨s.rw, rfl, rfl, rfl, rfl⟩
    · split
      · exact ⟨s.rw, rfl, rfl, rfl, rfl⟩
      · exact ⟨_, rfl, rfl, rfl, rfl⟩
      · exact entry _ _
      · split
        · exact entry _ _
        · exact ⟨_, rfl, rfl, rfl, rfl⟩

/-- The Report Writer's side changes the RW and the write it asks of the PU. -/
theorem State.kickReports_eq (s : State) :
    ∃ (rw : Rw) (w : Option WriteRequest), s.kickReports = { s with rw := rw, pu := { s.pu with rwRequest := w } } ∧
      rw.uptime = s.rw.uptime ∧ rw.writeIndex = s.rw.writeIndex ∧ rw.readIndex = s.rw.readIndex := by
  unfold State.kickReports
  split
  · exact ⟨s.rw, s.pu.rwRequest, rfl, rfl, rfl, rfl⟩
  · obtain ⟨rw, h, a, b, c⟩ := State.chooseJob_eq 10 s
    rw [h]
    unfold State.askByte
    split
    · exact ⟨rw, _, rfl, a, b, c⟩
    · exact ⟨rw, s.pu.rwRequest, rfl, a, b, c⟩

/-- Starting an own cycle changes what waits and what runs. -/
theorem Pu.start_eq (pu : Pu) :
    ∃ ce rw own, pu.start = { pu with ceRequest := ce, rwRequest := rw, own := own } := by
  unfold Pu.start
  split
  · unfold Pu.serve; split <;> exact ⟨_, _, _, rfl⟩
  · exact ⟨pu.ceRequest, pu.rwRequest, pu.own, rfl⟩

/-- Settling changes the RW, and what waits and runs on the part's own side of the bus. -/
theorem State.settle_eq (s : State) :
    ∃ (rw : Rw) (ce : Option Nat) (w : Option WriteRequest) (own : Option OwnCycle),
      s.settle = { s with rw := rw, pu := { s.pu with ceRequest := ce, rwRequest := w, own := own } } ∧
        rw.uptime = s.rw.uptime ∧ rw.writeIndex = s.rw.writeIndex ∧ rw.readIndex = s.rw.readIndex := by
  obtain ⟨rw, w, h, a, b, c⟩ := s.kickReports_eq
  obtain ⟨ce, w', own, h'⟩ := s.kickReports.pu.start_eq
  refine ⟨rw, ce, w', own, ?_, a, b, c⟩
  simp only [State.settle, h']
  rw [h]

@[simp] theorem State.settle_mem (s :
    State) : s.settle.mem = s.mem := by
  obtain ⟨_, _, _, _, h, _⟩ := s.settle_eq; rw [h]

@[simp] theorem State.settle_dd (s : State) : s.settle.dd = s.dd := by obtain ⟨_, _, _, _, h, _⟩ := s.settle_eq; rw [h]

@[simp] theorem State.settle_ce (s : State) : s.settle.ce = s.ce := by obtain ⟨_, _, _, _, h, _⟩ := s.settle_eq; rw [h]

@[simp] theorem State.settle_ca (s : State) : s.settle.ca = s.ca := by obtain ⟨_, _, _, _, h, _⟩ := s.settle_eq; rw [h]

@[simp] theorem State.settle_rcu (s :
    State) : s.settle.rcu = s.rcu := by
  obtain ⟨_, _, _, _, h, _⟩ := s.settle_eq; rw [h]

@[simp] theorem State.settle_tmc (s :
    State) : s.settle.tmc = s.tmc := by
  obtain ⟨_, _, _, _, h, _⟩ := s.settle_eq; rw [h]

@[simp] theorem State.settle_lc (s : State) : s.settle.lc = s.lc := by obtain ⟨_, _, _, _, h, _⟩ := s.settle_eq; rw [h]

@[simp] theorem State.settle_fc (s : State) : s.settle.fc = s.fc := by obtain ⟨_, _, _, _, h, _⟩ := s.settle_eq; rw [h]

@[simp] theorem State.settle_cu (s : State) : s.settle.cu = s.cu := by obtain ⟨_, _, _, _, h, _⟩ := s.settle_eq; rw [h]

@[simp] theorem State.settle_ttc (s :
    State) : s.settle.ttc = s.ttc := by
  obtain ⟨_, _, _, _, h, _⟩ := s.settle_eq; rw [h]

@[simp] theorem State.settle_rr (s : State) : s.settle.rr = s.rr := by obtain ⟨_, _, _, _, h, _⟩ := s.settle_eq; rw [h]

@[simp] theorem State.settle_pending (s :
    State) : s.settle.pending = s.pending := by
  obtain ⟨_, _, _, _, h, _⟩ := s.settle_eq; rw [h]

@[simp] theorem State.settle_notices (s :
    State) : s.settle.notices = s.notices := by
  obtain ⟨_, _, _, _, h, _⟩ := s.settle_eq; rw [h]

@[simp] theorem State.settle_pu_base (s :
    State) : s.settle.pu.base = s.pu.base := by
  obtain ⟨_, _, _, _, h, _⟩ := s.settle_eq; rw [h]

@[simp] theorem State.settle_pu_inReset (s :
    State) : s.settle.pu.inReset = s.pu.inReset := by
  obtain ⟨_, _, _, _, h, _⟩ := s.settle_eq; rw [h]

@[simp] theorem State.settle_pu_waitCount (s :
    State) : s.settle.pu.waitCount = s.pu.waitCount := by
  obtain ⟨_, _, _, _, h, _⟩ := s.settle_eq; rw [h]

@[simp] theorem State.settle_pu_hostBusy (s :
    State) : s.settle.pu.hostBusy = s.pu.hostBusy := by
  obtain ⟨_, _, _, _, h, _⟩ := s.settle_eq; rw [h]

@[simp] theorem State.settle_pu_held (s :
    State) : s.settle.pu.held = s.pu.held := by
  obtain ⟨_, _, _, _, h, _⟩ := s.settle_eq; rw [h]

@[simp] theorem State.settle_pu_hostData (s :
    State) : s.settle.pu.hostData = s.pu.hostData := by
  obtain ⟨_, _, _, _, h, _⟩ := s.settle_eq; rw [h]

@[simp] theorem State.settle_rw_uptime (s :
    State) : s.settle.rw.uptime = s.rw.uptime := by
  obtain ⟨_, _, _, _, h, a, b, c⟩ := s.settle_eq; rw [h]; exact a

@[simp] theorem State.settle_rw_writeIndex (s :
    State) : s.settle.rw.writeIndex = s.rw.writeIndex := by
  obtain ⟨_, _, _, _, h, a, b, c⟩ := s.settle_eq; rw [h]; exact b

@[simp] theorem State.settle_rw_readIndex (s :
    State) : s.settle.rw.readIndex = s.rw.readIndex := by
  obtain ⟨_, _, _, _, h, a, b, c⟩ := s.settle_eq; rw [h]; exact c

/-- With a write in progress, settling takes nothing from the buffer. -/
theorem State.settle_rw_buffer (s : State) (busy : s.rw.job.isSome = true) : s.settle.rw.buffer = s.rw.buffer := by
  simp [State.settle, State.kickReports, busy]

/-! ## A block's record replaced -/

@[simp] theorem State.putTmc_mem (s : State) (r : Reaction Tmc) : (s.putTmc r).mem = s.mem := by simp [State.putTmc]

@[simp] theorem State.putTmc_pu (s : State) (r : Reaction Tmc) : (s.putTmc r).pu = s.pu := by simp [State.putTmc]

@[simp] theorem State.putTmc_dd (s : State) (r : Reaction Tmc) : (s.putTmc r).dd = s.dd := by simp [State.putTmc]

@[simp] theorem State.putTmc_ce (s : State) (r : Reaction Tmc) : (s.putTmc r).ce = s.ce := by simp [State.putTmc]

@[simp] theorem State.putTmc_ca (s : State) (r : Reaction Tmc) : (s.putTmc r).ca = s.ca := by simp [State.putTmc]

@[simp] theorem State.putTmc_rcu (s : State) (r : Reaction Tmc) : (s.putTmc r).rcu = s.rcu := by simp [State.putTmc]

@[simp] theorem State.putTmc_tmc (s : State) (r : Reaction Tmc) : (s.putTmc r).tmc = r.1 := by simp [State.putTmc]

@[simp] theorem State.putTmc_lc (s : State) (r : Reaction Tmc) : (s.putTmc r).lc = s.lc := by simp [State.putTmc]

@[simp] theorem State.putTmc_fc (s : State) (r : Reaction Tmc) : (s.putTmc r).fc = s.fc := by simp [State.putTmc]

@[simp] theorem State.putTmc_cu (s : State) (r : Reaction Tmc) : (s.putTmc r).cu = s.cu := by simp [State.putTmc]

@[simp] theorem State.putTmc_ttc (s : State) (r : Reaction Tmc) : (s.putTmc r).ttc = s.ttc := by simp [State.putTmc]

@[simp] theorem State.putTmc_rr (s : State) (r : Reaction Tmc) : (s.putTmc r).rr = s.rr := by simp [State.putTmc]

@[simp] theorem State.putTmc_pending (s : State) (r : Reaction Tmc) :
    (s.putTmc r).pending = s.pending := by
  simp [State.putTmc]

@[simp] theorem State.putTmc_rw_uptime (s : State) (r : Reaction Tmc) :
    (s.putTmc r).rw.uptime = s.rw.uptime := by
  simp [State.putTmc]

@[simp] theorem State.putTmc_rw_writeIndex (s : State) (r : Reaction Tmc) :
    (s.putTmc r).rw.writeIndex = s.rw.writeIndex := by
  simp [State.putTmc]

@[simp] theorem State.putTmc_rw_readIndex (s : State) (r : Reaction Tmc) :
    (s.putTmc r).rw.readIndex = s.rw.readIndex := by
  simp [State.putTmc]

@[simp] theorem State.putTmc_rw_job (s : State) (r : Reaction Tmc) :
    (s.putTmc r).rw.job = s.rw.job := by
  simp [State.putTmc]

theorem State.putTmc_notices (s : State) (r : Reaction Tmc) :
    (s.putTmc r).notices = s.notices ++ queuedOf r.2 := by
  simp [State.putTmc, State.post_notices]

theorem State.putTmc_buffer (s : State) (r : Reaction Tmc)
    (room : s.rw.buffer.length + (loggedOf r.2).length ≤ 8) :
    (s.putTmc r).rw.buffer = s.rw.buffer ++ (loggedOf r.2).map fun e => ⟨e.1, e.2, s.rw.uptime⟩ :=
  State.post_rw_buffer _ _ room

@[simp] theorem State.putFc_mem (s : State) (r : Reaction Fc) : (s.putFc r).mem = s.mem := by simp [State.putFc]

@[simp] theorem State.putFc_pu (s : State) (r : Reaction Fc) : (s.putFc r).pu = s.pu := by simp [State.putFc]

@[simp] theorem State.putFc_dd (s : State) (r : Reaction Fc) : (s.putFc r).dd = s.dd := by simp [State.putFc]

@[simp] theorem State.putFc_ce (s : State) (r : Reaction Fc) : (s.putFc r).ce = s.ce := by simp [State.putFc]

@[simp] theorem State.putFc_ca (s : State) (r : Reaction Fc) : (s.putFc r).ca = s.ca := by simp [State.putFc]

@[simp] theorem State.putFc_rcu (s : State) (r : Reaction Fc) : (s.putFc r).rcu = s.rcu := by simp [State.putFc]

@[simp] theorem State.putFc_tmc (s : State) (r : Reaction Fc) : (s.putFc r).tmc = s.tmc := by simp [State.putFc]

@[simp] theorem State.putFc_lc (s : State) (r : Reaction Fc) : (s.putFc r).lc = s.lc := by simp [State.putFc]

@[simp] theorem State.putFc_fc (s : State) (r : Reaction Fc) : (s.putFc r).fc = r.1 := by simp [State.putFc]

@[simp] theorem State.putFc_cu (s : State) (r : Reaction Fc) : (s.putFc r).cu = s.cu := by simp [State.putFc]

@[simp] theorem State.putFc_ttc (s : State) (r : Reaction Fc) : (s.putFc r).ttc = s.ttc := by simp [State.putFc]

@[simp] theorem State.putFc_rr (s : State) (r : Reaction Fc) : (s.putFc r).rr = s.rr := by simp [State.putFc]

@[simp] theorem State.putFc_pending (s : State) (r : Reaction Fc) :
    (s.putFc r).pending = s.pending := by
  simp [State.putFc]

@[simp] theorem State.putFc_rw_uptime (s : State) (r : Reaction Fc) :
    (s.putFc r).rw.uptime = s.rw.uptime := by
  simp [State.putFc]

@[simp] theorem State.putFc_rw_writeIndex (s : State) (r : Reaction Fc) :
    (s.putFc r).rw.writeIndex = s.rw.writeIndex := by
  simp [State.putFc]

@[simp] theorem State.putFc_rw_readIndex (s : State) (r : Reaction Fc) :
    (s.putFc r).rw.readIndex = s.rw.readIndex := by
  simp [State.putFc]

@[simp] theorem State.putFc_rw_job (s : State) (r : Reaction Fc) :
    (s.putFc r).rw.job = s.rw.job := by
  simp [State.putFc]

theorem State.putFc_notices (s : State) (r : Reaction Fc) :
    (s.putFc r).notices = s.notices ++ queuedOf r.2 := by
  simp [State.putFc, State.post_notices]

theorem State.putFc_buffer (s : State) (r : Reaction Fc)
    (room : s.rw.buffer.length + (loggedOf r.2).length ≤ 8) :
    (s.putFc r).rw.buffer = s.rw.buffer ++ (loggedOf r.2).map fun e => ⟨e.1, e.2, s.rw.uptime⟩ :=
  State.post_rw_buffer _ _ room

@[simp] theorem State.putCu_mem (s : State) (r : Reaction Cu) : (s.putCu r).mem = s.mem := by simp [State.putCu]

@[simp] theorem State.putCu_pu (s : State) (r : Reaction Cu) : (s.putCu r).pu = s.pu := by simp [State.putCu]

@[simp] theorem State.putCu_dd (s : State) (r : Reaction Cu) : (s.putCu r).dd = s.dd := by simp [State.putCu]

@[simp] theorem State.putCu_ce (s : State) (r : Reaction Cu) : (s.putCu r).ce = s.ce := by simp [State.putCu]

@[simp] theorem State.putCu_ca (s : State) (r : Reaction Cu) : (s.putCu r).ca = s.ca := by simp [State.putCu]

@[simp] theorem State.putCu_rcu (s : State) (r : Reaction Cu) : (s.putCu r).rcu = s.rcu := by simp [State.putCu]

@[simp] theorem State.putCu_tmc (s : State) (r : Reaction Cu) : (s.putCu r).tmc = s.tmc := by simp [State.putCu]

@[simp] theorem State.putCu_lc (s : State) (r : Reaction Cu) : (s.putCu r).lc = s.lc := by simp [State.putCu]

@[simp] theorem State.putCu_fc (s : State) (r : Reaction Cu) : (s.putCu r).fc = s.fc := by simp [State.putCu]

@[simp] theorem State.putCu_cu (s : State) (r : Reaction Cu) : (s.putCu r).cu = r.1 := by simp [State.putCu]

@[simp] theorem State.putCu_ttc (s : State) (r : Reaction Cu) : (s.putCu r).ttc = s.ttc := by simp [State.putCu]

@[simp] theorem State.putCu_rr (s : State) (r : Reaction Cu) : (s.putCu r).rr = s.rr := by simp [State.putCu]

@[simp] theorem State.putCu_pending (s : State) (r : Reaction Cu) :
    (s.putCu r).pending = s.pending := by
  simp [State.putCu]

@[simp] theorem State.putCu_rw_uptime (s : State) (r : Reaction Cu) :
    (s.putCu r).rw.uptime = s.rw.uptime := by
  simp [State.putCu]

@[simp] theorem State.putCu_rw_writeIndex (s : State) (r : Reaction Cu) :
    (s.putCu r).rw.writeIndex = s.rw.writeIndex := by
  simp [State.putCu]

@[simp] theorem State.putCu_rw_readIndex (s : State) (r : Reaction Cu) :
    (s.putCu r).rw.readIndex = s.rw.readIndex := by
  simp [State.putCu]

@[simp] theorem State.putCu_rw_job (s : State) (r : Reaction Cu) :
    (s.putCu r).rw.job = s.rw.job := by
  simp [State.putCu]

theorem State.putCu_notices (s : State) (r : Reaction Cu) :
    (s.putCu r).notices = s.notices ++ queuedOf r.2 := by
  simp [State.putCu, State.post_notices]

theorem State.putCu_buffer (s : State) (r : Reaction Cu)
    (room : s.rw.buffer.length + (loggedOf r.2).length ≤ 8) :
    (s.putCu r).rw.buffer = s.rw.buffer ++ (loggedOf r.2).map fun e => ⟨e.1, e.2, s.rw.uptime⟩ :=
  State.post_rw_buffer _ _ room

@[simp] theorem State.putTtc_mem (s : State) (r : Reaction Ttc) : (s.putTtc r).mem = s.mem := by simp [State.putTtc]

@[simp] theorem State.putTtc_pu (s : State) (r : Reaction Ttc) : (s.putTtc r).pu = s.pu := by simp [State.putTtc]

@[simp] theorem State.putTtc_dd (s : State) (r : Reaction Ttc) : (s.putTtc r).dd = s.dd := by simp [State.putTtc]

@[simp] theorem State.putTtc_ce (s : State) (r : Reaction Ttc) : (s.putTtc r).ce = s.ce := by simp [State.putTtc]

@[simp] theorem State.putTtc_ca (s : State) (r : Reaction Ttc) : (s.putTtc r).ca = s.ca := by simp [State.putTtc]

@[simp] theorem State.putTtc_rcu (s : State) (r : Reaction Ttc) : (s.putTtc r).rcu = s.rcu := by simp [State.putTtc]

@[simp] theorem State.putTtc_tmc (s : State) (r : Reaction Ttc) : (s.putTtc r).tmc = s.tmc := by simp [State.putTtc]

@[simp] theorem State.putTtc_lc (s : State) (r : Reaction Ttc) : (s.putTtc r).lc = s.lc := by simp [State.putTtc]

@[simp] theorem State.putTtc_fc (s : State) (r : Reaction Ttc) : (s.putTtc r).fc = s.fc := by simp [State.putTtc]

@[simp] theorem State.putTtc_cu (s : State) (r : Reaction Ttc) : (s.putTtc r).cu = s.cu := by simp [State.putTtc]

@[simp] theorem State.putTtc_ttc (s : State) (r : Reaction Ttc) : (s.putTtc r).ttc = r.1 := by simp [State.putTtc]

@[simp] theorem State.putTtc_rr (s : State) (r : Reaction Ttc) : (s.putTtc r).rr = s.rr := by simp [State.putTtc]

@[simp] theorem State.putTtc_pending (s : State) (r : Reaction Ttc) :
    (s.putTtc r).pending = s.pending := by
  simp [State.putTtc]

@[simp] theorem State.putTtc_rw_uptime (s : State) (r : Reaction Ttc) :
    (s.putTtc r).rw.uptime = s.rw.uptime := by
  simp [State.putTtc]

@[simp] theorem State.putTtc_rw_writeIndex (s : State) (r : Reaction Ttc) :
    (s.putTtc r).rw.writeIndex = s.rw.writeIndex := by
  simp [State.putTtc]

@[simp] theorem State.putTtc_rw_readIndex (s : State) (r : Reaction Ttc) :
    (s.putTtc r).rw.readIndex = s.rw.readIndex := by
  simp [State.putTtc]

@[simp] theorem State.putTtc_rw_job (s : State) (r : Reaction Ttc) :
    (s.putTtc r).rw.job = s.rw.job := by
  simp [State.putTtc]

theorem State.putTtc_notices (s : State) (r : Reaction Ttc) :
    (s.putTtc r).notices = s.notices ++ queuedOf r.2 := by
  simp [State.putTtc, State.post_notices]

theorem State.putTtc_buffer (s : State) (r : Reaction Ttc)
    (room : s.rw.buffer.length + (loggedOf r.2).length ≤ 8) :
    (s.putTtc r).rw.buffer = s.rw.buffer ++ (loggedOf r.2).map fun e => ⟨e.1, e.2, s.rw.uptime⟩ :=
  State.post_rw_buffer _ _ room

@[simp] theorem State.putRr_mem (s : State) (r : Reaction Rr) : (s.putRr r).mem = s.mem := by simp [State.putRr]

@[simp] theorem State.putRr_pu (s : State) (r : Reaction Rr) : (s.putRr r).pu = s.pu := by simp [State.putRr]

@[simp] theorem State.putRr_dd (s : State) (r : Reaction Rr) : (s.putRr r).dd = s.dd := by simp [State.putRr]

@[simp] theorem State.putRr_ce (s : State) (r : Reaction Rr) : (s.putRr r).ce = s.ce := by simp [State.putRr]

@[simp] theorem State.putRr_ca (s : State) (r : Reaction Rr) : (s.putRr r).ca = s.ca := by simp [State.putRr]

@[simp] theorem State.putRr_rcu (s : State) (r : Reaction Rr) : (s.putRr r).rcu = s.rcu := by simp [State.putRr]

@[simp] theorem State.putRr_tmc (s : State) (r : Reaction Rr) : (s.putRr r).tmc = s.tmc := by simp [State.putRr]

@[simp] theorem State.putRr_lc (s : State) (r : Reaction Rr) : (s.putRr r).lc = s.lc := by simp [State.putRr]

@[simp] theorem State.putRr_fc (s : State) (r : Reaction Rr) : (s.putRr r).fc = s.fc := by simp [State.putRr]

@[simp] theorem State.putRr_cu (s : State) (r : Reaction Rr) : (s.putRr r).cu = s.cu := by simp [State.putRr]

@[simp] theorem State.putRr_ttc (s : State) (r : Reaction Rr) : (s.putRr r).ttc = s.ttc := by simp [State.putRr]

@[simp] theorem State.putRr_rr (s : State) (r : Reaction Rr) : (s.putRr r).rr = r.1 := by simp [State.putRr]

@[simp] theorem State.putRr_pending (s : State) (r : Reaction Rr) :
    (s.putRr r).pending = s.pending := by
  simp [State.putRr]

@[simp] theorem State.putRr_rw_uptime (s : State) (r : Reaction Rr) :
    (s.putRr r).rw.uptime = s.rw.uptime := by
  simp [State.putRr]

@[simp] theorem State.putRr_rw_writeIndex (s : State) (r : Reaction Rr) :
    (s.putRr r).rw.writeIndex = s.rw.writeIndex := by
  simp [State.putRr]

@[simp] theorem State.putRr_rw_readIndex (s : State) (r : Reaction Rr) :
    (s.putRr r).rw.readIndex = s.rw.readIndex := by
  simp [State.putRr]

@[simp] theorem State.putRr_rw_job (s : State) (r : Reaction Rr) :
    (s.putRr r).rw.job = s.rw.job := by
  simp [State.putRr]

theorem State.putRr_notices (s : State) (r : Reaction Rr) :
    (s.putRr r).notices = s.notices ++ queuedOf r.2 := by
  simp [State.putRr, State.post_notices]

theorem State.putRr_buffer (s : State) (r : Reaction Rr)
    (room : s.rw.buffer.length + (loggedOf r.2).length ≤ 8) :
    (s.putRr r).rw.buffer = s.rw.buffer ++ (loggedOf r.2).map fun e => ⟨e.1, e.2, s.rw.uptime⟩ :=
  State.post_rw_buffer _ _ room

@[simp] theorem State.putCa_mem (s : State) (r : Reaction Ca) : (s.putCa r).mem = s.mem := by simp [State.putCa]

@[simp] theorem State.putCa_pu (s : State) (r : Reaction Ca) : (s.putCa r).pu = s.pu := by simp [State.putCa]

@[simp] theorem State.putCa_dd (s : State) (r : Reaction Ca) : (s.putCa r).dd = s.dd := by simp [State.putCa]

@[simp] theorem State.putCa_ce (s : State) (r : Reaction Ca) : (s.putCa r).ce = s.ce := by simp [State.putCa]

@[simp] theorem State.putCa_ca (s : State) (r : Reaction Ca) : (s.putCa r).ca = r.1 := by simp [State.putCa]

@[simp] theorem State.putCa_rcu (s : State) (r : Reaction Ca) : (s.putCa r).rcu = s.rcu := by simp [State.putCa]

@[simp] theorem State.putCa_tmc (s : State) (r : Reaction Ca) : (s.putCa r).tmc = s.tmc := by simp [State.putCa]

@[simp] theorem State.putCa_lc (s : State) (r : Reaction Ca) : (s.putCa r).lc = s.lc := by simp [State.putCa]

@[simp] theorem State.putCa_fc (s : State) (r : Reaction Ca) : (s.putCa r).fc = s.fc := by simp [State.putCa]

@[simp] theorem State.putCa_cu (s : State) (r : Reaction Ca) : (s.putCa r).cu = s.cu := by simp [State.putCa]

@[simp] theorem State.putCa_ttc (s : State) (r : Reaction Ca) : (s.putCa r).ttc = s.ttc := by simp [State.putCa]

@[simp] theorem State.putCa_rr (s : State) (r : Reaction Ca) : (s.putCa r).rr = s.rr := by simp [State.putCa]

@[simp] theorem State.putCa_pending (s : State) (r : Reaction Ca) :
    (s.putCa r).pending = s.pending := by
  simp [State.putCa]

@[simp] theorem State.putCa_rw_uptime (s : State) (r : Reaction Ca) :
    (s.putCa r).rw.uptime = s.rw.uptime := by
  simp [State.putCa]

@[simp] theorem State.putCa_rw_writeIndex (s : State) (r : Reaction Ca) :
    (s.putCa r).rw.writeIndex = s.rw.writeIndex := by
  simp [State.putCa]

@[simp] theorem State.putCa_rw_readIndex (s : State) (r : Reaction Ca) :
    (s.putCa r).rw.readIndex = s.rw.readIndex := by
  simp [State.putCa]

@[simp] theorem State.putCa_rw_job (s : State) (r : Reaction Ca) :
    (s.putCa r).rw.job = s.rw.job := by
  simp [State.putCa]

theorem State.putCa_notices (s : State) (r : Reaction Ca) :
    (s.putCa r).notices = s.notices ++ queuedOf r.2 := by
  simp [State.putCa, State.post_notices]

theorem State.putCa_buffer (s : State) (r : Reaction Ca)
    (room : s.rw.buffer.length + (loggedOf r.2).length ≤ 8) :
    (s.putCa r).rw.buffer = s.rw.buffer ++ (loggedOf r.2).map fun e => ⟨e.1, e.2, s.rw.uptime⟩ :=
  State.post_rw_buffer _ _ room

@[simp] theorem State.putRcu_mem (s : State) (r : Reaction Rcu) : (s.putRcu r).mem = s.mem := by simp [State.putRcu]

@[simp] theorem State.putRcu_pu (s : State) (r : Reaction Rcu) : (s.putRcu r).pu = s.pu := by simp [State.putRcu]

@[simp] theorem State.putRcu_dd (s : State) (r : Reaction Rcu) : (s.putRcu r).dd = s.dd := by simp [State.putRcu]

@[simp] theorem State.putRcu_ce (s : State) (r : Reaction Rcu) : (s.putRcu r).ce = s.ce := by simp [State.putRcu]

@[simp] theorem State.putRcu_ca (s : State) (r : Reaction Rcu) : (s.putRcu r).ca = s.ca := by simp [State.putRcu]

@[simp] theorem State.putRcu_rcu (s : State) (r : Reaction Rcu) : (s.putRcu r).rcu = r.1 := by simp [State.putRcu]

@[simp] theorem State.putRcu_tmc (s : State) (r : Reaction Rcu) : (s.putRcu r).tmc = s.tmc := by simp [State.putRcu]

@[simp] theorem State.putRcu_lc (s : State) (r : Reaction Rcu) : (s.putRcu r).lc = s.lc := by simp [State.putRcu]

@[simp] theorem State.putRcu_fc (s : State) (r : Reaction Rcu) : (s.putRcu r).fc = s.fc := by simp [State.putRcu]

@[simp] theorem State.putRcu_cu (s : State) (r : Reaction Rcu) : (s.putRcu r).cu = s.cu := by simp [State.putRcu]

@[simp] theorem State.putRcu_ttc (s : State) (r : Reaction Rcu) : (s.putRcu r).ttc = s.ttc := by simp [State.putRcu]

@[simp] theorem State.putRcu_rr (s : State) (r : Reaction Rcu) : (s.putRcu r).rr = s.rr := by simp [State.putRcu]

@[simp] theorem State.putRcu_pending (s : State) (r : Reaction Rcu) :
    (s.putRcu r).pending = s.pending := by
  simp [State.putRcu]

@[simp] theorem State.putRcu_rw_uptime (s : State) (r : Reaction Rcu) :
    (s.putRcu r).rw.uptime = s.rw.uptime := by
  simp [State.putRcu]

@[simp] theorem State.putRcu_rw_writeIndex (s : State) (r : Reaction Rcu) :
    (s.putRcu r).rw.writeIndex = s.rw.writeIndex := by
  simp [State.putRcu]

@[simp] theorem State.putRcu_rw_readIndex (s : State) (r : Reaction Rcu) :
    (s.putRcu r).rw.readIndex = s.rw.readIndex := by
  simp [State.putRcu]

@[simp] theorem State.putRcu_rw_job (s : State) (r : Reaction Rcu) :
    (s.putRcu r).rw.job = s.rw.job := by
  simp [State.putRcu]

theorem State.putRcu_notices (s : State) (r : Reaction Rcu) :
    (s.putRcu r).notices = s.notices ++ queuedOf r.2 := by
  simp [State.putRcu, State.post_notices]

theorem State.putRcu_buffer (s : State) (r : Reaction Rcu)
    (room : s.rw.buffer.length + (loggedOf r.2).length ≤ 8) :
    (s.putRcu r).rw.buffer = s.rw.buffer ++ (loggedOf r.2).map fun e => ⟨e.1, e.2, s.rw.uptime⟩ :=
  State.post_rw_buffer _ _ room

@[simp] theorem State.putCe_mem (s : State) (r : Reaction Ce) : (s.putCe r).mem = s.mem := by simp [State.putCe]

@[simp] theorem State.putCe_pu (s : State) (r : Reaction Ce) : (s.putCe r).pu = s.pu := by simp [State.putCe]

@[simp] theorem State.putCe_dd (s : State) (r : Reaction Ce) : (s.putCe r).dd = s.dd := by simp [State.putCe]

@[simp] theorem State.putCe_ce (s : State) (r : Reaction Ce) : (s.putCe r).ce = r.1 := by simp [State.putCe]

@[simp] theorem State.putCe_ca (s : State) (r : Reaction Ce) : (s.putCe r).ca = s.ca := by simp [State.putCe]

@[simp] theorem State.putCe_rcu (s : State) (r : Reaction Ce) : (s.putCe r).rcu = s.rcu := by simp [State.putCe]

@[simp] theorem State.putCe_tmc (s : State) (r : Reaction Ce) : (s.putCe r).tmc = s.tmc := by simp [State.putCe]

@[simp] theorem State.putCe_lc (s : State) (r : Reaction Ce) : (s.putCe r).lc = s.lc := by simp [State.putCe]

@[simp] theorem State.putCe_fc (s : State) (r : Reaction Ce) : (s.putCe r).fc = s.fc := by simp [State.putCe]

@[simp] theorem State.putCe_cu (s : State) (r : Reaction Ce) : (s.putCe r).cu = s.cu := by simp [State.putCe]

@[simp] theorem State.putCe_ttc (s : State) (r : Reaction Ce) : (s.putCe r).ttc = s.ttc := by simp [State.putCe]

@[simp] theorem State.putCe_rr (s : State) (r : Reaction Ce) : (s.putCe r).rr = s.rr := by simp [State.putCe]

@[simp] theorem State.putCe_pending (s : State) (r : Reaction Ce) :
    (s.putCe r).pending = s.pending := by
  simp [State.putCe]

@[simp] theorem State.putCe_rw_uptime (s : State) (r : Reaction Ce) :
    (s.putCe r).rw.uptime = s.rw.uptime := by
  simp [State.putCe]

@[simp] theorem State.putCe_rw_writeIndex (s : State) (r : Reaction Ce) :
    (s.putCe r).rw.writeIndex = s.rw.writeIndex := by
  simp [State.putCe]

@[simp] theorem State.putCe_rw_readIndex (s : State) (r : Reaction Ce) :
    (s.putCe r).rw.readIndex = s.rw.readIndex := by
  simp [State.putCe]

@[simp] theorem State.putCe_rw_job (s : State) (r : Reaction Ce) :
    (s.putCe r).rw.job = s.rw.job := by
  simp [State.putCe]

theorem State.putCe_notices (s : State) (r : Reaction Ce) :
    (s.putCe r).notices = s.notices ++ queuedOf r.2 := by
  simp [State.putCe, State.post_notices]

theorem State.putCe_buffer (s : State) (r : Reaction Ce)
    (room : s.rw.buffer.length + (loggedOf r.2).length ≤ 8) :
    (s.putCe r).rw.buffer = s.rw.buffer ++ (loggedOf r.2).map fun e => ⟨e.1, e.2, s.rw.uptime⟩ :=
  State.post_rw_buffer _ _ room

@[simp] theorem State.putLc_mem (s : State) (r : Reaction Lc) : (s.putLc r).mem = s.mem := by simp [State.putLc]

@[simp] theorem State.putLc_pu (s : State) (r : Reaction Lc) : (s.putLc r).pu = s.pu := by simp [State.putLc]

@[simp] theorem State.putLc_dd (s : State) (r : Reaction Lc) : (s.putLc r).dd = s.dd := by simp [State.putLc]

@[simp] theorem State.putLc_ce (s : State) (r : Reaction Lc) : (s.putLc r).ce = s.ce := by simp [State.putLc]

@[simp] theorem State.putLc_ca (s : State) (r : Reaction Lc) : (s.putLc r).ca = s.ca := by simp [State.putLc]

@[simp] theorem State.putLc_rcu (s : State) (r : Reaction Lc) : (s.putLc r).rcu = s.rcu := by simp [State.putLc]

@[simp] theorem State.putLc_tmc (s : State) (r : Reaction Lc) : (s.putLc r).tmc = s.tmc := by simp [State.putLc]

@[simp] theorem State.putLc_lc (s : State) (r : Reaction Lc) : (s.putLc r).lc = r.1 := by simp [State.putLc]

@[simp] theorem State.putLc_fc (s : State) (r : Reaction Lc) : (s.putLc r).fc = s.fc := by simp [State.putLc]

@[simp] theorem State.putLc_cu (s : State) (r : Reaction Lc) : (s.putLc r).cu = s.cu := by simp [State.putLc]

@[simp] theorem State.putLc_ttc (s : State) (r : Reaction Lc) : (s.putLc r).ttc = s.ttc := by simp [State.putLc]

@[simp] theorem State.putLc_rr (s : State) (r : Reaction Lc) : (s.putLc r).rr = s.rr := by simp [State.putLc]

@[simp] theorem State.putLc_pending (s : State) (r : Reaction Lc) :
    (s.putLc r).pending = s.pending := by
  simp [State.putLc]

@[simp] theorem State.putLc_rw_uptime (s : State) (r : Reaction Lc) :
    (s.putLc r).rw.uptime = s.rw.uptime := by
  simp [State.putLc]

@[simp] theorem State.putLc_rw_writeIndex (s : State) (r : Reaction Lc) :
    (s.putLc r).rw.writeIndex = s.rw.writeIndex := by
  simp [State.putLc]

@[simp] theorem State.putLc_rw_readIndex (s : State) (r : Reaction Lc) :
    (s.putLc r).rw.readIndex = s.rw.readIndex := by
  simp [State.putLc]

@[simp] theorem State.putLc_rw_job (s : State) (r : Reaction Lc) :
    (s.putLc r).rw.job = s.rw.job := by
  simp [State.putLc]

theorem State.putLc_notices (s : State) (r : Reaction Lc) :
    (s.putLc r).notices = s.notices ++ queuedOf (r.2 ++ Lc.fanNotices s.lc r.1) := by
  simp [State.putLc, State.post_notices]

theorem State.putLc_buffer (s : State) (r : Reaction Lc)
    (room : s.rw.buffer.length + (loggedOf (r.2 ++ Lc.fanNotices s.lc r.1)).length ≤ 8) :
    (s.putLc r).rw.buffer = s.rw.buffer ++ (loggedOf (r.2 ++ Lc.fanNotices s.lc r.1)).map fun e => ⟨e.1, e.2, s.rw.uptime⟩ :=
  State.post_rw_buffer _ _ room

end Sys2Proof.Machine
end

