-- ==== Sys2Proof/Laws/Handle.lean ====
section
/-! SUPPORT. What carrying out notices can do: the drain step by step, what no notice ever changes, and the run of a
command whose act makes no notice. -/

namespace Sys2Proof.Machine

/-! ## The drain -/

/-- With nothing to take, the drain changes nothing. -/
theorem State.drain_nil (s : State) (fuel : Nat) (h : s.notices = []) : State.drain fuel s = s := by
  cases fuel with
  | zero => simp only [State.drain]; rw [← h]
  | succ fuel => simp only [State.drain, h]

/-- The first notice is taken first. -/
theorem State.drain_cons (s : State) (fuel : Nat) (n : Notice) (rest : List Notice) (h : s.notices = n :: rest) :
    State.drain (fuel + 1) s = State.drain fuel (({ s with notices := rest }).act (State.handle n)) := by
  simp only [State.drain, h]

/-- No notice is left by a drain. -/
@[simp] theorem State.drain_notices (fuel : Nat) (s : State) : (State.drain fuel s).notices = [] := by
  induction fuel generalizing s with
  | zero => rfl
  | succ fuel ih =>
    cases h : s.notices with
    | nil => rw [State.drain_nil s _ h, h]
    | cons n rest => rw [State.drain_cons s _ n rest h, ih]

/-- What every notice keeps, and taking a notice off the queue keeps, a drain keeps. -/
theorem State.drain_keeps {P : State → Prop} (pop : ∀ s ns, P s → P { s with notices := ns })
    (take : ∀ s n, P s → P (s.act (State.handle n))) (fuel : Nat) (s : State) (h : P s) : P (State.drain fuel s) := by
  induction fuel generalizing s with
  | zero => exact pop s [] h
  | succ fuel ih =>
    cases hn : s.notices with
    | nil => rw [State.drain_nil s _ hn]; exact h
    | cons n rest => rw [State.drain_cons s _ n rest hn]; exact ih _ (take _ n (pop s rest h))

/-! ## What no notice changes -/

/-- What the notices never touch, gathered so that one statement covers it: the RAM, the decoder, the remote, the queue
of commands, the clock and indices of the RW with its write in progress, and the host's side of the PU. -/
structure State.Kept (s t : State) : Prop where
  mem : t.mem = s.mem
  dd : t.dd = s.dd
  rr : t.rr = s.rr
  pending : t.pending = s.pending
  uptime : t.rw.uptime = s.rw.uptime
  writeIndex : t.rw.writeIndex = s.rw.writeIndex
  readIndex : t.rw.readIndex = s.rw.readIndex
  job : t.rw.job = s.rw.job
  base : t.pu.base = s.pu.base
  inReset : t.pu.inReset = s.pu.inReset
  hostBusy : t.pu.hostBusy = s.pu.hostBusy
  held : t.pu.held = s.pu.held
  hostData : t.pu.hostData = s.pu.hostData

theorem State.Kept.rfl' (s : State) : State.Kept s s := by constructor <;> rfl

theorem State.Kept.trans {s t u : State} (h : State.Kept s t) (k : State.Kept t u) : State.Kept s u := by
  constructor
  · exact k.mem.trans h.mem
  · exact k.dd.trans h.dd
  · exact k.rr.trans h.rr
  · exact k.pending.trans h.pending
  · exact k.uptime.trans h.uptime
  · exact k.writeIndex.trans h.writeIndex
  · exact k.readIndex.trans h.readIndex
  · exact k.job.trans h.job
  · exact k.base.trans h.base
  · exact k.inReset.trans h.inReset
  · exact k.hostBusy.trans h.hostBusy
  · exact k.held.trans h.held
  · exact k.hostData.trans h.hostData

theorem State.putTmc_kept (s : State) (r : Reaction Tmc) : State.Kept s (s.putTmc r) := by
  constructor <;> simp

theorem State.putFc_kept (s : State) (r : Reaction Fc) : State.Kept s (s.putFc r) := by
  constructor <;> simp

theorem State.putCu_kept (s : State) (r : Reaction Cu) : State.Kept s (s.putCu r) := by
  constructor <;> simp

theorem State.putTtc_kept (s : State) (r : Reaction Ttc) : State.Kept s (s.putTtc r) := by
  constructor <;> simp

theorem State.putCa_kept (s : State) (r : Reaction Ca) : State.Kept s (s.putCa r) := by
  constructor <;> simp

theorem State.putRcu_kept (s : State) (r : Reaction Rcu) : State.Kept s (s.putRcu r) := by
  constructor <;> simp

theorem State.putCe_kept (s : State) (r : Reaction Ce) : State.Kept s (s.putCe r) := by
  constructor <;> simp

theorem State.putLc_kept (s : State) (r : Reaction Lc) : State.Kept s (s.putLc r) := by
  constructor <;> simp

theorem State.post_kept (s : State) (ns : List Notice) : State.Kept s (s.post ns) := by constructor <;> simp

theorem State.selectLoop_kept (fuel : Nat) (s : State) : State.Kept s (s.selectLoop fuel) := by
  induction fuel generalizing s with
  | zero => exact .rfl' s
  | succ fuel ih =>
    unfold State.selectLoop
    split
    · exact .rfl' s
    · split
      · exact (State.putCa_kept _ _).trans (ih _)
      · exact (State.putCa_kept _ _).trans (State.putTmc_kept _ _)

theorem State.select_kept (s : State) : State.Kept s s.select := by
  unfold State.select
  split
  · exact State.selectLoop_kept 5 s
  · exact .rfl' s

theorem State.preemptWith_kept (s : State) (source : Source) (r : Request) : State.Kept s (s.preemptWith source r) := by
  unfold State.preemptWith
  split
  · exact .rfl' s
  · exact (State.putCa_kept _ _).trans (State.putTmc_kept _ _)

theorem State.deposit_kept (s : State) (source : Source) (kind : OpKind) : State.Kept s (s.deposit source kind) := by
  unfold State.deposit
  split
  · next ca _ =>
    refine (State.putCa_kept s (ca, if (s.ca.slot source).isNone then [.dirty 6] else [])).trans ?_
    unfold State.afterDeposit
    (repeat' split) <;> first | exact State.select_kept _ | exact State.preemptWith_kept _ _ _ | exact .rfl' _
  · exact .rfl' s

theorem State.consumeRun_kept (s : State) : State.Kept s s.consumeRun := by
  unfold State.consumeRun
  (repeat' split) <;> first | exact .rfl' s | exact (State.putRcu_kept _ _).trans (State.putCe_kept _ _)

theorem State.lookTape_kept (s : State) : State.Kept s s.lookTape := by
  unfold State.lookTape
  split
  · exact .rfl' s
  · have look := (State.putTtc_kept s ({ s.ttc with fifo := (lookFifo (recWaitArg ‹_›) s.ttc.fifo).1 }, [])).trans
      (State.post_kept _ (lookFifo (recWaitArg ‹_›) s.ttc.fifo).2.1)
    dsimp only
    split
    · exact look.trans (State.putCe_kept _ _)
    · exact look

theorem State.progress_kept (s : State) : State.Kept s s.progress := by
  unfold State.progress
  (repeat' split) <;>
    first | exact State.putCe_kept _ _ | exact State.lookTape_kept s | exact State.consumeRun_kept s | exact .rfl' s

/-- A withdrawal leaves no read of the Cue Engine queued and changes nothing else but the count, which becomes 0 exactly
when a read was withdrawn and no write of the Report Writer is left in the queue (R196, R197). -/
theorem Pu.dropRead_spec (pu : Pu) :
    pu.dropRead.readQueued = false ∧ pu.dropRead.rwRequest = pu.rwRequest ∧ pu.dropRead.writeQueued = pu.writeQueued ∧
      pu.dropRead.waitCount = if pu.readQueued = true ∧ pu.writeQueued = false then 0 else pu.waitCount := by
  have kind : ∀ r : Requester, r = .cueEngine ∨ r = .reportWriter := by intro r; cases r <;> simp
  cases own : pu.own with
  | none => cases ce : pu.ceRequest <;> cases rw : pu.rwRequest <;>
      simp [Pu.dropRead, Pu.readQueued, Pu.writeQueued, Pu.serves, Pu.forgetRead, own, ce, rw]
  | some c =>
    obtain ⟨r, o, d, l⟩ := c
    rcases kind r with rfl | rfl <;> cases l <;> cases ce : pu.ceRequest <;> cases rw : pu.rwRequest <;>
      simp [Pu.dropRead, Pu.readQueued, Pu.writeQueued, Pu.serves, Pu.forgetRead, own, ce, rw]

theorem State.dropRead_kept (s : State) : State.Kept s (State.handle .dropRead s) := by
  constructor <;> (simp only [State.handle, Pu.dropRead]; try split) <;> rfl

/-- No notice touches them. -/
theorem State.handle_kept (n : Notice) (s : State) : State.Kept s (State.handle n s) := by
  cases n with
  | log e arg => exact State.post_kept _ _
  | dirty k => exact State.post_kept _ _
  | deposit source kind => exact State.deposit_kept _ _ _
  | select => exact State.select_kept s
  | outcome op result =>
    simp only [State.handle, State.takeOutcome]
    split
    · exact State.putCa_kept _ _
    · exact .rfl' s
  | deliver source result => cases source <;> first | exact State.putCe_kept _ _ | exact State.putRcu_kept _ _ | exact .rfl' s
  | slotEmpty source => cases source <;> first | exact State.putCe_kept _ _ | exact State.putRcu_kept _ _ | exact .rfl' s
  | terminalCount c =>
    simp only [State.handle, State.terminalCount]
    (repeat' split) <;> first | exact State.consumeRun_kept s | exact .rfl' s
  | fifoJoined => exact State.lookTape_kept s
  | progress => exact State.progress_kept s
  | askRead o => constructor <;> rfl
  | dropRead => exact State.dropRead_kept s
  | _ =>
    first
      | exact State.putCa_kept _ _ | exact State.putLc_kept _ _ | exact State.putFc_kept _ _ | exact State.putCu_kept _ _
      | exact State.putTmc_kept _ _ | exact State.putTtc_kept _ _ | exact State.putRcu_kept _ _
      | exact State.putCe_kept _ _

theorem State.act_kept {s : State} {f : State → State} (h : State.Kept s (f s)) : State.Kept s (s.act f) := by
  constructor
  · simpa using h.mem
  · simpa using h.dd
  · simpa using h.rr
  · simpa using h.pending
  · simpa using h.uptime
  · simpa using h.writeIndex
  · simpa using h.readIndex
  · simpa using h.job
  · simpa using h.base
  · simpa using h.inReset
  · simpa using h.hostBusy
  · simpa using h.held
  · simpa using h.hostData

/-- A drain keeps them. -/
theorem State.drain_kept (fuel : Nat) (s : State) : State.Kept s (State.drain fuel s) := by
  refine State.drain_keeps (P := fun t => State.Kept s t) ?_ ?_ fuel s (.rfl' s)
  · intro t ns h; exact h.trans (by constructor <;> rfl)
  · intro t n h; exact h.trans (State.act_kept (State.handle_kept n t))

/-! ## The run of a command -/

/-- A command whose act makes no notice is its act, settled. -/
theorem State.run_quiet (s : State) (f : State → State) (h : (f s).notices = []) : s.run f = (s.act f).settle := by
  rw [State.run, State.carry, State.drain_nil]
  simpa using h

/-- A command whose act makes one notice, which makes none, is the act and the notice, settled. -/
theorem State.run_one (s : State) (f : State → State) (n : Notice) (h : (f s).notices = [n])
    (last : (State.handle n { s.act f with notices := [] }).notices = []) :
    s.run f = (({ s.act f with notices := [] }).act (State.handle n)).settle := by
  rw [State.run, State.carry, Config.cascadeFuel, State.drain_cons _ _ n [] (by simpa using h), State.drain_nil]
  simpa using last

/-- No notice is left after a command. -/
@[simp] theorem State.run_notices (s : State) (f : State → State) : (s.run f).notices = [] := by
  simp [State.run, State.carry]

/-- No notice is left after a reset. -/
@[simp] theorem State.carry_notices (s : State) (f : State → State) : (s.carry f).notices = [] := by
  simp [State.carry]

/-- After a command the kept fields read as its act left them. -/
theorem State.carry_kept (s : State) (f : State → State) : State.Kept (f s) (s.carry f) := by
  refine State.Kept.trans (t := s.act f) ?_ (State.drain_kept _ _)
  constructor <;> simp

@[simp] theorem State.carry_mem (s : State) (f : State → State) : (s.carry f).mem = (f s).mem := (s.carry_kept f).mem

@[simp] theorem State.carry_dd (s : State) (f : State → State) : (s.carry f).dd = (f s).dd := (s.carry_kept f).dd

@[simp] theorem State.carry_rr (s : State) (f : State → State) : (s.carry f).rr = (f s).rr := (s.carry_kept f).rr

@[simp] theorem State.carry_pending (s : State) (f : State → State) : (s.carry f).pending = (f s).pending :=
  (s.carry_kept f).pending

@[simp] theorem State.run_mem (s : State) (f : State → State) : (s.run f).mem = (f s).mem := by
  simp [State.run]

@[simp] theorem State.run_dd (s : State) (f : State → State) : (s.run f).dd = (f s).dd := by
  simp [State.run]

@[simp] theorem State.run_rr (s : State) (f : State → State) : (s.run f).rr = (f s).rr := by
  simp [State.run]

@[simp] theorem State.run_pending (s : State) (f : State → State) : (s.run f).pending = (f s).pending := by
  simp [State.run]

@[simp] theorem State.run_uptime (s : State) (f : State → State) : (s.run f).rw.uptime = (f s).rw.uptime := by
  simp [State.run, (s.carry_kept f).uptime]

@[simp] theorem State.run_writeIndex (s : State) (f : State → State) : (s.run f).rw.writeIndex = (f s).rw.writeIndex := by
  simp [State.run, (s.carry_kept f).writeIndex]

@[simp] theorem State.run_readIndex (s : State) (f : State → State) : (s.run f).rw.readIndex = (f s).rw.readIndex := by
  simp [State.run, (s.carry_kept f).readIndex]

@[simp] theorem State.run_base (s : State) (f : State → State) : (s.run f).pu.base = (f s).pu.base := by
  simp [State.run, (s.carry_kept f).base]

@[simp] theorem State.run_inReset (s : State) (f : State → State) : (s.run f).pu.inReset = (f s).pu.inReset := by
  simp [State.run, (s.carry_kept f).inReset]

@[simp] theorem State.run_hostBusy (s : State) (f : State → State) : (s.run f).pu.hostBusy = (f s).pu.hostBusy := by
  simp [State.run, (s.carry_kept f).hostBusy]

@[simp] theorem State.run_held (s : State) (f : State → State) : (s.run f).pu.held = (f s).pu.held := by
  simp [State.run, (s.carry_kept f).held]

@[simp] theorem State.run_hostData (s : State) (f : State → State) : (s.run f).pu.hostData = (f s).pu.hostData := by
  simp [State.run, (s.carry_kept f).hostData]

/-! ## An accepted frame -/

/-- All that an accepted frame can do (R118): a press with no key held, the release timer alone at a repeat, and otherwise
the whole release and then the press. -/
theorem State.acceptFrame_cases (s : State) (key : BitVec 5) (toggle : Bool) :
    (s.rr.held = none ∧ s.acceptFrame key toggle = s.press key toggle) ∨
    ∃ h, s.rr.held = some h ∧
      ((h.key = key ∧ h.toggle = toggle ∧
          s.acceptFrame key toggle = s.putRr ({ s.rr with releaseTimer := some 250 }, [])) ∨
       (¬ (h.key = key ∧ h.toggle = toggle) ∧ s.acceptFrame key toggle = (s.carry State.releaseKey).press key toggle)) := by
  unfold State.acceptFrame
  cases held : s.rr.held with
  | none => exact .inl ⟨rfl, rfl⟩
  | some h =>
    refine .inr ⟨h, rfl, ?_⟩
    by_cases same : h.key = key ∧ h.toggle = toggle
    · exact .inl ⟨same.1, same.2, by simp only [same, and_self, if_true]⟩
    · exact .inr ⟨same, by simp only [same, if_false]⟩

end Sys2Proof.Machine
end

