-- ==== Sys2Proof/Laws/Effect.lean ====
section
/-! SUPPORT. The effect of a command whose act makes no notice: a part that the act leaves alone is left alone by the
command, and the entries the act hands over are the command's. -/

namespace Sys2Proof.Machine

open Sys2Proof.Safety

/-- An act that makes no notice and hands over its entries has its effect as a command's. -/
theorem effect_quiet {s : State} {f : State → State} {changed : List Part} {events : List (Event × Half)}
    (calm : (f s).notices = []) (parts : ∀ p, p ∉ changed → p.same s (f s)) (job : (f s).rw.job = s.rw.job)
    (logs : Logs events s (f s)) : Effect changed events s (s.run f) := by
  rw [State.run_quiet s f calm]
  constructor
  · intro p hp
    have h := parts p hp
    cases p <;> simpa [Part.same] using h
  · intro busy room
    rw [State.settle_rw_buffer _ (by simpa [job] using busy), State.act_rw_buffer]
    exact logs busy room

/-- A command of one act completes. -/
theorem perform_next (s : State) (f : State → State) : perform f s = .next (s.run f) := rfl

/-- A run without notices leaves each block as its act left it. -/
theorem run_quiet_blocks {s : State} {f : State → State} (calm : (f s).notices = []) :
    (s.run f).tmc = (f s).tmc ∧ (s.run f).lc = (f s).lc ∧ (s.run f).fc = (f s).fc ∧ (s.run f).cu = (f s).cu ∧
      (s.run f).ttc = (f s).ttc ∧ (s.run f).ca = (f s).ca ∧ (s.run f).rcu = (f s).rcu ∧ (s.run f).ce = (f s).ce := by
  rw [State.run_quiet s f calm]
  simp

/-! ## Directives taken as rows -/

/-- The abandonment of an open directive changes the decoder and hands over one entry. -/
theorem abandon_eq (s : State) : ∃ dd ns, s.abandon = ({ s with dd := dd }).post ns ∧ queuedOf ns = [] ∧
    loggedOf ns = (if s.dd.collecting = true then [(.directiveAbandoned, halfOf s.dd.openCode.toNat)] else []) ∧
      dd.taken = s.dd.taken := by
  unfold State.abandon
  split
  · exact ⟨_, _, rfl, by simp, by simp, rfl⟩
  · exact ⟨s.dd, [], rfl, rfl, by simp, rfl⟩

/-- The state in which the owner of a row's directive takes it: the decoder's record and the report of an abandonment are
all that differ from the state the row found (R204, R206). -/
theorem takeRow_eq {s : State} (open_ : s.pu.inReset = false) (code : Byte) (owner : State → State × Result) :
    ∃ dd ns, State.takeRow code owner s = State.take (({ s with dd := dd }).post ns) owner code ∧ queuedOf ns = [] ∧
      loggedOf ns = abandoned code s ∧ dd.taken = s.dd.taken := by
  simp only [State.takeRow, open_, Bool.false_eq_true, if_false, abandoned]
  by_cases h : s.dd.collecting = true ∧ s.dd.openCode = code ∧ operandCount? code ≠ some 0
  · rw [if_pos h]
    exact ⟨s.dd, [], rfl, rfl, by simp [h.1, h.2.1, h.2.2], rfl⟩
  · rw [if_neg h]
    obtain ⟨dd, ns, e, q, l, k⟩ := abandon_eq s
    refine ⟨dd, ns, by rw [e], q, ?_, k⟩
    rw [l]
    by_cases hc : s.dd.collecting = true
    · rw [if_pos hc, if_pos ⟨hc, fun h' => h ⟨hc, h'⟩⟩]
    · rw [if_neg hc, if_neg fun h' => hc h'.1]

/-- Two states hold the same RAM, passage and blocks, whatever the decoder and the Report Writer hold. -/
structure SameBlocks (s t : State) : Prop where
  mem : t.mem = s.mem
  pu : t.pu = s.pu
  ce : t.ce = s.ce
  ca : t.ca = s.ca
  rcu : t.rcu = s.rcu
  tmc : t.tmc = s.tmc
  lc : t.lc = s.lc
  fc : t.fc = s.fc
  cu : t.cu = s.cu
  ttc : t.ttc = s.ttc
  rr : t.rr = s.rr

/-- A directive whose owner's act makes no notice is answered with the owner's result and effect, and leaves every block
as the owner left it. The owner acts on a state `k` with the row's blocks, in which an abandonment may have been
reported. -/
theorem answered_quiet {s : State} (ready : Ready s) {code : Byte} {owner : State → State × Result} {changed : List Part}
    {events : List (Event × Half)} {result : Result}
    (act : ∀ k : State, SameBlocks s k → k.notices = [] →
      (owner k).2 = result ∧ (owner k).1.notices = [] ∧ (owner k).1.dd = k.dd ∧ (owner k).1.rw.job = k.rw.job ∧
        Effect changed events k (owner k).1) :
    Answered code result changed events s (s.run (State.takeRow code owner)) ∧
      ∃ k, SameBlocks s k ∧ (s.run (State.takeRow code owner)).tmc = (owner k).1.tmc ∧
        (s.run (State.takeRow code owner)).lc = (owner k).1.lc ∧ (s.run (State.takeRow code owner)).fc = (owner k).1.fc ∧
        (s.run (State.takeRow code owner)).cu = (owner k).1.cu ∧ (s.run (State.takeRow code owner)).ttc = (owner k).1.ttc ∧
        (s.run (State.takeRow code owner)).rr = (owner k).1.rr ∧ (s.run (State.takeRow code owner)).ca = (owner k).1.ca ∧
        (s.run (State.takeRow code owner)).rcu = (owner k).1.rcu ∧ (s.run (State.takeRow code owner)).ce = (owner k).1.ce := by
  obtain ⟨dd, ns, e, q, l, kept⟩ := takeRow_eq ready.2 code owner
  have same : SameBlocks s (({ s with dd := dd }).post ns) := by constructor <;> simp
  obtain ⟨r, calm, dec, job, parts, logs⟩ := act _ same (by simp [State.post_notices, q, ready.1])
  have shape : State.takeRow code owner s =
      State.answer (owner (({ s with dd := dd }).post ns)).1 code result := by rw [e, State.take, r]
  generalize hk : ({ s with dd := dd }).post ns = k at *
  have now : (State.takeRow code owner s).notices = [] := by
    rw [shape]; simp [State.answer, State.post_notices, calm, queuedOf, Notice.immediate]
  have made : (s.run (State.takeRow code owner)).dd = (k.dd.answer code result) := by
    rw [State.run_dd, shape]; simp [State.answer, dec]
  have kdd : k.dd = dd := by rw [← hk]; simp
  refine ⟨⟨by rw [made]; rfl, by rw [made]; rfl, by rw [made]; rfl, by rw [made, kdd, ← kept]; rfl, ?_⟩, k, same, ?_⟩
  · refine effect_quiet now ?_ ?_ ?_
    · intro p hp
      have h := parts p (fun hp' => hp (List.mem_cons_of_mem _ hp'))
      rw [shape]
      cases p <;> simp [Part.same, State.answer, State.post_notices, ← hk, queuedOf, Notice.immediate] at h hp ⊢ <;>
        exact h
    · rw [shape]; simp only [State.answer, State.post_rw_job, job]; rw [← hk]; simp
    · intro busy room
      have b := logs (by rw [← hk]; simpa using busy)
      rw [shape]
      simp only [State.answer, List.length_append] at room ⊢
      have joined : k.rw.buffer = s.rw.buffer ++ (abandoned code s).map fun e => ⟨e.1, e.2, s.rw.uptime⟩ := by
        rw [← hk, State.post_rw_buffer, l]
        rw [l]; simp only; omega
      have up : k.rw.uptime = s.rw.uptime := by rw [← hk]; simp
      rw [State.post_rw_buffer _ _ (by simp [loggedOf]; rw [b (by rw [joined]; simp; omega), joined]; simp; omega)]
      simp only [loggedOf, List.filterMap_cons, List.filterMap_nil, List.map_nil, List.append_nil]
      rw [b (by rw [joined]; simp; omega), joined, up]
      simp
  · obtain ⟨a, b, c, d, f, g, h, i⟩ := run_quiet_blocks (s := s) (f := State.takeRow code owner) now
    refine ⟨?_, ?_, ?_, ?_, ?_, ?_, ?_, ?_, ?_⟩ <;> simp only [a, b, c, d, f, g, h, i, State.run_rr, shape] <;>
      simp [State.answer]

/-! ## One block's reaction -/

/-- A command of one reaction of this block that makes no notice: the record is the reaction's, nothing else changes. -/
theorem putTmc_quiet (s : State) (calm : s.notices = []) (r : Reaction Tmc) (quiet : queuedOf r.2 = [])
    (f : State → State) (act : f s = s.putTmc r) :
    (s.run f).tmc = r.1 ∧ Effect [.mechanism] (loggedOf r.2) s (s.run f) := by
  have now : (f s).notices = [] := by rw [act, State.putTmc_notices, calm, quiet]; rfl
  refine ⟨by rw [State.run_quiet s f now]; simp [act], effect_quiet now ?_ (by rw [act]; simp) ?_⟩
  · intro p hp
    rw [act]
    cases p <;> simp [Part.same, State.putTmc_notices, calm, quiet] at hp ⊢
  · intro _ room
    rw [act]
    exact State.putTmc_buffer s r room

/-- A command of one reaction of this block that makes no notice: the record is the reaction's, nothing else changes. -/
theorem putFc_quiet (s : State) (calm : s.notices = []) (r : Reaction Fc) (quiet : queuedOf r.2 = [])
    (f : State → State) (act : f s = s.putFc r) :
    (s.run f).fc = r.1 ∧ Effect [.fan] (loggedOf r.2) s (s.run f) := by
  have now : (f s).notices = [] := by rw [act, State.putFc_notices, calm, quiet]; rfl
  refine ⟨by rw [State.run_quiet s f now]; simp [act], effect_quiet now ?_ (by rw [act]; simp) ?_⟩
  · intro p hp
    rw [act]
    cases p <;> simp [Part.same, State.putFc_notices, calm, quiet] at hp ⊢
  · intro _ room
    rw [act]
    exact State.putFc_buffer s r room

/-- A command of one reaction of this block that makes no notice: the record is the reaction's, nothing else changes. -/
theorem putCu_quiet (s : State) (calm : s.notices = []) (r : Reaction Cu) (quiet : queuedOf r.2 = [])
    (f : State → State) (act : f s = s.putCu r) :
    (s.run f).cu = r.1 ∧ Effect [.cutoff] (loggedOf r.2) s (s.run f) := by
  have now : (f s).notices = [] := by rw [act, State.putCu_notices, calm, quiet]; rfl
  refine ⟨by rw [State.run_quiet s f now]; simp [act], effect_quiet now ?_ (by rw [act]; simp) ?_⟩
  · intro p hp
    rw [act]
    cases p <;> simp [Part.same, State.putCu_notices, calm, quiet] at hp ⊢
  · intro _ room
    rw [act]
    exact State.putCu_buffer s r room

/-- A command of one reaction of this block that makes no notice: the record is the reaction's, nothing else changes. -/
theorem putTtc_quiet (s : State) (calm : s.notices = []) (r : Reaction Ttc) (quiet : queuedOf r.2 = [])
    (f : State → State) (act : f s = s.putTtc r) :
    (s.run f).ttc = r.1 ∧ Effect [.deck] (loggedOf r.2) s (s.run f) := by
  have now : (f s).notices = [] := by rw [act, State.putTtc_notices, calm, quiet]; rfl
  refine ⟨by rw [State.run_quiet s f now]; simp [act], effect_quiet now ?_ (by rw [act]; simp) ?_⟩
  · intro p hp
    rw [act]
    cases p <;> simp [Part.same, State.putTtc_notices, calm, quiet] at hp ⊢
  · intro _ room
    rw [act]
    exact State.putTtc_buffer s r room

/-- A command of one reaction of this block that makes no notice: the record is the reaction's, nothing else changes. -/
theorem putRr_quiet (s : State) (calm : s.notices = []) (r : Reaction Rr) (quiet : queuedOf r.2 = [])
    (f : State → State) (act : f s = s.putRr r) :
    (s.run f).rr = r.1 ∧ Effect [.remote] (loggedOf r.2) s (s.run f) := by
  have now : (f s).notices = [] := by rw [act, State.putRr_notices, calm, quiet]; rfl
  refine ⟨by rw [State.run_quiet s f now]; simp [act], effect_quiet now ?_ (by rw [act]; simp) ?_⟩
  · intro p hp
    rw [act]
    cases p <;> simp [Part.same, State.putRr_notices, calm, quiet] at hp ⊢
  · intro _ room
    rw [act]
    exact State.putRr_buffer s r room

/-- A command of one reaction of this block that makes no notice: the record is the reaction's, nothing else changes. -/
theorem putCa_quiet (s : State) (calm : s.notices = []) (r : Reaction Ca) (quiet : queuedOf r.2 = [])
    (f : State → State) (act : f s = s.putCa r) :
    (s.run f).ca = r.1 ∧ Effect [.arbiter] (loggedOf r.2) s (s.run f) := by
  have now : (f s).notices = [] := by rw [act, State.putCa_notices, calm, quiet]; rfl
  refine ⟨by rw [State.run_quiet s f now]; simp [act], effect_quiet now ?_ (by rw [act]; simp) ?_⟩
  · intro p hp
    rw [act]
    cases p <;> simp [Part.same, State.putCa_notices, calm, quiet] at hp ⊢
  · intro _ room
    rw [act]
    exact State.putCa_buffer s r room

/-- A command of one reaction of this block that makes no notice: the record is the reaction's, nothing else changes. -/
theorem putRcu_quiet (s : State) (calm : s.notices = []) (r : Reaction Rcu) (quiet : queuedOf r.2 = [])
    (f : State → State) (act : f s = s.putRcu r) :
    (s.run f).rcu = r.1 ∧ Effect [.channels] (loggedOf r.2) s (s.run f) := by
  have now : (f s).notices = [] := by rw [act, State.putRcu_notices, calm, quiet]; rfl
  refine ⟨by rw [State.run_quiet s f now]; simp [act], effect_quiet now ?_ (by rw [act]; simp) ?_⟩
  · intro p hp
    rw [act]
    cases p <;> simp [Part.same, State.putRcu_notices, calm, quiet] at hp ⊢
  · intro _ room
    rw [act]
    exact State.putRcu_buffer s r room

/-- A command of one reaction of this block that makes no notice: the record is the reaction's, nothing else changes. -/
theorem putCe_quiet (s : State) (calm : s.notices = []) (r : Reaction Ce) (quiet : queuedOf r.2 = [])
    (f : State → State) (act : f s = s.putCe r) :
    (s.run f).ce = r.1 ∧ Effect [.engine] (loggedOf r.2) s (s.run f) := by
  have now : (f s).notices = [] := by rw [act, State.putCe_notices, calm, quiet]; rfl
  refine ⟨by rw [State.run_quiet s f now]; simp [act], effect_quiet now ?_ (by rw [act]; simp) ?_⟩
  · intro p hp
    rw [act]
    cases p <;> simp [Part.same, State.putCe_notices, calm, quiet] at hp ⊢
  · intro _ room
    rw [act]
    exact State.putCe_buffer s r room

/-! ## The lamp's reaction and the fan that follows it -/

/-- Computing the demand hands over entries and makes no notice. -/
theorem Fc.compute_quiet (fc : Fc) (h ds : Nat) (active : Bool) : queuedOf (fc.compute h ds active).2 = [] := by
  unfold Fc.compute
  extract_lets new turned
  have inner : queuedOf (if ¬ fc.full ∧ ¬ active ∧ h ≤ fc.coolDone then [Notice.log .cooldownDone (halfOf h)] else [])
      = [] := by split <;> simp
  by_cases start : fc.demand = 0 ∧ new ≠ 0
  · simp [start]
  · by_cases stop : fc.demand ≠ 0 ∧ new = 0
    · rw [if_neg start, if_pos stop]; exact inner
    · rw [if_neg start, if_neg stop]; rfl

/-- An act that leaves the lamp's record as `lc`, with the fan still to follow it: the fan computes its demand afresh if it
must, and what the act changed and handed over is the command's effect (R61). -/
theorem fan_follows {s : State} {f : State → State} {lc : Lc} {changed : List Part} {events : List (Event × Half)}
    (lamp : (f s).lc = lc) (fan : (f s).fc = s.fc) (made : (f s).notices = Lc.fanNotices s.lc lc)
    (waiting : (f s).pending = s.pending) (parts : ∀ p, p ∉ changed → p ≠ .queue → p.same s (f s))
    (clock : (f s).rw.uptime = s.rw.uptime) (job : (f s).rw.job = s.rw.job) (logs : Logs events s (f s)) :
    (s.run f).lc = lc ∧ (s.run f).fc = (fanAfter s lc).1 ∧
      Effect (.fan :: changed) (events ++ loggedOf (fanAfter s lc).2) s (s.run f) := by
  have cases : Lc.fanNotices s.lc lc = [] ∨
      Lc.fanNotices s.lc lc = [.fanCompute lc.h lc.derateStart lc.lampActive] := by
    unfold Lc.fanNotices; split <;> simp
  rcases cases with none | one
  · have now : (f s).notices = [] := by rw [made, none]
    refine ⟨by rw [State.run_quiet s f now]; simp [lamp], by rw [State.run_quiet s f now]; simp [fan, fanAfter, none], ?_⟩
    simp only [fanAfter, none, if_true, loggedOf_nil, List.append_nil]
    refine effect_quiet now ?_ job logs
    intro p hp
    by_cases hq : p = .queue
    · subst hq; exact ⟨waiting, now⟩
    · exact parts p (fun h => hp (List.mem_cons_of_mem _ h)) hq
  · have now : (f s).notices = [.fanCompute lc.h lc.derateStart lc.lampActive] := by rw [made, one]
    have after : fanAfter s lc = s.fc.compute lc.h lc.derateStart lc.lampActive := by simp [fanAfter, one]
    obtain ⟨k, hk⟩ : ∃ k : State, { s.act f with notices := [] } = k := ⟨_, rfl⟩
    have taken : State.handle (.fanCompute lc.h lc.derateStart lc.lampActive) k = k.putFc (fanAfter s lc) := by
      rw [State.handle, after, ← hk]; simp [fan]
    have last : (State.handle (.fanCompute lc.h lc.derateStart lc.lampActive) k).notices = [] := by
      rw [taken, State.putFc_notices, after, Fc.compute_quiet, ← hk]; rfl
    rw [State.run_one s f _ now (by rw [hk]; exact last), hk]
    refine ⟨by rw [State.settle_lc, State.act_lc, taken, State.putFc_lc, ← hk]; simp [lamp], by simp [taken], ?_, ?_⟩
    · intro p hp
      by_cases hq : p = .queue
      · subst hq
        exact ⟨by simp only [State.settle_pending, State.act_pending, taken, State.putFc_pending]; simp [← hk, waiting],
          by simp [last]⟩
      · have h := parts p (fun h => hp (List.mem_cons_of_mem _ h)) hq
        cases p <;> simp [Part.same, taken, State.putFc_notices, after, Fc.compute_quiet] at hp h ⊢ <;>
          first | exact absurd rfl hq | simpa [← hk] using h
    · intro busy room
      have b2 : k.rw.buffer = s.rw.buffer ++ events.map fun e => ⟨e.1, e.2, s.rw.uptime⟩ := by
        rw [← logs busy (by simp at room; omega), ← hk]; simp
      have b3 : k.rw.uptime = s.rw.uptime := by rw [← hk]; simp [clock]
      have b4 : k.rw.job = s.rw.job := by rw [← hk]; simp [job]
      rw [State.settle_rw_buffer _ (by simpa [taken, b4] using busy), State.act_rw_buffer, taken,
        State.putFc_buffer _ _ (by simp [b2] at room ⊢; omega)]
      simp [b2, b3]

/-- A command of one reaction of the lamp that makes no notice of its own. -/
theorem putLc_lampEffect (s : State) (calm : s.notices = []) (r : Reaction Lc) (quiet : queuedOf r.2 = [])
    (f : State → State) (act : f s = s.putLc r) : LampEffect r.1 [] (loggedOf r.2) s (s.run f) := by
  have fan : queuedOf (Lc.fanNotices s.lc r.1) = Lc.fanNotices s.lc r.1 := by
    unfold Lc.fanNotices; split <;> simp [queuedOf, Notice.immediate]
  have silent : loggedOf (Lc.fanNotices s.lc r.1) = [] := by unfold Lc.fanNotices; split <;> simp [loggedOf]
  obtain ⟨a, b, c, d⟩ := fan_follows (s := s) (f := f) (lc := r.1) (changed := [.lamp]) (events := loggedOf r.2)
    (by simp [act]) (by simp [act]) (by rw [act, State.putLc_notices, calm, queuedOf_append, quiet, fan]; rfl)
    (by simp [act]) (by intro p hp hq; rw [act]; cases p <;> simp [Part.same] at hp hq ⊢) (by simp [act])
    (by simp [act])
    (by
      intro _ room
      rw [act]
      have := State.putLc_buffer s r (by simpa [silent] using room)
      simpa [silent] using this)
  refine ⟨a, b, ?_, d⟩
  intro p hp
  exact c p (fun h => hp (by simp at h ⊢; tauto))

/-- A directive of one reaction of the lamp that makes no notice of its own. -/
theorem answered_lamp {s : State} (ready : Ready s) {code : Byte} {owner : State → State × Result} {result : Result}
    {r : Reaction Lc} (quiet : queuedOf r.2 = [])
    (act : ∀ k : State, SameBlocks s k → owner k = (k.putLc r, result)) :
    (s.run (State.takeRow code owner)).lc = r.1 ∧ (s.run (State.takeRow code owner)).fc = (fanAfter s r.1).1 ∧
      Answered code result [.lamp, .fan] (loggedOf r.2 ++ loggedOf (fanAfter s r.1).2) s
        (s.run (State.takeRow code owner)) := by
  have fan : queuedOf (Lc.fanNotices s.lc r.1) = Lc.fanNotices s.lc r.1 := by
    unfold Lc.fanNotices; split <;> simp [queuedOf, Notice.immediate]
  have silent : loggedOf (Lc.fanNotices s.lc r.1) = [] := by unfold Lc.fanNotices; split <;> simp [loggedOf]
  obtain ⟨dd, ns, e, q, l, kept⟩ := takeRow_eq ready.2 code owner
  have same : SameBlocks s (({ s with dd := dd }).post ns) := by constructor <;> simp
  have shape : State.takeRow code owner s =
      State.answer ((({ s with dd := dd }).post ns).putLc r) code result := by rw [e, State.take, act _ same]
  have calm : (({ s with dd := dd }).post ns).notices = [] := by simp [State.post_notices, q, ready.1]
  have joined : s.rw.buffer.length + (abandoned code s).length ≤ 8 → (({ s with dd := dd }).post ns).rw.buffer =
      s.rw.buffer ++ (abandoned code s).map fun e => ⟨e.1, e.2, s.rw.uptime⟩ := by
    intro room
    rw [State.post_rw_buffer, l]
    rw [l]; exact room
  have up : (({ s with dd := dd }).post ns).rw.uptime = s.rw.uptime := by simp
  have kdd : (({ s with dd := dd }).post ns).dd = dd := by simp
  have klc : (({ s with dd := dd }).post ns).lc = s.lc := by simp
  have kjob : (({ s with dd := dd }).post ns).rw.job = s.rw.job := by simp
  have kpending : (({ s with dd := dd }).post ns).pending = s.pending := by simp
  have kw : (({ s with dd := dd }).post ns).rw.writeIndex = s.rw.writeIndex := by simp
  have kr : (({ s with dd := dd }).post ns).rw.readIndex = s.rw.readIndex := by simp
  generalize ({ s with dd := dd }).post ns = k at same shape calm joined up kdd klc kjob kpending kw kr
  have made : (s.run (State.takeRow code owner)).dd = dd.answer code result := by
    rw [State.run_dd, shape]; simp [State.answer, kdd]
  obtain ⟨a, b, c, d⟩ := fan_follows (s := s) (f := State.takeRow code owner) (lc := r.1) (changed := [.decoder, .lamp])
    (events := abandoned code s ++ loggedOf r.2) (by rw [shape]; simp [State.answer])
    (by rw [shape]; simp [State.answer, same.fc])
    (by
      rw [shape]
      simp only [State.answer, State.post_notices, State.putLc_notices, queuedOf_append, quiet]
      rw [calm, klc, fan]
      simp [queuedOf, Notice.immediate])
    (by rw [shape]; simp [State.answer, kpending])
    (by
      intro p hp hq
      rw [shape]
      cases p <;> simp [Part.same, State.answer, same.mem, same.pu, same.ce, same.ca, same.rcu, same.tmc, same.fc,
        same.cu, same.ttc, same.rr, up, kw, kr] at hp hq ⊢)
    (by rw [shape]; simp [State.answer, up]) (by rw [shape]; simp [State.answer, kjob])
    (by
      intro _ room
      simp only [List.length_append] at room
      have j := joined (by omega)
      have b := State.putLc_buffer k r (by rw [klc, loggedOf_append, silent, j]; simp; omega)
      rw [klc, loggedOf_append, silent, List.append_nil, j, up] at b
      have none : loggedOf [Notice.dirty 0] = [] := rfl
      rw [shape, State.answer, State.post_rw_buffer]
      · rw [none]; simp [b]
      · rw [none]; simp [b]; omega)
  refine ⟨a, b, by rw [made]; rfl, by rw [made]; rfl, by rw [made]; rfl, by rw [made, ← kept]; rfl, ?_, ?_⟩
  · intro p hp
    exact c p (fun h => hp (by simp at h ⊢; tauto))
  · simpa [List.append_assoc] using d

/-! ### Dirty marks posted outright -/

/-- Marks of lines leave no notice to be taken and hand over no entry. -/
theorem marks_calm (lines : List Nat) :
    queuedOf (lines.map Notice.dirty) = [] ∧ loggedOf (lines.map Notice.dirty) = [] := by
  induction lines with
  | nil => exact ⟨rfl, rfl⟩
  | cons line rest ih => simpa using ih

@[simp] theorem queuedOf_doneMark (result : Result) (lines : List Nat) : queuedOf (doneMark result lines) = [] := by
  unfold doneMark
  split
  · exact (marks_calm lines).1
  · rfl

@[simp] theorem loggedOf_doneMark (result : Result) (lines : List Nat) : loggedOf (doneMark result lines) = [] := by
  unfold doneMark
  split
  · exact (marks_calm lines).2
  · rfl

end Sys2Proof.Machine
end

