-- ==== Sys2Proof/Laws/Memory.lean ====
section
/-! SUPPORT. The RAM: a read after a write, and the canonical form kept. -/

namespace Sys2Proof.Machine

/-- An address below every listed one reads as the blank byte. -/
theorem Memory.read_below {lo : Nat} {m : List Host.Cell} (h : Memory.wfFrom lo m = true) {k : Nat} (hk : k < lo) :
    Memory.read m k = Config.blankByte := by
  induction m generalizing lo with
  | nil => rfl
  | cons c rest ih =>
    obtain ⟨a, v⟩ := c
    simp only [Memory.wfFrom, Bool.and_eq_true, decide_eq_true_eq] at h
    simp only [Memory.read]
    rw [if_neg (by omega), ih h.2 (by omega)]

/-- The canonical form from an address is one from every address below it. -/
theorem Memory.wfFrom_mono {lo lo' : Nat} {m : List Host.Cell} (h : Memory.wfFrom lo m = true) (le : lo' ≤ lo) :
    Memory.wfFrom lo' m = true := by
  cases m with
  | nil => rfl
  | cons c rest =>
    obtain ⟨a, v⟩ := c
    simp only [Memory.wfFrom, Bool.and_eq_true, decide_eq_true_eq] at h ⊢
    exact ⟨⟨⟨by omega, h.1.1.2⟩, h.1.2⟩, h.2⟩

/-- The written address reads the written byte. -/
theorem Memory.read_write_same {lo : Nat} {m : List Host.Cell} (h : Memory.wfFrom lo m = true) (k : Nat) (v : Byte) :
    Memory.read (Memory.write m k v) k = v := by
  induction m generalizing lo with
  | nil => by_cases hv : v = Config.blankByte <;> simp [Memory.write, Memory.read, hv]
  | cons c rest ih =>
    obtain ⟨a, w⟩ := c
    simp only [Memory.wfFrom, Bool.and_eq_true, decide_eq_true_eq] at h
    simp only [Memory.write]
    split
    · split
      · next hv => simp only [Memory.read]; rw [if_neg (by omega), Memory.read_below h.2 (by omega), hv]
      · simp [Memory.read]
    · split
      · next ha =>
        split
        · next hv => rw [Memory.read_below h.2 (by omega), hv]
        · simp [Memory.read]
      · simp only [Memory.read]; rw [if_neg (by omega), ih h.2]

/-- Every other address reads as before. -/
theorem Memory.read_write_other {lo : Nat} {m : List Host.Cell} (h : Memory.wfFrom lo m = true) {k j : Nat} (v : Byte)
    (ne : j ≠ k) : Memory.read (Memory.write m k v) j = Memory.read m j := by
  induction m generalizing lo with
  | nil => by_cases hv : v = Config.blankByte <;> simp [Memory.write, Memory.read, hv, Ne.symm ne]
  | cons c rest ih =>
    obtain ⟨a, w⟩ := c
    simp only [Memory.wfFrom, Bool.and_eq_true, decide_eq_true_eq] at h
    simp only [Memory.write]
    split
    · split
      · rfl
      · simp [Memory.read, Ne.symm ne]
    · split
      · next ha =>
        split
        · simp [Memory.read, ← ha, Ne.symm ne]
        · simp [Memory.read, ← ha, Ne.symm ne]
      · simp only [Memory.read]; rw [ih h.2]

/-- A write keeps the canonical form. -/
theorem Memory.wfFrom_write {lo : Nat} {m : List Host.Cell} (h : Memory.wfFrom lo m = true) {k : Nat} (v : Byte)
    (above : lo ≤ k) (inside : k < 1048576) : Memory.wfFrom lo (Memory.write m k v) = true := by
  induction m generalizing lo with
  | nil => by_cases hv : v = Config.blankByte <;> simp [Memory.write, Memory.wfFrom, hv, above, inside]
  | cons c rest ih =>
    obtain ⟨a, w⟩ := c
    have h' := h
    simp only [Memory.wfFrom, Bool.and_eq_true, decide_eq_true_eq] at h
    simp only [Memory.write]
    split
    · split
      · exact h'
      · next hv => simp_all [Memory.wfFrom]
    · split
      · next ha =>
        split
        · exact Memory.wfFrom_mono h.2 (by omega)
        · next hv => simp_all [Memory.wfFrom]
      · have below : a + 1 ≤ k := by omega
        simp only [Memory.wfFrom, Bool.and_eq_true, decide_eq_true_eq]
        exact ⟨h.1, ih h.2 below⟩

/-- A write to an address of HA19 to HA0 keeps the canonical form. -/
theorem Memory.wf_write {m : List Host.Cell} (h : Memory.wf m = true) {k : Nat} (v : Byte) (inside : k < 1048576) :
    Memory.wf (Memory.write m k v) = true := Memory.wfFrom_write h v (Nat.zero_le _) inside

end Sys2Proof.Machine
end

