-- ==== Sys2Proof/Laws/Show.lean ====
section
/-! SUPPORT. What the Cue Engine's shared steps can do, in the terms of Safety.lean: prediction (R185), the advance of the
staging queue (R186) and a host edit of a staged record (R187, R188). -/

namespace Sys2Proof.Machine

open Sys2Proof.Safety

theorem remembersTimeout_eq (memory : List MemoryEntry) (i : Nat) :
    remembersTimeout memory i = decide (⟨i, true⟩ ∈ memory) := by
  rw [Bool.eq_iff_iff, decide_eq_true_iff]
  simp only [remembersTimeout, List.any_eq_true, Bool.and_eq_true, beq_iff_eq]
  constructor
  · rintro ⟨⟨index, timedOut⟩, h, rfl, rfl⟩
    exact h
  · exact fun h => ⟨_, h, rfl, rfl⟩

/-- The predictor's choice is the one foretold (R185). -/
theorem predicted?_eq (loops : List LoopEntry) (memory : List MemoryEntry) (i : Nat) (r : List Byte) :
    predicted? loops memory i r = foretold loops memory i r := by
  have store : ∀ next : Nat × BranchTag, (if next.1 < 3968 then some next else none) =
      if 3968 ≤ next.1 then none else some next := by
    intro next
    by_cases h : 3968 ≤ next.1
    · rw [if_neg (by omega), if_pos h]
    · rw [if_pos (by omega), if_neg h]
  have target : (if recRepeats r = true then
        if (loopStep loops i (recRepeat r)).2.1 = true then recAltIndex i r else recNextIndex i r
      else if recIsAwait r = true ∧ 0 < recTime r ∧ remembersTimeout memory i = true then recAltIndex i r
      else recNextIndex i r) =
      if recForm r = 1 ∧ 0 < recRepeat r ∧ (loopStep loops i (recRepeat r)).2.1 = true then recAltIndex i r
      else if 2 ≤ recForm r ∧ 0 < recTime r ∧ ⟨i, true⟩ ∈ memory then recAltIndex i r else recNextIndex i r := by
    simp only [recRepeats, recIsDelay, recIsAwait, remembersTimeout_eq, Bool.and_eq_true, beq_iff_eq, decide_eq_true_iff]
    by_cases d : recForm r = 1
    · have n : ¬ 2 ≤ 1 := by decide
      by_cases z : 0 < recRepeat r <;> by_cases a : (loopStep loops i (recRepeat r)).2.1 = true <;>
        simp [d, z, a, n]
    · simp only [d, false_and, if_false]
  unfold predicted? foretold
  simp only [recIsEnd, beq_iff_eq, Config.cueRecords, target, store]
  generalize (if recForm r = 1 ∧ 0 < recRepeat r ∧ (loopStep loops i (recRepeat r)).2.1 = true then recAltIndex i r
    else if 2 ≤ recForm r ∧ 0 < recTime r ∧ ⟨i, true⟩ ∈ memory then recAltIndex i r else recNextIndex i r) = next
  by_cases e : recForm r = 0 <;> by_cases b : recBad r = true <;> simp [e, b]

theorem loopsAfter_eq (loops : List LoopEntry) (i : Nat) (r : List Byte) : loopsAfter loops i r = tableAfter loops i r := by
  simp [loopsAfter, tableAfter, recRepeats, recIsDelay]

theorem pathCopies_eq (ce : Ce) : ce.pathCopies = pathOf ce := by
  unfold Ce.pathCopies pathOf Ce.due
  cases ce.queue <;> simp

/-- Once for prediction: in a RUNNING or PAUSED show the foreseen successor is appended and its fetch begun (R185). -/
theorem predict_eq (ce : Ce) (active : ce.active = true) :
    ce.predict = (foreseeing ce, (foreseen ce).toList.map fun n => .askRead (recordOffset n.1)) := by
  unfold Ce.predict foreseeing foreseen
  simp only [active, true_and, pathCopies_eq, Ce.workingLoops, Ce.lastUsable, Ce.due, predicted?_eq, loopsAfter_eq]
  cases q : ce.queue.getLast? with
  | none => simp
  | some e =>
    cases p : (pathOf ce).getLast? with
    | none => simp
    | some k =>
      obtain ⟨i, r⟩ := k
      by_cases h : ce.queue.length < 4 ∧ (e.valid = true ∨ ce.queue.length = 1 ∧ (ce.phase = .held ∨ ce.phase = .fired))
      · simp only [Bool.or_eq_true, Bool.and_eq_true, beq_iff_eq, h, and_self, if_true]
        cases foretold ((pathOf ce).dropLast.foldl (fun loops k => tableAfter loops k.1 k.2) ce.loops) ce.memory i r with
        | none => simp
        | some n => obtain ⟨j, tag⟩ := n; simp
      · simp only [Bool.or_eq_true, Bool.and_eq_true, beq_iff_eq, h, if_false, Option.map_none, Option.toList_none,
          List.append_nil, List.map_nil]

/-- Once for the advance with no entry 1: the successor is placed and fetched (R186). -/
theorem advance_placed (ce : Ce) (next : Nat × BranchTag) (alone : ce.queue.length = 1) :
    ce.advance next.1 next.2 = (placed ce next, [.dirty 10, .askRead (recordOffset next.1)]) := by
  obtain ⟨e, h⟩ := List.length_eq_one_iff.mp alone
  simp [Ce.advance, Reaction.andThen, h, Ce.place, placed]

/-- Once for the advance with another entry 1: a path miss (R186). -/
theorem advance_missed (ce : Ce) (next : Nat × BranchTag) (first e : StagedEntry) (rest : List StagedEntry)
    (queue : ce.queue = first :: e :: rest) (other : e.index ≠ next.1 ∨ e.tag ≠ next.2) :
    ce.advance next.1 next.2 = (placed { ce with pathMiss := satInc 65535 ce.pathMiss } next,
      [.dirty 10, .log .pathMiss (halfOf next.1), .dropRead, .askRead (recordOffset next.1)]) := by
  have h : ¬ (e.index = next.1 ∧ e.tag = next.2) := by rintro ⟨a, b⟩; exact other.elim (· a) (· b)
  simp [Ce.advance, Reaction.andThen, queue, h, Ce.place, placed]

/-- Once for the advance to the entry 1 that is the successor: it moves up and becomes current, and the prediction goes on
(R186). -/
theorem advance_matched (ce : Ce) (next : Nat × BranchTag) (first e : StagedEntry) (rest : List StagedEntry)
    (queue : ce.queue = first :: e :: rest) (index : e.index = next.1) (tag : e.tag = next.2) :
    ce.advance next.1 next.2 = Reaction.andThen (ce, [.dirty 10]) fun _ => Reaction.andThen
      (Ce.becomeCurrent { ce with index := next.1, startInstant := ce.timelineInstant, queue := e :: rest,
                                  phase := .loading, fired := [] }) Ce.predict := by
  simp [Ce.advance, Reaction.andThen, queue, index, tag]

theorem splitAtIndex_none (x : Nat) (rest : List StagedEntry) (absent : ∀ e ∈ rest, e.index ≠ x) :
    splitAtIndex x rest = none := by
  induction rest with
  | nil => rfl
  | cons e rest ih =>
    simp [splitAtIndex, absent e (by simp), ih fun k h => absent k (by simp [h])]

/-- The split stands at the first entry of the record (R187). -/
theorem splitAtIndex_some (x : Nat) (pre : List StagedEntry) (e : StagedEntry) (post : List StagedEntry)
    (absent : ∀ k ∈ pre, k.index ≠ x) (index : e.index = x) :
    splitAtIndex x (pre ++ e :: post) = some (pre, e, post) := by
  induction pre with
  | nil => simp [splitAtIndex, index]
  | cons k pre ih =>
    simp [splitAtIndex, absent k (by simp), ih fun m h => absent m (by simp [h])]

end Sys2Proof.Machine
end

