-- ==== Sys2Proof/Laws/Tray.lean ====
section
/-! SUPPORT. What the endings and the phase entries of the Tray Mechanism Controller can do, in the words of Safety. -/

namespace Sys2Proof.Machine

open Sys2Proof.Safety

/-- The direction of a turn between positions of the ring is the shorter way (R9). -/
theorem turnDirection_eq {p g n : Nat} (hp : p ≤ n) : turnDirection p g n = shorterWay p g n := by
  have d : ((g : Int) - p) % ((n : Int) + 1) = (((g + (n + 1) - p) % (n + 1) : Nat) : Int) := by
    rw [Int.natCast_emod, Int.natCast_sub (by omega)]
    push_cast
    rw [show (g : Int) + (n + 1) - p = g - p + (n + 1) by ring, Int.add_emod_right]
  have lt : (g + (n + 1) - p) % (n + 1) < n + 1 := Nat.mod_lt _ (by omega)
  simp only [turnDirection, shorterWay, d]
  generalize (g + (n + 1) - p) % (n + 1) = k at lt ⊢
  by_cases h : k ≤ n + 1 - k
  · rw [if_pos h, if_pos (by omega)]
  · rw [if_neg h, if_neg (by omega)]

/-- An operation without a DROP ends DONE, logged as CHANGE_DONE (R12, R28). -/
theorem Tmc.endNoDrop_eq {t : Tmc} {op : Operation} (h : t.op = some op) :
    t.endNoDrop = ({ endedWithoutDrop op t with op := none, redirect := false },
      [.log (doneEntry op t).1 (doneEntry op t).2, .outcome op .done]) := by
  by_cases k : op.kind = .clearGate <;>
    simp [Tmc.endNoDrop, Tmc.conclude, Tmc.opKind, endedWithoutDrop, doneEntry, Tmc.reportedSource, Tmc.reportedP, h, k]

/-- TURN is entered toward the target (R9). -/
theorem Tmc.enterTurn_eq {t : Tmc} {g : Nat} (h : t.target = some g) (hp : t.p ≤ t.n) : t.enterTurn = turning t g := by
  simp [Tmc.enterTurn, turning, h, turnDirection_eq hp]

/-- DROP is entered, and ended at once by a GSEAT already active (R10). -/
theorem Tmc.enterDrop_eq (t : Tmc) : t.enterDrop = dropping t := by
  cases h : t.sensors.gseat <;> simp [Tmc.enterDrop, Tmc.enterSettle, dropping, h]

/-- TURN ends with DROP away from position 0 (R9). -/
theorem Tmc.turnEnd_drop {t : Tmc} (h : t.target ≠ some 0) : t.turnEnd = (dropping t, []) := by
  rw [Tmc.turnEnd, if_neg h, Tmc.enterDrop_eq]
  rfl

/-- TURN ends without a DROP at position 0 (R12). -/
theorem Tmc.turnEnd_zero {t : Tmc} {op : Operation} (h : t.target = some 0) (o : t.op = some op) :
    t.turnEnd = ({ endedWithoutDrop op t with op := none, redirect := false },
      [.log (doneEntry op t).1 (doneEntry op t).2, .outcome op .done]) := by
  rw [Tmc.turnEnd, if_pos h]
  exact Tmc.endNoDrop_eq (t := { t with motor := .unpowered, positionTimer := none }) o

/-- A HOME that finds THOME ends DONE, logged as HOMED (R14). -/
theorem Tmc.homingFound_home {t : Tmc} {op : Operation} (h : t.op = some op) (k : op.kind = .home) :
    t.homingFound = ({ endedHome t with op := none },
      [.log .homed (argPair op.source.number 0), .outcome op .done]) := by
  simp [Tmc.homingFound, Tmc.conclude, Tmc.opKind, Tmc.reportedSource, endedHome, foundHome, h, k]

/-- A change whose turn had become a homing turn goes on toward its own target (R17). -/
theorem Tmc.homingFound_turn {t : Tmc} {op : Operation} {g : Nat} (h : t.op = some op) (k : changesSlide op.kind = true)
    (target : t.target = some g) (away : g ≠ 0) :
    t.homingFound = (turning (foundHome t) g, [.log .homed (argPair op.source.number 0)]) := by
  have e : (foundHome t).enterTurn = turning (foundHome t) g := Tmc.enterTurn_eq target (Nat.zero_le _)
  rw [← e]
  obtain ⟨kind, source, level⟩ := op
  cases kind <;> first
    | exact absurd k Bool.false_ne_true
    | simp [Tmc.homingFound, Tmc.opKind, Tmc.reportedSource, foundHome, h, target, away]

end Sys2Proof.Machine
end

