-- ==== Sys2Proof/Tests/Slice0.lean ====
section
/-! SUPPORT. Tests of single steps with values from the manual's worked sequences and tables, a smoke test of
well-formedness, and a witness for every clause of the statements that assumes something. -/

namespace Sys2Proof.Tests

open Sys2Proof Sys2Proof.Machine Sys2Proof.Safety

set_option maxRecDepth 20000

/-- The command answers a next state of which `f` holds. -/
def after (c : Instr) (s : State) (f : State → Bool) : Bool :=
  match exec c s with
  | .next t => f t
  | _ => false

/-- The entries waiting for the ring that `t` has beyond those of reset, as code and argument (R213). -/
def entries (t : State) : List (Event × Nat) := t.rw.buffer.map fun e => (e.event, e.arg.toNat)

/-! ## Well-formedness: each check refuses an ill-formed command -/

theorem test_wellFormed_lead : (Instr.leadByte 0x10 true).wellFormed = false := by decide
theorem test_wellFormed_unknown : (Instr.unknownCode 0x11 true).wellFormed = false := by decide
theorem test_wellFormed_record : (Instr.cueStoreWrite 3968 0 0 true).wellFormed = false := by decide
theorem test_wellFormed_edge : (Instr.rlineEdge true 0).wellFormed = false := by decide
theorem test_wellFormed_accepts :
    (Instr.leadByte 0x22 true).wellFormed = true ∧ (Instr.unknownCode 0x2F true).wellFormed = true ∧
    (Instr.cueStoreWrite 3967 15 0 true).wellFormed = true ∧ (Instr.rlineEdge true 600).wellFormed = true := by decide

/-! ## The step and the interface -/

/-- The interface runs the machine of this package from its reset state. -/
theorem test_core : core.reset = State.reset ∧ core.step State.reset = .next State.reset := ⟨rfl, rfl⟩

/-- The queue is taken first in, first out (assumption log 1). -/
theorem test_step_front :
    (match step { State.reset with pending := [.tapeZero, .showStop] } with
      | .next t => decide (t.pending = [.showStop] ∧ t.dd.lastCode = 0x45)
      | _ => false) = true := by decide

/-! ## The slide change mechanism: the worked change from slot 12 to slot 14 (01) -/

/-- The mechanism of the worked change, in this phase at this position. -/
def change (state : MechState) (p : Nat) : Tmc :=
  { Tmc.reset with
      tcode := 1, n := 80, homed := true, p := p, display := bcd p, target := some 14, state := state,
      op := some ⟨.changeTo 14, .cue, 1⟩ }

/-- The part with the mechanism in that phase. -/
def changing (m : Tmc) : State :=
  { State.reset with tmc := m, ca := { Ca.reset with inService := some ⟨.changeTo 14, .cue, 1⟩ } }

theorem test_darken_to_lift : after .blackoutReport
    { changing { change .darken 12 with gate := .loaded, darkenLimit := some 850 } with
      lc := { Lc.reset with report := true } }
    (fun t => decide (t.tmc.state = .lift ∧ t.tmc.lifter = true ∧ t.tmc.darkenLimit = none ∧
      t.tmc.liftTimer = some 400)) = true := by decide

theorem test_lift_to_turn : after .ltopActive
    (changing { change .lift 12 with gate := .loaded, lifter := true, liftTimer := some 220 })
    (fun t => decide (t.tmc.state = .turn ∧ t.tmc.gate = .empty ∧ t.tmc.motor = .forward ∧
      t.tmc.positionTimer = some 250)) = true := by decide

theorem test_arrival_counts : after (.arrival false)
    (changing { change .turn 12 with lifter := true, motor := .forward, positionTimer := some 150 })
    (fun t => decide (t.tmc.state = .turn ∧ t.tmc.p = 13 ∧ t.tmc.display = 0x013)) = true := by decide

theorem test_arrival_target : after (.arrival false)
    (changing { change .turn 13 with lifter := true, motor := .forward, positionTimer := some 150 })
    (fun t => decide (t.tmc.state = .drop ∧ t.tmc.p = 14 ∧ t.tmc.lifter = false ∧ t.tmc.motor = .unpowered ∧
      t.tmc.dropTimer = some 300)) = true := by decide

theorem test_seated : after .gseatActive (changing { change .drop 14 with dropTimer := some 190 })
    (fun t => decide (t.tmc.state = .settle ∧ t.tmc.gate = .loaded ∧ t.tmc.settleTimer = some 40)) = true := by decide

theorem test_change_done : after .settleEnd
    (changing { change .settle 14 with gate := .loaded, settleTimer := some 0 })
    (fun t => decide (t.tmc.state = .ready ∧ t.ca.inService = none ∧ entries t = [(.changeDone, 0x010E)])) = true := by
  decide

/-- The worked retarget: at 103 of 120 the target 98 is nearer in reverse (R9, R23). -/
theorem test_retarget_reverses : after (.arrival false)
    (changing { change .turn 102 with
      tcode := 2, n := 120, target := some 98, lifter := true, motor := .forward, positionTimer := some 1,
      redirect := true })
    (fun t => decide (t.tmc.p = 103 ∧ t.tmc.motor = .reverse)) = true := by decide

/-- R5: -1 at 0 of 80 gives 80, and +3 at 79 gives 1. -/
theorem test_targets : targetOf { change .ready 0 with n := 80 } (.moveBy (-1)) = 80 ∧
    targetOf { change .ready 79 with n := 80 } (.moveBy 3) = 1 := by decide

theorem test_insert : after (.trayCodeChange 2) State.reset
    (fun t => decide (t.tmc.n = 120 ∧ t.tmc.state = .unhomed ∧ entries t = [(.trayInserted, 120)])) = true := by decide

theorem test_home_granted : after .home
    { State.reset with tmc := { Tmc.reset with tcode := 1, n := 80, state := .unhomed } }
    (fun t => decide (t.tmc.state = .darken ∧ t.tmc.darkenLimit = some 1000 ∧ t.dd.lastResult = 0)) = true := by decide

theorem test_goto_beyond : after (.gotoSlot 121) State.reset
    (fun t => decide (t.dd.lastCode = 0x11 ∧ t.dd.lastResult = 2 ∧ t.ca = Ca.reset)) = true := by decide

theorem test_move_clamped : after (.moveBy 10)
    { State.reset with tmc := { Tmc.reset with tcode := 1, n := 80, state := .ready, homed := true } }
    (fun t => decide (t.dd.lastResult = 1 ∧ t.tmc.target = some 9)) = true := by decide

theorem test_jam : after .positionTimerExpiry
    (changing { change .turn 29 with lifter := true, motor := .forward, positionTimer := some 0 })
    (fun t => decide (t.tmc.state = .jammed ∧ t.tmc.homed = false ∧ t.cu.inSet .trayJam = true)) = true := by decide

/-- A seat retry with LTOP already active goes from DROP to DROP by way of LIFT: line 1 is dirty (R4, R10). -/
theorem test_seat_retry_marks : after (.dropTimerExpiry true)
    { changing { change .drop 14 with
        sensors := { Sensors.quiet with ltop := true, gslide := true }, dropTimer := some 0, seatRetryCount := 255 } with
      rw := { Rw.reset with lines := List.replicate 11 ⟨false, false, 0, []⟩, job := some ⟨.entry, []⟩ } }
    (fun t => decide (t.tmc.state = .drop ∧ t.tmc.seatRetried = true ∧
      (t.rw.lines.getD 1 LineRecord.reset).dirty = true ∧ entries t = [(.seatRetry, 14)])) = true := by decide

/-! ## The lamp: the worked fades and heat step (02) -/

theorem test_lamp_on_deferred : after .lampOn State.reset
    (fun t => decide (t.lc.state = .waitCool ∧ entries t = [(.strikeDeferred, 0x3000)])) = true := by decide

theorem test_lamp_on_strikes : after .lampOn { State.reset with lc := { Lc.reset with h := 8192 } }
    (fun t => decide (t.lc.state = .striking)) = true := by decide

/-- 800 to 16 in 150 ms at t = 60: 486. -/
theorem test_linear_darkening : after .lampUpdate
    { State.reset with lc := { Lc.reset with
        state := .lit, lcur := true, output := 800, fadeLevel := 800, fade := some ⟨800, 16, 4, 150, 60⟩,
        lampPhase := some 0 } }
    (fun t => decide (t.lc.fadeLevel = 486 ∧ t.lc.output = 486)) = true := by decide

/-- 16 to 900 in 200 ms at t = 150 under the limit 640: the level 678, the output 640. -/
theorem test_return_derated : after .lampUpdate
    { State.reset with lc := { Lc.reset with
        state := .lit, lcur := true, output := 460, fadeLevel := 460, fade := some ⟨16, 900, 4, 200, 150⟩,
        derate := 640, lampPhase := some 0 } }
    (fun t => decide (t.lc.fadeLevel = 678 ∧ t.lc.output = 640)) = true := by decide

/-- The worked heat step: H 24,064 at output 640 and F 255 becomes 23,612, and the limit 682. -/
theorem test_heat_step : after .heatUpdate
    { State.reset with
      lc := { Lc.reset with
        state := .lit, lcur := true, output := 640, fadeLevel := 900, h := 24064, derate := 640, heatPhase := some 0 }
      fc := { Fc.reset with speed := 255, state := .running, demand := 255, grace := 0 } }
    (fun t => decide (t.lc.h = 23612 ∧ t.lc.derate = 682 ∧ t.lc.output = 682)) = true := by decide

/-- Cooling after POR: the first heat update gives 12,276. -/
theorem test_first_cooling : after .heatUpdate { State.reset with lc := { Lc.reset with heatPhase := some 0 } }
    (fun t => decide (t.lc.h = 12276)) = true := by decide

theorem test_strike_end_lit : after .strikeEnd
    { State.reset with lc := { Lc.reset with
        state := .striking, lcur := true, h := 8000, strike := some ⟨900, 600, 900⟩ } }
    (fun t => decide (t.lc.state = .lit ∧ t.lc.output = 900)) = true := by decide

/-- Lamp B chosen while A is active: the changer moves for 1500 ms (R38, R39). -/
theorem test_lamp_spare : after (.lampSpare 7) State.reset
    (fun t => decide (t.lc.state = .exchange ∧ t.lc.moveTimer = some 1500 ∧ t.dd.lastResult = 0)) = true := by decide

/-! ## The fan (03) -/

/-- The demand of the table at H = 8,192 with the lamp not active: 161. -/
theorem test_demand : after (.fanProfile 96 12) { State.reset with lc := { Lc.reset with h := 8192 } }
    (fun t => decide (t.fc.demand = 161)) = true := by decide

/-- FAN_PROFILE with CD not below RM (8,192 = 32 units) is refused. -/
theorem test_fan_profile_refused : after (.fanProfile 96 32) State.reset
    (fun t => decide (t.dd.lastResult = 2 ∧ t.fc = Fc.reset)) = true := by decide

/-- Window 4 of the worked sequence: the third stall window stalls the fan and cuts off. -/
theorem test_stall : after .measurementWindowEnd
    { State.reset with
      lc := { Lc.reset with state := .lit, lcur := true, output := 900, fadeLevel := 900, h := 20000 }
      fc := { Fc.reset with
        state := .running, demand := 255, speed := 12, grace := 0, stallWindows := 2, windowPhase := some 0 } }
    (fun t => decide (t.fc.state = .stalled ∧ t.fc.speed = 0 ∧ t.cu.flag = true ∧ t.cu.inSet .fanStall = true ∧
      t.lc.state = .off)) = true := by decide

/-- Window 6: seventy pulses are F = 255 and free the fan into COOLDOWN. -/
theorem test_recovery : after .measurementWindowEnd
    { State.reset with fc := { Fc.reset with
        state := .stalled, demand := 255, pulses := 70, grace := 0, stallWindows := 3, full := true,
        windowPhase := some 0 } }
    (fun t => decide (t.fc.speed = 255 ∧ t.fc.state = .cooldown ∧ t.fc.stallWindows = 0)) = true := by decide

/-! ## The cutoff: the worked lid lift (04) -/

/-- The lid stays open for 10 ms: INTERLOCK cuts the lamp, the tape and the sound off. -/
theorem test_interlock : after (.filterTimerExpiry .interlock)
    { State.reset with cu := { Cu.reset with ilockRaw := true, ilockTimer := some 0 } }
    (fun t => decide (t.cu.flag = true ∧ t.cu.inSet .interlock = true ∧ t.lc.imposition = .off ∧
      t.ttc.stopImposed = true ∧ t.ttc.muteImposed = true ∧ t.fc.demand = 255 ∧
      (Event.cutoffEnter, 2) ∈ entries t)) = true := by decide

theorem test_clear_refused : after .cutoffClear
    { State.reset with cu := { Cu.reset with flag := true, causes := 4, interlock := true, lampHanded := .off } }
    (fun t => decide (t.cu.flag = true ∧ t.dd.lastResult = 3 ∧ entries t = [(.clearRefused, 4)])) = true := by decide

/-! ## The deck: the worked bursts and locate (05) -/

/-- A burst from 10,000 to its last fall at 10,052 is an ADVANCE at count 1,200. -/
theorem test_advance_decoded : after .gapTimerExpiry
    { State.reset with
      rw := { Rw.reset with uptime := 10060 }
      ttc := { Ttc.reset with
        decoder := .gap, burstStart := 10000, burstCount := 1200, lastFall := 10052, gapTimer := some 0 } }
    (fun t => decide (t.ttc.fifo = [⟨.advance, 1200, 10052⟩] ∧ entries t = [(.cueDecoded, 0)])) = true := by decide

/-- A burst of 150 ms is no cue. -/
theorem test_invalid_burst : after .gapTimerExpiry
    { State.reset with ttc := { Ttc.reset with
        decoder := .gap, burstStart := 10500, burstCount := 1204, lastFall := 10650, gapTimer := some 0 } }
    (fun t => decide (t.ttc.fifo = [] ∧ entries t = [(.cueInvalid, 150)])) = true := by decide

/-- TAPE_LOCATE 1,000 in PLAYING brakes for 100 ms with the locate latched. -/
theorem test_locate_latched : after (.tapeLocate 0xE8 0x03)
    { State.reset with ttc := { Ttc.reset with state := .playing, direction := .forward, counter := 3400,
                                               stallWatch := some 2000 } }
    (fun t => decide (t.ttc.state = .braking ∧ t.ttc.latched = some (.locate 1000) ∧ t.ttc.brakingTimer = some 100 ∧
      t.dd.lastResult = 0)) = true := by decide

/-- The braking ends and the locate runs in reverse. -/
theorem test_locate_starts : after .brakingTimerExpiry
    { State.reset with ttc := { Ttc.reset with
        state := .braking, direction := .forward, counter := 3403, latched := some (.locate 1000),
        brakingTimer := some 0 } }
    (fun t => decide (t.ttc.state = .locating ∧ t.ttc.direction = .reverse ∧ t.ttc.latched = none)) = true := by decide

/-- The last pulse finds the target and brakes for 500 ms. -/
theorem test_locate_done : after .tmotnPulse
    { State.reset with ttc := { Ttc.reset with
        state := .locating, direction := .reverse, counter := 1001, locateTarget := some 1000 } }
    (fun t => decide (t.ttc.state = .braking ∧ t.ttc.counter = 1000 ∧ t.ttc.brakingTimer = some 500 ∧
      entries t = [(.locateDone, 1000)])) = true := by decide

/-! ## The remote: the worked held key (06) -/

/-- A frame of unit 0, key 0, toggle 1: bit 9 set, and the check 1. -/
theorem test_frame_pressed : after .remoteFrame
    { State.reset with
      tmc := { Tmc.reset with tcode := 1, n := 80, homed := true, p := 5, state := .lift, lifter := true,
                              op := some ⟨.changeTo 7, .cue, 1⟩, target := some 7 }
      ca := { Ca.reset with inService := some ⟨.changeTo 7, .cue, 1⟩ }
      rr := { Rr.reset with
        receiver := .space [false, false, false, false, false, false, false, false, false, true, true, false],
        frameEnd := some 0, idleTimer := none } }
    (fun t => decide (t.rr.held = some ⟨0, true, false⟩ ∧ t.rr.releaseTimer = some 250 ∧ t.rr.repeatTimer = some 500 ∧
      t.ca.slots.remote = some ⟨.moveBy 1, 1⟩ ∧ entries t = [(.key, 0)])) = true := by decide

/-- The repeat merges one more step. -/
theorem test_repeat_merges : after .repeatTimerExpiry
    { State.reset with
      tmc := { Tmc.reset with tcode := 1, n := 80, homed := true, p := 5, state := .lift, lifter := true,
                              op := some ⟨.changeTo 7, .cue, 1⟩, target := some 7 }
      ca := { Ca.reset with inService := some ⟨.changeTo 7, .cue, 1⟩,
                            slots := { Ca.reset.slots with remote := some ⟨.moveBy 1, 1⟩ } }
      rr := { Rr.reset with held := some ⟨0, true, false⟩, releaseTimer := some 190, repeatTimer := some 0 } }
    (fun t => decide (t.ca.slots.remote = some ⟨.moveBy 2, 1⟩ ∧ t.rr.repeatTimer = some 500)) = true := by decide

/-- A frame of key 4 that finds key 0 held, a RELEASE key: key 0 is released first, with all that this leads to (R118). Two
keys of LAMP_TOGGLE: the lamp goes OFF, STRIKING, OFF, line 2 is dirty all the same (R31, R211), and the fan that was called
up stops with COOLDOWN_DONE, H being 3072 (R61, R68). Key 0 of SHOW_PAUSE_RESUME, with the show PAUSED at an AWAIT_KEY of key
4 whose timeout of 10 ms is reached: the resumed show takes the timeout, and the press is not consumed (R168, R178, R180). -/
theorem test_frame_releases_first :
    after .remoteFrame
      { State.reset with
        lc := { Lc.reset with h := 3072 }
        fc := { Fc.reset with state := .stopped, demand := 0, grace := 0 }
        rw := { Rw.reset with lines := List.replicate 11 ⟨false, false, 0, []⟩, job := some ⟨.entry, []⟩ }
        rr := { Rr.reset with
          held := some ⟨0, false, false⟩, keyMap := [5, 0, 2, 0] ++ defaultKeyMap.drop 4,
          receiver := .space [false, false, false, false, false, false, true, false, false, false, true, false],
          frameEnd := some 0, idleTimer := none } }
      (fun t => decide (t.lc.state = .off ∧ (t.rw.lines.getD 2 LineRecord.reset).dirty = true ∧ t.fc.state = .stopped ∧
        entries t = [(.key, 4), (.lampOff, 0), (.cooldownDone, 0x0C00)])) = true ∧
    after .remoteFrame
      { State.reset with
        ce := { Ce.reset with
          showState := .paused, phase := .waiting, index := 3, clock := 10,
          queue := [⟨3, [3, 4, 1, 0, 0, 0, 255, 255, 0, 0, 0, 0, 5, 0, 6, 0], true, .sequential⟩] }
        rw := { Rw.reset with job := some ⟨.entry, []⟩ }
        rr := { Rr.reset with
          held := some ⟨0, false, false⟩, keyMap := [8, 0, 2, 0] ++ defaultKeyMap.drop 4,
          receiver := .space [false, false, false, false, false, false, true, false, false, false, true, false],
          frameEnd := some 0, idleTimer := none } }
      (fun t => decide (t.ce.showState = .running ∧ t.ce.index = 6 ∧ t.rr.held = some ⟨4, false, false⟩ ∧
        (entries t).take 2 = [(.awaitTimeout, 3), (.key, 4)])) = true := by decide

/-- A space of 0.8 ms is outside 0.45..0.75 ms: kind 3, after no bits. -/
theorem test_space_fails : after (.rlineEdge false 800)
    { State.reset with rr := { Rr.reset with receiver := .space [], frameEnd := some 2, idleTimer := none } }
    (fun t => decide (t.rr.receiver = .resync ∧ t.rr.errors = 1 ∧ entries t = [(.frameError, 0x0300)])) = true := by
  decide

/-! ## The arbiter: the worked queue (07) -/

/-- The DIRECTIVE operation ends at 40: REMOTE's 90 is out of the tray of 80, and TAPE's step resolves to 42. -/
theorem test_queue_behind_change : after .settleEnd
    { State.reset with
      tmc := { Tmc.reset with tcode := 1, n := 80, homed := true, p := 40, display := 0x040, state := .settle,
                              gate := .loaded, settleTimer := some 0, op := some ⟨.changeTo 40, .directive, 0⟩,
                              target := some 40 }
      ca := { Ca.reset with
        inService := some ⟨.changeTo 40, .directive, 0⟩,
        slots := { Ca.reset.slots with remote := some ⟨.changeTo 90, 1⟩, tape := some ⟨.moveBy 2, 2⟩ } } }
    (fun t => decide (t.ca.slots.remote = none ∧ t.ca.inService = some ⟨.moveBy 2, .tape, 2⟩ ∧
      t.tmc.target = some 42 ∧ (Event.requestsDiscarded, 0x0704) ∈ entries t)) = true := by decide

theorem test_arb_levels_refused : after (.arbLevels 0 4) State.reset
    (fun t => decide (t.dd.lastResult = 2 ∧ t.ca = Ca.reset)) = true := by decide

/-! ## The run channels: the worked rotation (08) -/

/-- Channel 1 of the worked sequence ends its one change: RUN_TC 0x0132, and the reload sets it back to 50. -/
theorem test_run_completion : after .settleEnd
    { State.reset with
      tmc := { Tmc.reset with tcode := 1, n := 80, homed := true, p := 50, display := 0x050, state := .settle,
                              gate := .loaded, settleTimer := some 0, op := some ⟨.changeTo 50, .run, 2⟩,
                              target := some 50 }
      ca := { Ca.reset with inService := some ⟨.changeTo 50, .run, 2⟩ }
      rcu := { Rcu.reset with
        rotating := true, pointer := 2, serviceMarker := some ⟨1, false⟩,
        channels := ⟨Channel.cleared, { Channel.cleared with
          baseSlot := 50, baseCount := 0, slot := 50, count := 0, down := true, reload := true, mask := false,
          request := true }, Channel.cleared, Channel.cleared⟩ } }
    (fun t => decide (t.rcu.channels.c1.slot = 50 ∧ t.rcu.channels.c1.count = 0 ∧ t.rcu.channels.c1.tc = true ∧
      t.rcu.serviceMarker = none ∧ (Event.runTc, 0x0132) ∈ entries t)) = true := by decide

/-! ## The show (09) -/

theorem test_show_start : after (.showStart 100 0) State.reset
    (fun t => decide (t.ce.showState = .running ∧ t.ce.index = 100 ∧ t.ce.clock = 0 ∧
      entries t = [(.showStarted, 100)])) = true := by decide

/-- SHOW_START beyond the store (3968 = 0x0F80) is refused. -/
theorem test_show_start_refused : after (.showStart 0x80 0x0F) State.reset
    (fun t => decide (t.dd.lastResult = 2 ∧ t.ce = Ce.reset)) = true := by decide

/-- A stop with no read in the queue leaves the count of the Report Writer's write in progress (R196, R197). -/
theorem test_show_stop_counts : after .showStop
    { State.reset with
      pu := { Pu.reset with own := some ⟨.reportWriter, 0x0100, some 1, true⟩, waitCount := 5 }
      ce := { Ce.reset with showState := .ended } }
    (fun t => decide (t.ce.showState = .idle ∧ t.pu.waitCount = 5)) = true := by decide

/-- Record 102 of the worked show at its timeout: AWAIT_TIMEOUT, the memory entry, and a path miss to 110. -/
theorem test_await_timeout : after .awaitTimeout
    { State.reset with ce := { Ce.reset with
        showState := .running, index := 102, clock := 6000, startInstant := 3500, phase := .waiting,
        queue := [⟨102, [3, 7, 250, 0, 0, 0, 255, 255, 0, 0, 0, 0, 103, 0, 110, 0], true, .sequential⟩,
          ⟨103, [0, 0, 0, 0, 0, 0, 255, 255, 0, 0, 0, 0, 0, 0, 0, 0], true, .next⟩] } }
    (fun t => decide (t.ce.memory = [⟨102, true⟩] ∧ t.ce.index = 110 ∧ t.ce.pathMiss = 1 ∧
      (Event.awaitTimeout, 102) ∈ entries t ∧ (Event.pathMiss, 110) ∈ entries t)) = true := by decide

/-! ## The host's side (10 to 12) -/

/-- A write passes to the RAM and reads back. -/
theorem test_memory_round : after (.hostWrite 0x12345 0x5A true) State.reset
    (fun t => after (.hostRead 0x12345 true) t fun u => decide (u.pu.hostData = 0x5A)) = true := by decide

/-- The worked stream: a new lead byte abandons LAMP_FADE. -/
theorem test_abandoned : after (.leadByte 0x11 true)
    { State.reset with dd := { Dd.reset with
        collecting := true, openCode := 0x22, buffer := [0x84, 0x03], expected := 4, received := 2, taken := 17 } }
    (fun t => decide (t.dd.openCode = 0x11 ∧ t.dd.expected = 1 ∧ t.dd.received = 0 ∧ t.dd.taken = 17 ∧
      entries t = [(.directiveAbandoned, 0x0022)])) = true := by decide

/-- The worked stream: a stray byte after GOTO_SLOT. -/
theorem test_stray : after (.operandByte 0 true)
    { State.reset with dd := { Dd.reset with lastCode := 0x11, lastResult := 0, taken := 18 } }
    (fun t => decide (entries t = [(.strayOperand, 0x1100)] ∧ t.dd.taken = 18)) = true := by decide

/-- The worked stream: the unknown code 0x2F. -/
theorem test_unknown : after (.unknownCode 0x2F true) { State.reset with dd := { Dd.reset with taken := 18 } }
    (fun t => decide (t.dd.lastCode = 0x2F ∧ t.dd.lastResult = 5 ∧ t.dd.taken = 19)) = true := by decide

theorem test_ridx : after (.ridxWrite 10 true) State.reset (fun t => decide (t.rw.readIndex = 10)) = true := by decide

/-- The ring is full: the entry is dropped and counted. -/
theorem test_ring_full : after (.uptimeTick Sensors.quiet)
    { State.reset with rw := { Rw.reset with
        writeIndex := 127, readIndex := 0, buffer := [⟨.homed, 0, 0⟩], entryNext := true } }
    (fun t => decide (t.rw.writeIndex = 127 ∧ t.rw.dropped = 1 ∧ t.rw.buffer = [])) = true := by decide

theorem test_part_reset : after .partReset { State.reset with ttc := { Ttc.reset with counter := 77 } }
    (fun t => decide (t.dd.lastCode = 1 ∧ t.dd.taken = 1 ∧ t.ttc.counter = 77 ∧
      entries t = [(.partReset, 0)])) = true := by decide

/-! ## Display and dirty marks -/

/-- Leading zeros are blanked and an unhomed display shows dashes (R21). -/
theorem test_display_blanks :
    { State.reset with tmc := { Tmc.reset with homed := true, display := bcd 5 } }.dseg = [.blank, .blank, .digit 5] ∧
    { State.reset with tmc := { Tmc.reset with homed := true, display := bcd 105 } }.dseg = [.digit 1, .digit 0, .digit 5] ∧
    { State.reset with tmc := { Tmc.reset with homed := true, display := bcd 0 } }.dseg = [.blank, .blank, .digit 0] ∧
    State.reset.dseg = [.dash, .dash, .dash] := by decide

/-- A part whose lines are clean while its Report Writer writes. -/
def writing : State :=
  { State.reset with rw := { Rw.reset with
      job := some ⟨.entry, [⟨0x0200, 0⟩]⟩, lines := List.replicate 11 { LineRecord.reset with dirty := false } } }

/-- The dirty lines. -/
def dirtyLines (t : State) : List Nat := (List.range 11).filter fun n => (t.rw.lines.getD n LineRecord.reset).dirty

/-- CUTOFF_SELECT, ARB_LEVELS, RUN_LOAD and RUN_CLEAR_ALL mark their lines with the values that stand (R82, R134, R150,
R162); line 0 carries the answer. -/
theorem test_marks_standing :
    after (.cutoffSelect 0 0) writing (fun t => dirtyLines t == [0, 4]) = true ∧
    after (.arbLevels 0x94 0x02) writing (fun t => dirtyLines t == [0, 6]) = true ∧
    after (.runLoad 1 1 0 0 10) writing (fun t => dirtyLines t == [0, 7]) = true ∧
    after .runClearAll writing (fun t => dirtyLines t == [0, 7, 8]) = true := by decide

/-- A HOME that is granted, and a GOTO_SLOT that is refused for want of a tray, mark line 6 in the same act (R130, R136,
R137). A GOTO_SLOT to the slot in the lit gate marks line 1 too, for the source that was in service (R4, R6). -/
theorem test_marks_arbiter :
    after (.gotoSlot 5) writing (fun t => dirtyLines t == [0, 6] && entries t == [(.requestsDiscarded, 0x0601)]) = true ∧
    after .home { writing with tmc := { Tmc.reset with tcode := 1, n := 80, state := .unhomed } }
      (fun t => (dirtyLines t).contains 6) = true ∧
    after (.gotoSlot 5) { writing with
        tmc := { Tmc.reset with
          tcode := 1, n := 80, state := .ready, homed := true, p := 5, display := 0x005, target := some 5, gate := .loaded } }
      (fun t => dirtyLines t == [0, 1, 6] && entries t == [(.changeDone, 0x0005)]) = true := by decide

/-- An entry lost at a full ring marks line 0, which is written next with the new count (R211, R212, R214). -/
theorem test_drop_marks_line0 :
    after .writerQuietEnd { writing with
        rw := { writing.rw with job := none, entryNext := true, readIndex := 1, buffer := [⟨.key, 1, 0⟩, ⟨.key, 2, 0⟩] } }
      (fun t => t.rw.dropped == 1 && t.rw.lastLine == 0 && t.rw.buffer == [⟨.key, 2, 0⟩] &&
        (t.lineData 0).getD 7 0 == 1) = true := by decide

/-- A path miss withdraws the read that waits, and the queue that it leaves empty sets the count to 0 (R186, R196, R197). -/
theorem test_pathMiss_withdraws :
    after .timelineInstant { writing with
        pu := { Pu.reset with ceRequest := some 0x0850, waitCount := 5, hostBusy := true }
        ce := { Ce.reset with
          showState := .running, phase := .fired, index := 3, fired := [1, 0, 0, 0, 0, 0, 0, 0, 0, 0, 0,
          0, 9, 0, 0, 0], queue := [⟨3, [], true, .next⟩, ⟨4, [], false, .sequential⟩] } }
      (fun t => t.ce.pathMiss == 1 && t.ce.index == 9 && t.pu.ceRequest == some 0x0890 && t.pu.waitCount == 0) = true := by
  decide

/-! ## Witnesses of the statements' hypotheses -/

/-- What Obligations.TrayCodeChange assumes is met, clause by clause. -/
theorem witness_TrayCodeChange :
    (∃ code : BitVec 2, ∃ s : State, s.notices = [] ∧ s.cu.trayLost = s.tmc.trayLost ∧ code = s.tmc.tcode) ∧
    (∃ code : BitVec 2, ∃ s : State, s.notices = [] ∧ s.cu.trayLost = s.tmc.trayLost ∧ (s.tmc.tcode = 0 ∨ s.tmc.tcode
    = 3) ∧ (code = 1 ∨ code = 2)) ∧
    (∃ code : BitVec 2, ∃ s : State, s.notices = [] ∧ s.cu.trayLost = s.tmc.trayLost ∧ (s.tmc.tcode = 1 ∨ s.tmc.tcode
    = 2) ∧ code = 0 ∧ s.tmc.state = .ready ∧ s.tmc.p = 0 ∧ s.tmc.gate = .empty ∧ s.tmc.op = none ∧ s.tmc.uncleanLoss =
    false) ∧
    (∃ code : BitVec 2, ∃ s : State, s.notices = [] ∧ s.cu.trayLost = s.tmc.trayLost ∧ (s.tmc.tcode = 1 ∨ s.tmc.tcode
    = 2) ∧ (code = 0 ∨ code = 3) ∧ ¬ (s.tmc.state = .ready ∧ s.tmc.p = 0 ∧ s.tmc.gate = .empty) ∧ s.cu.enabled
    .trayLost = true ∧ s.cu.trayLost = false) :=
  ⟨⟨0, State.reset, by decide, by decide, by decide⟩,
   ⟨1, State.reset, by decide, by decide, by decide, by decide⟩,
   ⟨0, { State.reset with tmc := { Tmc.reset with tcode := 1, state := .ready } }, by decide, by decide, by decide, by
   decide, by decide, by decide, by decide, by decide, by decide⟩,
   ⟨0, { State.reset with tmc := { Tmc.reset with tcode := 1 } }, by decide, by decide, by decide, by decide, by
   decide, by decide, by decide⟩⟩

/-- What Obligations.DarkenEnds assumes is met, clause by clause. -/
theorem witness_DarkenEnds :
    (∃ s : State, s.notices = [] ∧ s.lc.report = false) ∧
    (∃ s : State, s.notices = [] ∧ s.lc.report = true ∧ s.tmc.state ≠ .darken) ∧
    (∃ s : State, s.notices = [] ∧ s.lc.report = true ∧ s.tmc.state = .darken ∧ s.tmc.gate = .loaded ∧
    s.tmc.sensors.ltop = false) ∧
    (∃ s : State, s.notices = [] ∧ s.lc.report = true ∧ ∃ op, s.tmc.op = some op ∧ ∃ g, s.tmc.target = some g ∧
    s.tmc.state = .darken ∧ s.tmc.gate = .empty ∧ changesSlide op.kind = true ∧ g ≠ s.tmc.p ∧ g ≤ s.tmc.n ∧ s.tmc.p ≤
    s.tmc.n) ∧
    (∃ s : State, s.notices = [] ∧ ¬ (s.tmc.state = .darken ∧ s.tmc.darkenLimit = some 0)) ∧
    (∃ s : State, s.notices = [] ∧ s.tmc.state = .darken ∧ s.tmc.darkenLimit = some 0 ∧ s.lc.hold ≠ .none) ∧
    (∃ s : State, s.notices = [] ∧ s.tmc.state = .darken ∧ s.tmc.darkenLimit = some 0 ∧ ∃ b, s.lc.holdLevel = some b ∧
    s.lc.hold = .darkening) :=
  ⟨⟨State.reset, by decide, by decide⟩,
   ⟨{ State.reset with lc := { Lc.reset with report := true } }, by decide, by decide, by decide⟩,
   ⟨{ State.reset with
      tmc := { Tmc.reset with state := .darken, gate := .loaded },
      lc := { Lc.reset with report := true } },
   by decide, by decide, by decide, by decide, by decide⟩,
   ⟨{ State.reset with
      tmc := { Tmc.reset with
        state := .darken, n := 80, target := some 46,
        op := some { kind := .changeTo 46, source := .tape, level := 2 } },
      lc := { Lc.reset with report := true } },
   by decide, by decide, _, rfl, _, rfl, by decide, by decide, by decide, by decide, by decide, by decide⟩,
   ⟨State.reset, by decide, by decide⟩,
   ⟨{ State.reset with
      tmc := { Tmc.reset with state := .darken, darkenLimit := some 0 },
      lc := { Lc.reset with hold := .held } },
   by decide, by decide, by decide, by decide⟩,
   ⟨{ State.reset with
      tmc := { Tmc.reset with state := .darken, darkenLimit := some 0 },
      lc := { Lc.reset with hold := .darkening, holdLevel := some 126 } },
   by decide, by decide, by decide, _, rfl, by decide⟩⟩

/-- What Obligations.LiftPhase assumes is met, clause by clause. -/
theorem witness_LiftPhase :
    (∃ s : State, s.notices = [] ∧ ¬ (s.tmc.state = .lift ∧ s.tmc.lifter = true)) ∧
    (∃ s : State, s.notices = [] ∧ ∃ op, s.tmc.op = some op ∧ ∃ g, s.tmc.target = some g ∧ s.tmc.state = .lift ∧
    s.tmc.lifter = true ∧ changesSlide op.kind = true ∧ g ≠ s.tmc.p ∧ g ≤ s.tmc.n ∧ s.tmc.p ≤ s.tmc.n) ∧
    (∃ s : State, s.notices = [] ∧ ∃ op, s.tmc.op = some op ∧ s.tmc.state = .lift ∧ s.tmc.lifter = true ∧ op.kind =
    .home ∧ s.tmc.sensors.thome = false) ∧
    (∃ s : State, s.notices = [] ∧ ¬ (s.tmc.state = .lift ∧ s.tmc.liftTimer = some 0)) ∧
    (∃ s : State, s.notices = [] ∧ s.tmc.state = .lift ∧ s.tmc.liftTimer = some 0 ∧ s.tmc.liftRetried = false) ∧
    (∃ s : State, s.notices = [] ∧ ¬ (s.tmc.state = .lift ∧ s.tmc.lowerTimer = some 0)) ∧
    (∃ s : State, s.notices = [] ∧ s.tmc.state = .lift ∧ s.tmc.lowerTimer = some 0 ∧ s.tmc.sensors.ltop = false) :=
  ⟨⟨State.reset, by decide, by decide⟩,
   ⟨{ State.reset with
      tmc := { Tmc.reset with
        state := .lift, n := 80, lifter := true, target := some 33,
        op := some { kind := .changeTo 33, source := .tape, level := 3 } } },
   by decide, _, rfl, _, rfl, by decide, by decide, by decide, by decide, by decide, by decide⟩,
   ⟨{ State.reset with
      tmc := { Tmc.reset with
        state := .lift, lifter := true, op := some { kind := .home, source := .tape, level := 2 } } },
   by decide, _, rfl, by decide, by decide, by decide, by decide⟩,
   ⟨State.reset, by decide, by decide⟩,
   ⟨{ State.reset with tmc := { Tmc.reset with state := .lift, liftTimer := some 0 } }, by decide, by decide, by
   decide, by decide⟩,
   ⟨State.reset, by decide, by decide⟩,
   ⟨{ State.reset with tmc := { Tmc.reset with state := .lift, lowerTimer := some 0 } }, by decide, by decide, by
   decide, by decide⟩⟩

/-- What Obligations.MechanismJams assumes is met, clause by clause. -/
theorem witness_MechanismJams :
    (∃ c : Instr, ∃ s : State, s.notices = [] ∧ (c = .liftTimerExpiry ∧ s.tmc.state = .lift ∧ s.tmc.liftTimer = some 0
    ∧ s.tmc.liftRetried = true ∨ c = .positionTimerExpiry ∧ s.tmc.state = .turn ∧ s.tmc.positionTimer = some 0 ∨ c =
    .dropTimerExpiry true ∧ s.tmc.state = .drop ∧ s.tmc.dropTimer = some 0 ∧ s.tmc.seatRetried = true ∨ c = .arrival
    false ∧ s.tmc.state = .turn ∧ s.tmc.motor = .forward ∧ s.tmc.homing = true ∧ s.tmc.arrivals + 1 = s.tmc.n + 2) ∧
    s.cu.enabled .trayJam = true) ∧
    (∃ s : State, s.notices = [] ∧ ¬ (s.tmc.state = .turn ∧ s.tmc.positionTimer = some 0)) :=
  ⟨⟨.positionTimerExpiry, { State.reset with tmc := { Tmc.reset with state := .turn, positionTimer := some 0 } }, by
   decide, by decide, by decide⟩,
   ⟨State.reset, by decide, by decide⟩⟩

/-- What Obligations.TurnArrivals assumes is met, clause by clause. -/
theorem witness_TurnArrivals :
    (∃ s : State, s.notices = [] ∧ (¬ (s.tmc.state = .turn ∧ (s.tmc.motor = .forward ∨ s.tmc.motor = .reverse)))) ∧
    (∃ thome : Bool, ∃ s : State, s.notices = [] ∧ ∃ p, p = ringStep s.tmc.motor s.tmc.p s.tmc.n ∧ ∃ g, s.tmc.target =
    some g ∧ s.tmc.state = .turn ∧ Mechanism s.tmc ∧ s.tmc.homing = false ∧ s.tmc.redirect = false ∧ g ≤ s.tmc.n ∧
    thome = false ∧ p ≠ 0 ∧ p ≠ g) ∧
    (∃ thome : Bool, ∃ s : State, s.notices = [] ∧ ∃ p, p = ringStep s.tmc.motor s.tmc.p s.tmc.n ∧ ∃ g, s.tmc.target =
    some g ∧ s.tmc.state = .turn ∧ Mechanism s.tmc ∧ s.tmc.homing = false ∧ s.tmc.redirect = false ∧ g ≤ s.tmc.n ∧
    thome = false ∧ p ≠ 0 ∧ p = g ∧ s.tmc.sensors.gseat = false) ∧
    (∃ thome : Bool, ∃ s : State, s.notices = [] ∧ ∃ p, p = ringStep s.tmc.motor s.tmc.p s.tmc.n ∧ ∃ g, s.tmc.target =
    some g ∧ s.tmc.state = .turn ∧ Mechanism s.tmc ∧ s.tmc.homing = false ∧ s.tmc.redirect = false ∧ g ≤ s.tmc.n ∧
    thome = true ∧ p ≠ 0 ∧ g ≠ 0) ∧
    (∃ thome : Bool, ∃ s : State, s.notices = [] ∧ ∃ p, p = ringStep s.tmc.motor s.tmc.p s.tmc.n ∧ ∃ g, s.tmc.target =
    some g ∧ s.tmc.state = .turn ∧ Mechanism s.tmc ∧ s.tmc.homing = false ∧ s.tmc.redirect = false ∧ g ≤ s.tmc.n ∧
    thome = false ∧ p = 0) ∧
    (∃ s : State, s.notices = [] ∧ s.tmc.state = .turn ∧ s.tmc.motor = .forward ∧ s.tmc.homing = true ∧ s.tmc.arrivals
    + 1 < s.tmc.n + 2) ∧
    (∃ s : State, s.notices = [] ∧ s.tmc.state = .turn ∧ s.tmc.motor = .forward ∧ s.tmc.homing = true ∧ ∃ op, s.tmc.op
    = some op ∧ Alone s op ∧ op.kind = .home) :=
  ⟨⟨State.reset, by decide, by decide⟩,
   ⟨false,
   { State.reset with
      tmc := { Tmc.reset with
        tcode := 1, state := .turn, n := 80, p := 52, homed := true, motor := .reverse, lifter := true,
        display := 82, target := some 5, op := some { kind := .changeTo 8, source := .run, level := 0 } } },
   by decide, _, rfl, _, rfl, by decide, by constructor <;> decide, by decide, by decide, by decide, by decide, by
   decide, by decide⟩,
   ⟨false,
   { State.reset with
      tmc := { Tmc.reset with
        tcode := 1, state := .turn, n := 80, p := 51, homed := true, motor := .reverse, lifter := true,
        display := 81, target := some 50, op := some { kind := .changeTo 50, source := .tape, level := 1 } } },
   by decide, _, rfl, _, rfl, by decide, by constructor <;> decide, by decide, by decide, by decide, by decide, by
   decide, by decide, by decide⟩,
   ⟨true,
   { State.reset with
      tmc := { Tmc.reset with
        tcode := 1, state := .turn, n := 80, p := 52, homed := true, motor := .reverse, lifter := true,
        display := 82, target := some 5, op := some { kind := .changeTo 8, source := .run, level := 0 } } },
   by decide, _, rfl, _, rfl, by decide, by constructor <;> decide, by decide, by decide, by decide, by decide, by
   decide, by decide⟩,
   ⟨false,
   { State.reset with
      tmc := { Tmc.reset with
        tcode := 1, state := .turn, n := 80, p := 80, homed := true, motor := .forward, lifter := true,
        display := 128, target := some 63, op := some { kind := .changeTo 63, source := .tape, level := 3 } } },
   by decide, _, rfl, _, rfl, by decide, by constructor <;> decide, by decide, by decide, by decide, by decide, by
   decide⟩,
   ⟨{ State.reset with tmc := { Tmc.reset with state := .turn, homing := true, motor := .forward } }, by decide, by
   decide, by decide, by decide, by decide⟩,
   ⟨{ State.reset with
      ca := { Ca.reset with inService := some { kind := .home, source := .directive, level := 0 } },
      tmc := { Tmc.reset with
        state := .turn, homing := true, motor := .forward,
        op := some { kind := .home, source := .directive, level := 0 } } },
   by decide, by decide, by decide, by decide, _, rfl, ⟨rfl, rfl, by decide, by intro x; cases x <;> rfl⟩, by decide⟩⟩

/-- What Obligations.DropEnds assumes is met, clause by clause. -/
theorem witness_DropEnds :
    (∃ s : State, s.notices = [] ∧ s.tmc.state ≠ .drop) ∧
    (∃ s : State, s.notices = [] ∧ s.tmc.state = .drop) ∧
    (∃ s : State, s.notices = [] ∧ ¬ (s.tmc.state = .drop ∧ s.tmc.dropTimer = some 0)) ∧
    (∃ s : State, s.notices = [] ∧ ∃ gslide : Bool, s.tmc.state = .drop ∧ s.tmc.dropTimer = some 0 ∧ gslide = false) ∧
    (∃ s : State, s.notices = [] ∧ ∃ gslide : Bool, s.tmc.state = .drop ∧ s.tmc.dropTimer = some 0 ∧ gslide = true ∧
    s.tmc.seatRetried = false ∧ s.tmc.sensors.ltop = false) :=
  ⟨⟨State.reset, by decide, by decide⟩,
   ⟨{ State.reset with tmc := { Tmc.reset with state := .drop } }, by decide, by decide⟩,
   ⟨State.reset, by decide, by decide⟩,
   ⟨{ State.reset with tmc := { Tmc.reset with state := .drop, dropTimer := some 0 } }, by decide, false, by decide,
   by decide, by decide⟩,
   ⟨{ State.reset with tmc := { Tmc.reset with state := .drop, dropTimer := some 0 } }, by decide, true, by decide, by
   decide, by decide, by decide, by decide⟩⟩

/-- What Obligations.SettleEnds assumes is met, clause by clause. -/
theorem witness_SettleEnds :
    (∃ s : State, s.notices = [] ∧ ¬ (s.tmc.state = .settle ∧ s.tmc.settleTimer = some 0)) ∧
    (∃ s : State, s.notices = [] ∧ s.tmc.state = .settle ∧ s.tmc.settleTimer = some 0 ∧ ∃ op, s.tmc.op = some op ∧
    Alone s op ∧ s.lc.state ≠ .striking) ∧
    (∃ s : State, s.notices = [] ∧ s.tmc.state = .settle ∧ s.tmc.settleTimer = some 0 ∧ ∃ op, s.tmc.op = some op ∧
    Alone s op ∧ s.lc.state = .lit ∧ s.lc.hold ≠ .none) :=
  ⟨⟨State.reset, by decide, by decide⟩,
   ⟨{ State.reset with
      ca := { Ca.reset with inService := some { kind := .changeTo 25, source := .tape, level := 2 } },
      tmc := { Tmc.reset with
        state := .settle, op := some { kind := .changeTo 25, source := .tape, level := 2 }, settleTimer := some 0 } },
   by decide, by decide, by decide, _, rfl, ⟨rfl, rfl, by decide, by intro x; cases x <;> rfl⟩, by decide⟩,
   ⟨{ State.reset with
      ca := { Ca.reset with inService := some { kind := .changeTo 6, source := .tape, level := 1 } },
      tmc := { Tmc.reset with
        state := .settle, op := some { kind := .changeTo 6, source := .tape, level := 1 }, settleTimer := some 0 },
      lc := { Lc.reset with state := .lit, hold := .darkening } },
   by decide, by decide, by decide, _, rfl, ⟨rfl, rfl, by decide, by intro x; cases x <;> rfl⟩, by decide, by decide⟩⟩

/-- What Obligations.RequestsRefused assumes is met, clause by clause. -/
theorem witness_RequestsRefused :
    (∃ s : State, Ready s ∧ ∃ slot : Byte, (120 < slot.toNat ∨ (s.tmc.n ≠ 0 ∧ s.tmc.n < slot.toNat))) ∧
    (∃ s : State, Ready s ∧ s.ca.slots.directive ≠ none) ∧
    (∃ s : State, Ready s ∧ s.ca.slots.directive ≠ none ∧ ∃ slot : Byte, slot.toNat ≤ 120 ∧ (s.tmc.n = 0 ∨ slot.toNat
    ≤ s.tmc.n)) :=
  ⟨⟨State.reset, ⟨rfl, rfl⟩, 208, by decide⟩,
   ⟨{ State.reset with
      ca := { Ca.reset with
        slots := { directive := some { kind := .moveBy 6, level := 3 }, cue := none, remote := none, tape := none, run := none } } },
   ⟨rfl, rfl⟩, by decide⟩,
   ⟨{ State.reset with
      ca := { Ca.reset with
        slots := { directive := some { kind := .moveBy 6, level := 3 }, cue := none, remote := none, tape := none, run := none } } },
   ⟨rfl, rfl⟩, by decide, 0, by decide, by decide⟩⟩

/-- What Obligations.RequestsGranted assumes is met, clause by clause. -/
theorem witness_RequestsGranted :
    (∃ c : Instr, ∃ s : State, Ready s ∧ s.tmc.state = .ready ∧ s.tmc.homed = true ∧ s.ca.inService = none ∧ (∀
    source, s.ca.slots.get source = none) ∧ s.ca.masks.directive = false ∧ (s.cu.flag = false ∨ s.cu.traySel =
    .ignore) ∧ ∃ q, requestOf c = some q ∧ (∀ slot, q.kind = .changeTo slot → s.tmc.n ≠ 0 ∧ slot ≤ s.tmc.n ∧ slot ≤
    120) ∧ ∃ g, g = targetOf s.tmc q.kind ∧ ¬ (changesSlide q.kind = true ∧ g = s.tmc.p ∧ s.tmc.gate = .loaded) ∧
    q.kind = .home) ∧
    (∃ c : Instr, ∃ s : State, Ready s ∧ s.tmc.state = .ready ∧ s.tmc.homed = true ∧ s.ca.inService = none ∧ (∀
    source, s.ca.slots.get source = none) ∧ s.ca.masks.directive = false ∧ (s.cu.flag = false ∨ s.cu.traySel =
    .ignore) ∧ ∃ q, requestOf c = some q ∧ (∀ slot, q.kind = .changeTo slot → s.tmc.n ≠ 0 ∧ slot ≤ s.tmc.n ∧ slot ≤
    120) ∧ ∃ g, g = targetOf s.tmc q.kind ∧ ¬ (changesSlide q.kind = true ∧ g = s.tmc.p ∧ s.tmc.gate = .loaded) ∧
    s.lc.output ≤ s.tmc.blackout ∧ s.lc.hold ≠ .darkening) ∧
    (∃ c : Instr, ∃ s : State, Ready s ∧ s.tmc.state = .ready ∧ s.tmc.homed = true ∧ s.ca.inService = none ∧ (∀
    source, s.ca.slots.get source = none) ∧ s.ca.masks.directive = false ∧ (s.cu.flag = false ∨ s.cu.traySel =
    .ignore) ∧ ∃ q, requestOf c = some q ∧ (∀ slot, q.kind = .changeTo slot → s.tmc.n ≠ 0 ∧ slot ≤ s.tmc.n ∧ slot ≤
    120) ∧ ∃ g, g = targetOf s.tmc q.kind ∧ ¬ (changesSlide q.kind = true ∧ g = s.tmc.p ∧ s.tmc.gate = .loaded) ∧
    s.tmc.blackout < s.lc.output ∧ s.lc.state = .lit ∧ s.lc.hold ≠ .darkening) ∧
    (∃ slot : Byte, ∃ s : State, Ready s ∧ s.tmc.state = .ready ∧ s.tmc.homed = true ∧ s.ca.inService = none ∧ (∀
    source, s.ca.slots.get source = none) ∧ s.ca.masks.directive = false ∧ (s.cu.flag = false ∨ s.cu.traySel =
    .ignore) ∧ s.tmc.n ≠ 0 ∧ slot.toNat ≤ s.tmc.n ∧ slot.toNat ≤ 120 ∧ slot.toNat = s.tmc.p ∧ s.tmc.gate = .loaded) :=
  ⟨⟨.home, { State.reset with tmc := { Tmc.reset with state := .ready, homed := true } }, ⟨rfl, rfl⟩, by decide, by
   decide, by decide, by intro x; cases x <;> decide, by decide, by decide, _, rfl, nofun, _, rfl, by decide, by
   decide⟩,
   ⟨.home, { State.reset with tmc := { Tmc.reset with state := .ready, homed := true } }, ⟨rfl, rfl⟩, by decide, by
   decide, by decide, by intro x; cases x <;> decide, by decide, by decide, _, rfl, nofun, _, rfl, by decide, by
   decide, by decide⟩,
   ⟨.home,
   { State.reset with
      tmc := { Tmc.reset with state := .ready, homed := true },
      lc := { Lc.reset with state := .lit, output := 763 } },
   ⟨rfl, rfl⟩, by decide, by decide, by decide, by intro x; cases x <;> decide, by decide, by decide, _, rfl, nofun,
   _, rfl, by decide, by decide, by decide, by decide⟩,
   ⟨0, { State.reset with tmc := { Tmc.reset with state := .ready, n := 80, homed := true, gate := .loaded } }, ⟨rfl,
   rfl⟩, by decide, by decide, by decide, by intro x; cases x <;> decide, by decide, by decide, by decide, by decide,
   by decide, by decide, by decide⟩⟩

/-- What Obligations.ChangeProfile assumes is met, clause by clause. -/
theorem witness_ChangeProfile :
    (∃ s : State, Ready s ∧ s.ce.waiting? = none ∧ s.tmc.inCycle = true) ∧
    (∃ s : State, Ready s ∧ s.ce.waiting? = none ∧ s.tmc.inCycle = false) :=
  ⟨⟨{ State.reset with tmc := { Tmc.reset with state := .turn } }, ⟨rfl, rfl⟩, by decide, by decide⟩,
   ⟨State.reset, ⟨rfl, rfl⟩, by decide, by decide⟩⟩

/-- What Obligations.LampSwitched assumes is met, clause by clause. -/
theorem witness_LampSwitched :
    (∃ s : State, Ready s ∧ (s.lc.imposition = .off ∨ s.lc.state = .failed)) ∧
    (∃ s : State, Ready s ∧ ∃ good, good = (if s.lc.active = .a then s.lc.goodA else s.lc.goodB) ∧ s.lc.imposition ≠
    .off ∧ s.lc.state = .off ∧ good = true ∧ s.lc.h ≤ s.lc.restrikeMax) ∧
    (∃ s : State, Ready s ∧ ∃ good, good = (if s.lc.active = .a then s.lc.goodA else s.lc.goodB) ∧ s.lc.imposition ≠
    .off ∧ s.lc.state = .off ∧ good = true ∧ s.lc.restrikeMax < s.lc.h) ∧
    (∃ s : State, Ready s ∧ ∃ good, good = (if s.lc.active = .a then s.lc.goodA else s.lc.goodB) ∧ s.lc.imposition ≠
    .off ∧ s.lc.state = .off ∧ good = false) ∧
    (∃ s : State, Ready s ∧ s.lc.imposition ≠ .off ∧ s.lc.state = .exchange) ∧
    (∃ s : State, Ready s ∧ s.lc.imposition ≠ .off ∧ (s.lc.state = .waitCool ∨ s.lc.state = .striking ∨ s.lc.state =
    .lit)) ∧
    (∃ s : State, Ready s ∧ (s.lc.state = .striking ∨ s.lc.state = .lit ∨ s.lc.state = .waitCool)) ∧
    (∃ s : State, Ready s ∧ s.lc.state = .exchange) ∧
    (∃ s : State, Ready s ∧ (s.lc.state = .off ∨ s.lc.state = .failed)) :=
  ⟨⟨{ State.reset with lc := { Lc.reset with imposition := .off } }, ⟨rfl, rfl⟩, by decide⟩,
   ⟨{ State.reset with lc := { Lc.reset with h := 4561 } }, ⟨rfl, rfl⟩, _, rfl, by decide, by decide, by decide, by
   decide⟩,
   ⟨State.reset, ⟨rfl, rfl⟩, _, rfl, by decide, by decide, by decide, by decide⟩,
   ⟨{ State.reset with lc := { Lc.reset with goodA := false } }, ⟨rfl, rfl⟩, _, rfl, by decide, by decide, by decide⟩,
   ⟨{ State.reset with lc := { Lc.reset with state := .exchange } }, ⟨rfl, rfl⟩, by decide, by decide⟩,
   ⟨{ State.reset with lc := { Lc.reset with state := .waitCool } }, ⟨rfl, rfl⟩, by decide, by decide⟩,
   ⟨{ State.reset with lc := { Lc.reset with state := .waitCool } }, ⟨rfl, rfl⟩, by decide⟩,
   ⟨{ State.reset with lc := { Lc.reset with state := .exchange } }, ⟨rfl, rfl⟩, by decide⟩,
   ⟨State.reset, ⟨rfl, rfl⟩, by decide⟩⟩

/-- What Obligations.LampLevels assumes is met, clause by clause. -/
theorem witness_LampLevels :
    (∃ curve : Byte, ∃ s : State, Ready s ∧ 4 < curve.toNat) ∧
    (∃ curve : Byte, ∃ s : State, Ready s ∧ curve.toNat ≤ 4 ∧ s.lc.state = .lit ∧ s.lc.hold = .none) ∧
    (∃ curve : Byte, ∃ s : State, Ready s ∧ curve.toNat ≤ 4 ∧ (s.lc.state = .lit ∧ s.lc.hold ≠ .none ∨ s.lc.state =
    .striking)) ∧
    (∃ curve : Byte, ∃ s : State, Ready s ∧ curve.toNat ≤ 4 ∧ s.lc.state ≠ .lit ∧ s.lc.state ≠ .striking) ∧
    (∃ s : State, Ready s) ∧
    (∃ s : State, Ready s ∧ s.lc.state ≠ .off ∧ s.lc.state ≠ .failed) ∧
    (∃ lamps : Byte, ∃ s : State, Ready s ∧ ∃ chosen, chosen = (if lamps.getLsbD 2 then Lamp.b else Lamp.a) ∧
    (s.lc.state = .off ∨ s.lc.state = .failed) ∧ chosen = s.lc.active) ∧
    (∃ lamps : Byte, ∃ s : State, Ready s ∧ ∃ chosen, chosen = (if lamps.getLsbD 2 then Lamp.b else Lamp.a) ∧
    (s.lc.state = .off ∨ s.lc.state = .failed) ∧ chosen ≠ s.lc.active) :=
  ⟨⟨208, State.reset, ⟨rfl, rfl⟩, by decide⟩,
   ⟨1, { State.reset with lc := { Lc.reset with state := .lit } }, ⟨rfl, rfl⟩, by decide, by decide, by decide⟩,
   ⟨0, { State.reset with lc := { Lc.reset with state := .striking } }, ⟨rfl, rfl⟩, by decide, by decide⟩,
   ⟨2, State.reset, ⟨rfl, rfl⟩, by decide, by decide, by decide⟩,
   ⟨State.reset, ⟨rfl, rfl⟩⟩,
   ⟨{ State.reset with lc := { Lc.reset with state := .waitCool } }, ⟨rfl, rfl⟩, by decide, by decide⟩,
   ⟨2, State.reset, ⟨rfl, rfl⟩, _, rfl, by decide, by decide⟩,
   ⟨39, State.reset, ⟨rfl, rfl⟩, _, rfl, by decide, by decide⟩⟩

/-- What Obligations.HeatProfile assumes is met, clause by clause. -/
theorem witness_HeatProfile :
    (∃ lg : Byte, ∃ ds : Byte, ∃ oh : Byte, ∃ rm : Byte, ∃ s : State, Ready s ∧ ∃ d, d = 256 * ds.toNat ∧ ∃ o, o = 256
    * oh.toNat ∧ ∃ m, m = 256 * rm.toNat ∧ ¬ (1 ≤ lg.toNat ∧ m < d ∧ d < o ∧ s.fc.coolDone < m)) ∧
    (∃ lg : Byte, ∃ ds : Byte, ∃ oh : Byte, ∃ rm : Byte, ∃ s : State, Ready s ∧ ∃ d, d = 256 * ds.toNat ∧ ∃ o, o = 256
    * oh.toNat ∧ ∃ m, m = 256 * rm.toNat ∧ ∃ hot, hot = (if o ≤ s.lc.h then true else if s.lc.h < d then false else
    s.lc.overheat) ∧ 1 ≤ lg.toNat ∧ m < d ∧ d < o ∧ s.fc.coolDone < m ∧ hot = s.lc.overheat ∧ (s.lc.state ≠ .waitCool
    ∨ m < s.lc.h)) ∧
    (∃ lg : Byte, ∃ ds : Byte, ∃ oh : Byte, ∃ rm : Byte, ∃ s : State, Ready s ∧ ∃ d, d = 256 * ds.toNat ∧ ∃ o, o = 256
    * oh.toNat ∧ ∃ m, m = 256 * rm.toNat ∧ ∃ hot, hot = (if o ≤ s.lc.h then true else if s.lc.h < d then false else
    s.lc.overheat) ∧ 1 ≤ lg.toNat ∧ m < d ∧ d < o ∧ s.fc.coolDone < m ∧ hot = s.lc.overheat ∧ s.lc.state = .waitCool ∧
    s.lc.h ≤ m) :=
  ⟨⟨1, 1, 1, 1, State.reset, ⟨rfl, rfl⟩, _, rfl, _, rfl, _, rfl, by decide⟩,
   ⟨2, 7, 219, 2, { State.reset with fc := { Fc.reset with coolDone := 0 } }, ⟨rfl, rfl⟩, _, rfl, _, rfl, _, rfl, _,
   rfl, by decide, by decide, by decide, by decide, by decide, by decide⟩,
   ⟨1, 3, 7, 1,
   { State.reset with
      lc := { Lc.reset with state := .waitCool, h := 209 },
      fc := { Fc.reset with coolDone := 0  } },
   ⟨rfl, rfl⟩, _, rfl, _, rfl, _, rfl, _, rfl, by decide, by decide, by decide, by decide, by decide, by decide, by
   decide⟩⟩

/-- What Obligations.LampUpdate assumes is met, clause by clause. -/
theorem witness_LampUpdate :
    (∃ s : State, s.notices = [] ∧ s.lc.lampPhase ≠ some 0) ∧
    (∃ s : State, s.notices = [] ∧ s.lc.lampPhase = some 0 ∧ s.lc.fade = none) ∧
    (∃ s : State, s.notices = [] ∧ s.lc.lampPhase = some 0 ∧ ∃ k, s.lc.strike = some k) ∧
    (∃ s : State, s.notices = [] ∧ s.lc.lampPhase = some 0 ∧ ∃ f, s.lc.fade = some f ∧ f.duration ≤ f.elapsed) ∧
    (∃ s : State, s.notices = [] ∧ s.lc.lampPhase = some 0 ∧ ∃ f, s.lc.fade = some f ∧ f.elapsed < f.duration) ∧
    (∃ s : State, s.notices = [] ∧ ∃ f, s.lc.fade = some f ∧ s.lc.lampPhase = some 0 ∧ f.duration ≤ f.elapsed) ∧
    (∃ s : State, s.notices = [] ∧ ∃ f, s.lc.fade = some f ∧ f.elapsed < f.duration) :=
  ⟨⟨State.reset, by decide, by decide⟩,
   ⟨{ State.reset with lc := { Lc.reset with lampPhase := some 0 } }, by decide, by decide, by decide⟩,
   ⟨{ State.reset with
      lc := { Lc.reset with strike := some { target := 181, elapsed := 602, ramp := 423 }, lampPhase := some 0 } },
   by decide, by decide, _, rfl⟩,
   ⟨{ State.reset with
      lc := { Lc.reset with
        fade := some { start := 234, target := 119, curve := 3, duration := 52, elapsed := 1568 },
        lampPhase := some 0 } },
   by decide, by decide, _, rfl, by decide⟩,
   ⟨{ State.reset with
      lc := { Lc.reset with
        fade := some { start := 477, target := 376, curve := 3, duration := 1136, elapsed := 80 },
        lampPhase := some 0 } },
   by decide, by decide, _, rfl, by decide⟩,
   ⟨{ State.reset with
      lc := { Lc.reset with
        fade := some { start := 234, target := 119, curve := 3, duration := 52, elapsed := 1568 },
        lampPhase := some 0 } },
   by decide, _, rfl, by decide, by decide⟩,
   ⟨{ State.reset with
      lc := { Lc.reset with
        fade := some { start := 477, target := 376, curve := 3, duration := 1136, elapsed := 80 } } },
   by decide, _, rfl, by decide⟩⟩

/-- What Obligations.FadeLevel assumes is met, clause by clause. -/
theorem witness_FadeLevel :
    (∃ s : State, s.notices = [] ∧ s.lc.lampPhase = some 0 ∧ ∃ f, s.lc.fade = some f ∧ f.duration ≤ f.elapsed) ∧
    (∃ s : State, s.notices = [] ∧ s.lc.lampPhase = some 0 ∧ ∃ f, s.lc.fade = some f ∧ f.elapsed < f.duration) ∧
    (∃ s : State, s.notices = [] ∧ ∃ f, s.lc.fade = some f ∧ s.lc.lampPhase = some 0 ∧ f.duration ≤ f.elapsed) :=
  ⟨⟨{ State.reset with
      lc := { Lc.reset with
        fade := some { start := 234, target := 119, curve := 3, duration := 52, elapsed := 1568 },
        lampPhase := some 0 } },
   by decide, by decide, _, rfl, by decide⟩,
   ⟨{ State.reset with
      lc := { Lc.reset with
        fade := some { start := 477, target := 376, curve := 3, duration := 1136, elapsed := 80 },
        lampPhase := some 0 } },
   by decide, by decide, _, rfl, by decide⟩,
   ⟨{ State.reset with
      lc := { Lc.reset with
        fade := some { start := 234, target := 119, curve := 3, duration := 52, elapsed := 1568 },
        lampPhase := some 0 } },
   by decide, _, rfl, by decide, by decide⟩⟩

/-- What Obligations.StrikeAndWatch assumes is met, clause by clause. -/
theorem witness_StrikeAndWatch :
    (∃ s : State, s.notices = [] ∧ ∃ k, s.lc.strike = some k ∧ s.lc.state = .striking ∧ k.elapsed < 600) ∧
    (∃ s : State, s.notices = [] ∧ ∃ k, s.lc.strike = some k ∧ s.lc.state = .striking ∧ 600 ≤ k.elapsed ∧ s.lc.lcur =
    true ∧ s.lc.heldRelease = none ∧ s.lc.hold = .none ∧ ∃ f, s.lc.stored = some f) ∧
    (∃ s : State, s.notices = [] ∧ ∃ k, s.lc.strike = some k ∧ s.lc.state = .striking ∧ 600 ≤ k.elapsed ∧ s.lc.lcur =
    true ∧ s.lc.heldRelease = none ∧ s.lc.stored = none ∧ s.lc.capLingers = false) ∧
    (∃ s : State, s.notices = [] ∧ ∃ k, s.lc.strike = some k ∧ s.lc.state = .striking ∧ 600 ≤ k.elapsed ∧ s.lc.lcur =
    false ∧ s.lc.active = .a) ∧
    (∃ s : State, s.notices = [] ∧ ∃ k, s.lc.strike = some k ∧ s.lc.state = .striking ∧ 600 ≤ k.elapsed ∧ s.lc.lcur =
    false ∧ s.lc.active = .b) ∧
    (∃ s : State, s.notices = [] ∧ ∃ k, s.lc.strike = some k ∧ s.lc.state = .striking ∧ 600 ≤ k.elapsed ∧ s.lc.lcur =
    false ∧ ∃ spare, spare = (if s.lc.active = .a then s.lc.goodB else s.lc.goodA) ∧ spare = true) ∧
    (∃ s : State, s.notices = [] ∧ ∃ k, s.lc.strike = some k ∧ s.lc.state = .striking ∧ 600 ≤ k.elapsed ∧ s.lc.lcur =
    false ∧ ∃ spare, spare = (if s.lc.active = .a then s.lc.goodB else s.lc.goodA) ∧ spare = false) ∧
    (∃ s : State, s.notices = []) ∧
    (∃ s : State, s.notices = [] ∧ s.lc.failureWatch ≠ some 0) ∧
    (∃ s : State, s.notices = [] ∧ s.lc.failureWatch = some 0 ∧ s.lc.active = .a) ∧
    (∃ s : State, s.notices = [] ∧ s.lc.failureWatch = some 0 ∧ s.lc.active = .b) :=
  ⟨⟨{ State.reset with
      lc := { Lc.reset with state := .striking, strike := some { target := 862, elapsed := 598, ramp := 94 } } },
   by decide, _, rfl, by decide, by decide⟩,
   ⟨{ State.reset with
      lc := { Lc.reset with
        lcur := true, state := .striking, stored := some { target := 113, curve := 0, duration := 1474 },
        strike := some { target := 418, elapsed := 600, ramp := 220 } } },
   by decide, _, rfl, by decide, by decide, by decide, by decide, by decide, _, rfl⟩,
   ⟨{ State.reset with
      lc := { Lc.reset with
        lcur := true, state := .striking, strike := some { target := 834, elapsed := 601, ramp := 823 } } },
   by decide, _, rfl, by decide, by decide, by decide, by decide, by decide, by decide⟩,
   ⟨{ State.reset with
      lc := { Lc.reset with state := .striking, strike := some { target := 181, elapsed := 602, ramp := 423 } } },
   by decide, _, rfl, by decide, by decide, by decide, by decide⟩,
   ⟨{ State.reset with
      lc := { Lc.reset with
        state := .striking, active := .b, strike := some { target := 100, elapsed := 600, ramp := 194 } } },
   by decide, _, rfl, by decide, by decide, by decide, by decide⟩,
   ⟨{ State.reset with
      lc := { Lc.reset with state := .striking, strike := some { target := 605, elapsed := 600, ramp := 411 } } },
   by decide, _, rfl, by decide, by decide, by decide, _, rfl, by decide⟩,
   ⟨{ State.reset with
      lc := { Lc.reset with
        state := .striking, goodB := false, strike := some { target := 181, elapsed := 602, ramp := 423 } } },
   by decide, _, rfl, by decide, by decide, by decide, _, rfl, by decide⟩,
   ⟨State.reset, by decide⟩,
   ⟨State.reset, by decide, by decide⟩,
   ⟨{ State.reset with lc := { Lc.reset with failureWatch := some 0 } }, by decide, by decide, by decide⟩,
   ⟨{ State.reset with lc := { Lc.reset with active := .b, failureWatch := some 0 } }, by decide, by decide, by
   decide⟩⟩

/-- What Obligations.ExchangeEnds assumes is met, clause by clause. -/
theorem witness_ExchangeEnds :
    (∃ s : State, s.notices = [] ∧ ¬ (s.lc.state = .exchange ∧ s.lc.moveTimer = some 0)) ∧
    (∃ s : State, s.notices = [] ∧ s.lc.state = .exchange ∧ s.lc.moveTimer = some 0 ∧ s.lc.goodA = false ∧ s.lc.goodB
    = false) ∧
    (∃ s : State, s.notices = [] ∧ s.lc.state = .exchange ∧ s.lc.moveTimer = some 0 ∧ (s.lc.goodA = true ∨ s.lc.goodB
    = true) ∧ s.lc.restrike = true ∧ s.lc.h ≤ s.lc.restrikeMax) ∧
    (∃ s : State, s.notices = [] ∧ s.lc.state = .exchange ∧ s.lc.moveTimer = some 0 ∧ (s.lc.goodA = true ∨ s.lc.goodB
    = true) ∧ s.lc.restrike = true ∧ s.lc.restrikeMax < s.lc.h) ∧
    (∃ s : State, s.notices = [] ∧ s.lc.state = .exchange ∧ s.lc.moveTimer = some 0 ∧ (s.lc.goodA = true ∨ s.lc.goodB
    = true) ∧ s.lc.restrike = false) :=
  ⟨⟨State.reset, by decide, by decide⟩,
   ⟨{ State.reset with
      lc := { Lc.reset with state := .exchange, goodA := false, goodB := false, moveTimer := some 0 } },
   by decide, by decide, by decide, by decide, by decide⟩,
   ⟨{ State.reset with
      lc := { Lc.reset with state := .exchange, restrike := true, moveTimer := some 0, h := 7016 } },
   by decide, by decide, by decide, by decide, by decide, by decide⟩,
   ⟨{ State.reset with lc := { Lc.reset with state := .exchange, restrike := true, moveTimer := some 0 } }, by decide,
   by decide, by decide, by decide, by decide, by decide⟩,
   ⟨{ State.reset with lc := { Lc.reset with state := .exchange, moveTimer := some 0 } }, by decide, by decide, by
   decide, by decide, by decide⟩⟩

/-- What Obligations.HeatUpdate assumes is met, clause by clause. -/
theorem witness_HeatUpdate :
    (∃ s : State, s.notices = [] ∧ s.lc.heatPhase ≠ some 0) ∧
    (∃ s : State, s.notices = [] ∧ s.lc.heatPhase = some 0 ∧ ∃ h, h = min 65535 (s.lc.h + s.lc.output * s.lc.lampGain
    / 64 - s.lc.h * (64 + s.fc.speed * s.lc.fanGain) / 65536) ∧ ∃ hot, hot = (if s.lc.overheatLevel ≤ h then true else
    if h < s.lc.derateStart then false else s.lc.overheat) ∧ hot ≠ s.lc.overheat) ∧
    (∃ s : State, s.notices = [] ∧ s.lc.heatPhase = some 0 ∧ ∃ h, h = min 65535 (s.lc.h + s.lc.output * s.lc.lampGain
    / 64 - s.lc.h * (64 + s.fc.speed * s.lc.fanGain) / 65536) ∧ ∃ hot, hot = (if s.lc.overheatLevel ≤ h then true else
    if h < s.lc.derateStart then false else s.lc.overheat) ∧ hot = true ∧ s.lc.overheat = false ∧ s.cu.overheat =
    false ∧ s.cu.enabled .overheat = true) ∧
    (∃ s : State, s.notices = [] ∧ s.lc.heatPhase = some 0 ∧ ∃ h, h = min 65535 (s.lc.h + s.lc.output * s.lc.lampGain
    / 64 - s.lc.h * (64 + s.fc.speed * s.lc.fanGain) / 65536) ∧ ∃ hot, hot = (if s.lc.overheatLevel ≤ h then true else
    if h < s.lc.derateStart then false else s.lc.overheat) ∧ hot = s.lc.overheat ∧ (s.lc.state ≠ .waitCool ∨
    s.lc.restrikeMax < h)) ∧
    (∃ s : State, s.notices = [] ∧ s.lc.heatPhase = some 0 ∧ ∃ h, h = min 65535 (s.lc.h + s.lc.output * s.lc.lampGain
    / 64 - s.lc.h * (64 + s.fc.speed * s.lc.fanGain) / 65536) ∧ ∃ hot, hot = (if s.lc.overheatLevel ≤ h then true else
    if h < s.lc.derateStart then false else s.lc.overheat) ∧ hot = s.lc.overheat ∧ s.lc.state = .waitCool ∧ h ≤
    s.lc.restrikeMax) :=
  ⟨⟨State.reset, by decide, by decide⟩,
   ⟨{ State.reset with lc := { Lc.reset with h := 46889, heatPhase := some 0 } }, by decide, by decide, _, rfl, _,
   rfl, by decide⟩,
   ⟨{ State.reset with lc := { Lc.reset with h := 46889, heatPhase := some 0 } }, by decide, by decide, _, rfl, _,
   rfl, by decide, by decide, by decide, by decide⟩,
   ⟨{ State.reset with lc := { Lc.reset with heatPhase := some 0 } }, by decide, by decide, _, rfl, _, rfl, by decide,
   by decide⟩,
   ⟨{ State.reset with lc := { Lc.reset with state := .waitCool, h := 7146, heatPhase := some 0 } }, by decide, by
   decide, _, rfl, _, rfl, by decide, by decide, by decide⟩⟩

/-- What Obligations.FanProfile assumes is met, clause by clause. -/
theorem witness_FanProfile :
    (∃ coolDone : Byte, ∃ s : State, Ready s ∧ ∃ cd, cd = 256 * coolDone.toNat ∧ s.lc.restrikeMax ≤ cd) ∧
    (∃ minimum : Byte, ∃ coolDone : Byte, ∃ s : State, Ready s ∧ ∃ cd, cd = 256 * coolDone.toNat ∧ ∃ active, active =
    decide (s.lc.state = .striking ∨ s.lc.state = .lit ∨ s.lc.state = .exchange) ∧ ∃ demand, demand = (if s.fc.full
    then 255 else if active = true ∨ cd < s.lc.h then minimum.toNat + (255 - minimum.toNat) * min s.lc.h
    s.lc.derateStart / s.lc.derateStart else 0) ∧ cd < s.lc.restrikeMax ∧ s.fc.demand = 0 ∧ demand ≠ 0) ∧
    (∃ minimum : Byte, ∃ coolDone : Byte, ∃ s : State, Ready s ∧ ∃ cd, cd = 256 * coolDone.toNat ∧ ∃ active, active =
    decide (s.lc.state = .striking ∨ s.lc.state = .lit ∨ s.lc.state = .exchange) ∧ ∃ demand, demand = (if s.fc.full
    then 255 else if active = true ∨ cd < s.lc.h then minimum.toNat + (255 - minimum.toNat) * min s.lc.h
    s.lc.derateStart / s.lc.derateStart else 0) ∧ cd < s.lc.restrikeMax ∧ s.fc.demand ≠ 0 ∧ demand = 0) ∧
    (∃ minimum : Byte, ∃ coolDone : Byte, ∃ s : State, Ready s ∧ ∃ cd, cd = 256 * coolDone.toNat ∧ ∃ active, active =
    decide (s.lc.state = .striking ∨ s.lc.state = .lit ∨ s.lc.state = .exchange) ∧ ∃ demand, demand = (if s.fc.full
    then 255 else if active = true ∨ cd < s.lc.h then minimum.toNat + (255 - minimum.toNat) * min s.lc.h
    s.lc.derateStart / s.lc.derateStart else 0) ∧ cd < s.lc.restrikeMax ∧ (s.fc.demand = 0 ↔ demand = 0)) :=
  ⟨⟨208, State.reset, ⟨rfl, rfl⟩, _, rfl, by decide⟩,
   ⟨1, 1, { State.reset with fc := { Fc.reset with demand := 0 } }, ⟨rfl, rfl⟩, _, rfl, _, rfl, _, rfl, by decide, by
   decide, by decide⟩,
   ⟨3, 3, { State.reset with lc := { Lc.reset with h := 422 } }, ⟨rfl, rfl⟩, _, rfl, _, rfl, _, rfl, by decide, by
   decide, by decide⟩,
   ⟨2, 2, State.reset, ⟨rfl, rfl⟩, _, rfl, _, rfl, _, rfl, by decide, by decide⟩⟩

/-- What Obligations.FanMeasured assumes is met, clause by clause. -/
theorem witness_FanMeasured :
    (∃ s : State, s.notices = [] ∧ s.fc.windowPhase ≠ some 0) ∧
    (∃ s : State, s.notices = [] ∧ s.fc.windowPhase = some 0 ∧ s.fc.state = .stopped) ∧
    (∃ s : State, s.notices = [] ∧ s.fc.windowPhase = some 0 ∧ s.fc.state = .spinup) ∧
    (∃ s : State, s.notices = [] ∧ s.fc.windowPhase = some 0 ∧ ∃ speed, speed = min 255 (4 * s.fc.pulses) ∧ ∃ stall,
    stall = decide (64 ≤ s.fc.demand ∧ 4 * speed < s.fc.demand) ∧ (s.fc.state = .running ∨ s.fc.state = .cooldown) ∧
    stall = false) ∧
    (∃ s : State, s.notices = [] ∧ s.fc.windowPhase = some 0 ∧ ∃ speed, speed = min 255 (4 * s.fc.pulses) ∧ ∃ stall,
    stall = decide (64 ≤ s.fc.demand ∧ 4 * speed < s.fc.demand) ∧ (s.fc.state = .running ∨ s.fc.state = .cooldown) ∧
    stall = true ∧ s.fc.stallWindows < 2) ∧
    (∃ s : State, s.notices = [] ∧ s.fc.windowPhase = some 0 ∧ ∃ speed, speed = min 255 (4 * s.fc.pulses) ∧ ∃ stall,
    stall = decide (64 ≤ s.fc.demand ∧ 4 * speed < s.fc.demand) ∧ (s.fc.state = .running ∨ s.fc.state = .cooldown) ∧
    stall = true ∧ 2 ≤ s.fc.stallWindows ∧ s.cu.enabled .fanStall = true) ∧
    (∃ s : State, s.notices = [] ∧ s.fc.windowPhase = some 0 ∧ ∃ speed, speed = min 255 (4 * s.fc.pulses) ∧ ∃ stall,
    stall = decide (64 ≤ s.fc.demand ∧ 4 * speed < s.fc.demand) ∧ (s.fc.state = .running ∨ s.fc.state = .cooldown) ∧
    stall = true ∧ 2 ≤ s.fc.stallWindows ∧ s.cu.enabled .fanStall = false) ∧
    (∃ s : State, s.notices = [] ∧ s.fc.windowPhase = some 0 ∧ s.fc.state = .stalled) :=
  ⟨⟨State.reset, by decide, by decide⟩,
   ⟨{ State.reset with fc := { Fc.reset with state := .stopped, windowPhase := some 0 } }, by decide, by decide, by
   decide⟩,
   ⟨{ State.reset with fc := { Fc.reset with windowPhase := some 0 } }, by decide, by decide, by decide⟩,
   ⟨{ State.reset with fc := { Fc.reset with state := .cooldown, pulses := 32, windowPhase := some 0 } }, by decide,
   by decide, _, rfl, _, rfl, by decide, by decide⟩,
   ⟨{ State.reset with fc := { Fc.reset with state := .cooldown, windowPhase := some 0 } }, by decide, by decide, _,
   rfl, _, rfl, by decide, by decide, by decide⟩,
   ⟨{ State.reset with fc := { Fc.reset with state := .cooldown, stallWindows := 2, windowPhase := some 0 } }, by
   decide, by decide, _, rfl, _, rfl, by decide, by decide, by decide, by decide⟩,
   ⟨{ State.reset with
      fc := { Fc.reset with state := .running, stallWindows := 3, windowPhase := some 0 },
      cu := { Cu.reset with enables := 9 } },
   by decide, by decide, _, rfl, _, rfl, by decide, by decide, by decide, by decide⟩,
   ⟨{ State.reset with fc := { Fc.reset with state := .stalled, windowPhase := some 0 } }, by decide, by decide, by
   decide⟩⟩

/-- What Obligations.CutoffSettings assumes is met, clause by clause. -/
theorem witness_CutoffSettings :
    (∃ s : State, Ready s ∧ s.cu.flag = true) ∧
    (∃ b0 : Byte, ∃ b1 : Byte, ∃ s : State, Ready s ∧ ∃ lamp, lamp = b0.toNat % 4 ∧ ∃ tray, tray = b0.toNat / 4 ∧
    s.cu.flag = false ∧ (lamp = 3 ∨ 3 ≤ tray ∨ 8 ≤ b1.toNat)) ∧
    (∃ b0 : Byte, ∃ b1 : Byte, ∃ s : State, Ready s ∧ ∃ lamp, lamp = b0.toNat % 4 ∧ ∃ tray, tray = b0.toNat / 4 ∧
    s.cu.flag = false ∧ lamp < 3 ∧ tray < 3 ∧ b1.toNat < 8) ∧
    (∃ s : State, Ready s ∧ ∃ c : Cause, s.cu.inSet c = true) ∧
    (∃ causes : Byte, ∃ s : State, Ready s ∧ ∃ after : Cu, after = { s.cu with enables := causes } ∧ ∃ c : Cause,
    s.cu.enabled c = false ∧ after.enabled c = true ∧ s.cu.present c = true) ∧
    (∃ causes : Byte, ∃ s : State, Ready s ∧ ∃ after : Cu, after = { s.cu with enables := causes } ∧ (∀ c,
    s.cu.enabled c = true ∨ after.enabled c = false ∨ s.cu.present c = false ∨ s.cu.inSet c = true)) :=
  ⟨⟨{ State.reset with cu := { Cu.reset with flag := true } }, ⟨rfl, rfl⟩, by decide⟩,
   ⟨2, 208, State.reset, ⟨rfl, rfl⟩, _, rfl, _, rfl, by decide, by decide⟩,
   ⟨2, 2, State.reset, ⟨rfl, rfl⟩, _, rfl, _, rfl, by decide, by decide, by decide, by decide⟩,
   ⟨{ State.reset with cu := { Cu.reset with causes := 135 } }, ⟨rfl, rfl⟩, .overheat, by decide⟩,
   ⟨1, { State.reset with cu := { Cu.reset with enables := 136, overheat := true } }, ⟨rfl, rfl⟩, _, rfl, .overheat,
   by decide, by decide, by decide⟩,
   ⟨2, State.reset, ⟨rfl, rfl⟩, _, rfl, by intro c; cases c <;> decide⟩⟩

/-- All four level causes present and none enabled, with the flag clear, or set with the lamp left OFF. -/
def causesPresent (flag : Bool) : State :=
  { State.reset with cu := { Cu.reset with
      enables := 0, overheat := true, thermostat := true, interlock := true, trayLost := true, flag := flag
      causes := if flag then 0x40 else 0, lampHanded := if flag then .off else .none } }

/-- Newly enabled causes that are present, for Obligations.CutoffSettings: four that enter, and four that are added. -/
theorem witness_CutoffSettings_woken (flag : Bool) : ∃ causes : Byte, ∃ s : State, Ready s ∧ s.cu.flag = flag ∧
    [Cause.overheat, .thermostat, .interlock, .trayLost].filter (fun c => !s.cu.enabled c &&
      Cu.enabled { s.cu with enables := causes } c && s.cu.present c && !s.cu.inSet c) =
      [.overheat, .thermostat, .interlock, .trayLost] ∧
    (flag = true → s.cu.lampHanded = s.cu.lampImposition ∧ s.cu.lampImposition = .off) :=
  ⟨0x7F, causesPresent flag, ⟨rfl, rfl⟩, rfl, by cases flag <;> decide, by cases flag <;> decide⟩

/-- What Obligations.CutoffForce assumes is met, clause by clause. -/
theorem witness_CutoffForce :
    (∃ s : State, Ready s ∧ Cutoff s.cu ∧ s.cu.enabled .forced = false) ∧
    (∃ s : State, Ready s ∧ Cutoff s.cu ∧ s.cu.enabled .forced = true ∧ s.cu.flag = true ∧ s.cu.inSet .forced = true) ∧
    (∃ s : State, Ready s ∧ Cutoff s.cu ∧ s.cu.enabled .forced = true ∧ s.cu.flag = true ∧ s.cu.inSet .forced = false) ∧
    (∃ s : State, Ready s ∧ Cutoff s.cu ∧ s.cu.enabled .forced = true ∧ s.cu.flag = false ∧ s.lc.imposition = .none) ∧
    (∃ s : State, Ready s ∧ Cutoff s.cu ∧ s.cu.enabled .forced = true ∧ s.cu.flag = false ∧ s.cu.traySel ≠ .ignore) ∧
    (∃ s : State, Ready s ∧ Cutoff s.cu ∧ s.cu.enabled .forced = true ∧ s.cu.flag = false ∧ s.cu.tapeIgnore = false) ∧
    (∃ s : State, Ready s ∧ Cutoff s.cu ∧ s.cu.enabled .forced = true ∧ s.cu.flag = false ∧ s.cu.audioIgnore = false) ∧
    (∃ s : State, Ready s ∧ Cutoff s.cu ∧ s.cu.enabled .forced = true ∧ s.cu.flag = false ∧ s.cu.fanIgnore = false) ∧
    (∃ s : State, Ready s ∧ Cutoff s.cu ∧ s.cu.enabled .forced = true ∧ s.cu.flag = false ∧ s.ce.active = true) :=
  ⟨⟨{ State.reset with cu := { Cu.reset with enables := 38 } }, ⟨rfl, rfl⟩, ⟨by decide, by intro c; cases c <;>
   decide, by decide⟩, by decide⟩,
   ⟨{ State.reset with cu := { Cu.reset with flag := true, causes := 253, lampHanded := .off } }, ⟨rfl, rfl⟩, ⟨by
   decide, by intro c; cases c <;> decide, by decide⟩, by decide, by decide, by decide⟩,
   ⟨{ State.reset with cu := { Cu.reset with flag := true, causes := 8, lampHanded := .off } }, ⟨rfl, rfl⟩, ⟨by
   decide, by intro c; cases c <;> decide, by decide⟩, by decide, by decide, by decide⟩,
   ⟨State.reset, ⟨rfl, rfl⟩, ⟨by decide, by intro c; cases c <;> decide, by decide⟩, by decide, by decide, by decide⟩,
   ⟨State.reset, ⟨rfl, rfl⟩, ⟨by decide, by intro c; cases c <;> decide, by decide⟩, by decide, by decide, by decide⟩,
   ⟨State.reset, ⟨rfl, rfl⟩, ⟨by decide, by intro c; cases c <;> decide, by decide⟩, by decide, by decide, by decide⟩,
   ⟨State.reset, ⟨rfl, rfl⟩, ⟨by decide, by intro c; cases c <;> decide, by decide⟩, by decide, by decide, by decide⟩,
   ⟨State.reset, ⟨rfl, rfl⟩, ⟨by decide, by intro c; cases c <;> decide, by decide⟩, by decide, by decide, by decide⟩,
   ⟨{ State.reset with ce := { Ce.reset with showState := .running } }, ⟨rfl, rfl⟩, ⟨by decide, by intro c; cases c
   <;> decide, by decide⟩, by decide, by decide, by decide⟩⟩

/-- What Obligations.CutoffClear assumes is met, clause by clause. -/
theorem witness_CutoffClear :
    (∃ s : State, Ready s ∧ s.cu.flag = false) ∧
    (∃ s : State, Ready s ∧ ∃ held, held = (fun c => s.cu.inSet c && s.cu.present c) ∧ s.cu.flag = true ∧ (∃ c, held c
    = true)) ∧
    (∃ s : State, Ready s ∧ ∃ held, held = (fun c => s.cu.inSet c && s.cu.present c) ∧ s.cu.flag = true ∧ (∀ c, held c
    = false) ∧ s.lc.imposition = s.cu.lampHanded) ∧
    (∃ s : State, Ready s ∧ ∃ held, held = (fun c => s.cu.inSet c && s.cu.present c) ∧ s.cu.flag = true ∧ (∀ c, held c
    = false) ∧ s.cu.tapeIgnore = false) ∧
    (∃ s : State, Ready s ∧ ∃ held, held = (fun c => s.cu.inSet c && s.cu.present c) ∧ s.cu.flag = true ∧ (∀ c, held c
    = false) ∧ s.cu.audioIgnore = false) ∧
    (∃ s : State, Ready s ∧ ∃ held, held = (fun c => s.cu.inSet c && s.cu.present c) ∧ s.cu.flag = true ∧ (∀ c, held c
    = false) ∧ s.cu.fanIgnore = false) :=
  ⟨⟨State.reset, ⟨rfl, rfl⟩, by decide⟩,
   ⟨{ State.reset with cu := { Cu.reset with flag := true, causes := 8, trayLost := true } }, ⟨rfl, rfl⟩, _, rfl, by
   decide, ⟨.trayLost, by decide⟩⟩,
   ⟨{ State.reset with cu := { Cu.reset with flag := true } }, ⟨rfl, rfl⟩, _, rfl, by decide, by intro c; cases c <;>
   decide, by decide⟩,
   ⟨{ State.reset with cu := { Cu.reset with flag := true } }, ⟨rfl, rfl⟩, _, rfl, by decide, by intro c; cases c <;>
   decide, by decide⟩,
   ⟨{ State.reset with cu := { Cu.reset with flag := true } }, ⟨rfl, rfl⟩, _, rfl, by decide, by intro c; cases c <;>
   decide, by decide⟩,
   ⟨{ State.reset with cu := { Cu.reset with flag := true } }, ⟨rfl, rfl⟩, _, rfl, by decide, by intro c; cases c <;>
   decide, by decide⟩⟩

/-- A cutoff with every selection at its reset but the lamp's, whose one cause is gone. -/
def gone (lamp : LampSelection) : Cu :=
  { Cu.reset with
    flag := true, causes := 0x40, lampSel := lamp, lampHanded := if lamp = .holdBlackout then .cap else .off }

theorem gone_holds_none (lamp : LampSelection) (c : Cause) :
    ((gone lamp).inSet c && (gone lamp).present c) = false := by
  cases lamp <;> cases c <;> decide

/-- That cutoff around this mechanism and lamp, with the sound muted on its way. -/
def clearable (tmc : Tmc) (lc : Lc) (lamp : LampSelection) : State :=
  { State.reset with
    tmc := tmc, lc := lc, cu := gone lamp, ttc := { Ttc.reset with level := 200, setLevel := 900, muteImposed := true } }

/-- The mechanism, the sound and the lamp of Obligations.CutoffClear are met: JAMMED with and without a tray, a muted
sound away from its set level, and a capped lamp that is lit. -/
theorem witness_CutoffClear_outputs (n : Nat) : ∃ s : State, Ready s ∧ s.cu.flag = true ∧
    (∀ c, (s.cu.inSet c && s.cu.present c) = false) ∧ s.tmc.state = .jammed ∧ s.tmc.n = n ∧ s.ce.active = false ∧
    (∀ source, s.ca.slots.get source = none) ∧ s.cu.audioIgnore = false ∧ s.ttc.muteImposed = true ∧
    s.ttc.level ≠ s.ttc.setLevel ∧ s.lc.imposition = .cap ∧ s.cu.lampHanded = .cap ∧ s.lc.hold = .none ∧
    s.lc.state = .lit :=
  ⟨clearable { Tmc.reset with state := .jammed, n := n, motor := .braked }
     { Lc.reset with state := .lit, imposition := .cap, showLevel := 700 } .holdBlackout,
   ⟨rfl, rfl⟩, rfl, gone_holds_none _, rfl, rfl, rfl,
   by intro source; cases source <;> rfl, rfl, rfl, show (200 : Nat) ≠ 900 by decide, rfl, rfl, rfl, rfl⟩

/-- A JAMMED mechanism with a tray and changes pending, one of them masked, meets Obligations.CutoffClear. -/
theorem witness_CutoffClear_pending : ∃ s : State, Ready s ∧ s.cu.flag = true ∧
    (∀ c, (s.cu.inSet c && s.cu.present c) = false) ∧ s.tmc.state = .jammed ∧ s.tmc.n ≠ 0 ∧ s.ce.active = false ∧
    s.ca.slots.directive ≠ none ∧ s.ca.slots.remote ≠ none ∧
    (∀ source q, s.ca.slots.get source = some q → s.ca.masks.get source = true ∨ changesSlide q.kind = true) :=
  ⟨{ clearable { Tmc.reset with state := .jammed, tcode := 1, n := 80 } Lc.reset .off with
      ca := { Ca.reset with
        slots := { Ca.reset.slots with directive := some ⟨.changeTo 3, 0⟩, remote := some ⟨.home, 1⟩ }
        masks := { Ca.reset.masks with remote := true } } },
   ⟨rfl, rfl⟩, rfl, gone_holds_none _, rfl, show (80 : Nat) ≠ 0 by decide, rfl, nofun, nofun,
   by rintro (_ | _ | _ | _ | _) q h <;> cases h <;> first | exact .inl rfl | exact .inr rfl⟩

/-- What Obligations.InputsFiltered assumes is met, clause by clause. -/
theorem witness_InputsFiltered :
    (∃ s : State, s.notices = []) ∧
    (∃ s : State, s.notices = [] ∧ s.cu.thswTimer ≠ some 0) ∧
    (∃ s : State, s.notices = [] ∧ s.cu.thswTimer = some 0 ∧ (s.cu.thswRaw = false ∨ s.cu.thermostat = true ∨
    s.cu.enabled .thermostat = false)) ∧
    (∃ s : State, s.notices = [] ∧ s.cu.thswTimer = some 0 ∧ s.cu.thswRaw = true ∧ s.cu.thermostat = false ∧
    s.cu.enabled .thermostat = true) ∧
    (∃ s : State, s.notices = [] ∧ s.cu.ilockTimer ≠ some 0) ∧
    (∃ s : State, s.notices = [] ∧ s.cu.ilockTimer = some 0 ∧ (s.cu.ilockRaw = false ∨ s.cu.interlock = true ∨
    s.cu.enabled .interlock = false)) ∧
    (∃ s : State, s.notices = [] ∧ s.cu.ilockTimer = some 0 ∧ s.cu.ilockRaw = true ∧ s.cu.interlock = false ∧
    s.cu.enabled .interlock = true) :=
  ⟨⟨State.reset, by decide⟩,
   ⟨State.reset, by decide, by decide⟩,
   ⟨{ State.reset with cu := { Cu.reset with thswTimer := some 0 } }, by decide, by decide, by decide⟩,
   ⟨{ State.reset with cu := { Cu.reset with thswRaw := true, thswTimer := some 0 } }, by decide, by decide, by
   decide, by decide, by decide⟩,
   ⟨State.reset, by decide, by decide⟩,
   ⟨{ State.reset with cu := { Cu.reset with ilockTimer := some 0 } }, by decide, by decide, by decide⟩,
   ⟨{ State.reset with cu := { Cu.reset with ilockRaw := true, ilockTimer := some 0 } }, by decide, by decide, by
   decide, by decide, by decide⟩⟩

/-- What Obligations.TapeRequests assumes is met, clause by clause. -/
theorem witness_TapeRequests :
    (∃ c : Instr, ∃ s : State, Ready s ∧ ∃ row, tapeRequestOf c = some row ∧ s.ttc.stopImposed = true) ∧
    (∃ c : Instr, ∃ s : State, Ready s ∧ ∃ row, tapeRequestOf c = some row ∧ s.ttc.stopImposed = false ∧ s.ttc.state =
    .stopped) ∧
    (∃ c : Instr, ∃ s : State, Ready s ∧ ∃ row, tapeRequestOf c = some row ∧ s.ttc.stopImposed = false ∧ s.ttc.state =
    .braking) ∧
    (∃ c : Instr, ∃ s : State, Ready s ∧ ∃ row, tapeRequestOf c = some row ∧ s.ttc.stopImposed = false ∧ inProgress
    s.ttc.state row.2) ∧
    (∃ c : Instr, ∃ s : State, Ready s ∧ ∃ row, tapeRequestOf c = some row ∧ s.ttc.stopImposed = false ∧
    s.ttc.state.moving = true ∧ ¬ inProgress s.ttc.state row.2 ∧ ¬ (s.ttc.state = .locating ∧ row.1 = 0x43)) ∧
    (∃ s : State, Ready s ∧ ∃ direction : Byte, 2 ≤ direction.toNat) ∧
    (∃ s : State, Ready s ∧ ∃ lo : Byte, ∃ hi : Byte, ∃ g : Half, g = hi ++ lo ∧ s.ttc.stopImposed = false ∧
    s.ttc.state = .locating ∧ g = s.ttc.counter) ∧
    (∃ s : State, Ready s ∧ ∃ lo : Byte, ∃ hi : Byte, ∃ g : Half, g = hi ++ lo ∧ s.ttc.stopImposed = false ∧
    s.ttc.state = .locating ∧ s.ttc.counter.toNat < g.toNat ∧ (s.ttc.direction = .forward ∨ s.ttc.direction =
    .reverse)) ∧
    (∃ s : State, Ready s ∧ ∃ lo : Byte, ∃ hi : Byte, ∃ g : Half, g = hi ++ lo ∧ s.ttc.stopImposed = false ∧
    s.ttc.state = .locating ∧ g.toNat < s.ttc.counter.toNat ∧ (s.ttc.direction = .forward ∨ s.ttc.direction =
    .reverse)) :=
  ⟨⟨.tapePlay, { State.reset with ttc := { Ttc.reset with stopImposed := true } }, ⟨rfl, rfl⟩, _, rfl, by decide⟩,
   ⟨.tapePlay, State.reset, ⟨rfl, rfl⟩, _, rfl, by decide, by decide⟩,
   ⟨.tapePlay, { State.reset with ttc := { Ttc.reset with state := .braking } }, ⟨rfl, rfl⟩, _, rfl, by decide, by
   decide⟩,
   ⟨.tapePlay, { State.reset with ttc := { Ttc.reset with state := .playing } }, ⟨rfl, rfl⟩, _, rfl, by decide,
   trivial⟩,
   ⟨.tapeRecord, { State.reset with ttc := { Ttc.reset with state := .playing } }, ⟨rfl, rfl⟩, _, rfl, by decide, by
   decide, nofun, by decide⟩,
   ⟨State.reset, ⟨rfl, rfl⟩, 2, by decide⟩,
   ⟨{ State.reset with ttc := { Ttc.reset with state := .locating } }, ⟨rfl, rfl⟩, 0, 0, _, rfl, by decide, by decide,
   by decide⟩,
   ⟨{ State.reset with ttc := { Ttc.reset with state := .locating, direction := .reverse } }, ⟨rfl, rfl⟩, 3, 3, _,
   rfl, by decide, by decide, by decide, by decide⟩,
   ⟨{ State.reset with ttc := { Ttc.reset with state := .locating, direction := .reverse, counter := 4 } }, ⟨rfl,
   rfl⟩, 3, 0, _, rfl, by decide, by decide, by decide, by decide⟩⟩

/-- What Obligations.TapeStopAndZero assumes is met, clause by clause. -/
theorem witness_TapeStopAndZero :
    (∃ s : State, Ready s ∧ s.ttc.state = .stopped) ∧
    (∃ s : State, Ready s ∧ s.ttc.state = .braking) ∧
    (∃ s : State, Ready s ∧ s.ttc.state.moving = true) ∧
    (∃ s : State, Ready s ∧ s.ttc.state ≠ .locating) ∧
    (∃ s : State, Ready s ∧ ∃ g, s.ttc.locateTarget = some g ∧ s.ttc.state = .locating ∧ (s.ttc.direction = .reverse ∨
    g = 0)) ∧
    (∃ s : State, Ready s ∧ ∃ g, s.ttc.locateTarget = some g ∧ s.ttc.state = .locating ∧ s.ttc.direction ≠ .reverse ∧
    g ≠ 0) :=
  ⟨⟨State.reset, ⟨rfl, rfl⟩, by decide⟩,
   ⟨{ State.reset with ttc := { Ttc.reset with state := .braking } }, ⟨rfl, rfl⟩, by decide⟩,
   ⟨{ State.reset with ttc := { Ttc.reset with state := .playing } }, ⟨rfl, rfl⟩, by decide⟩,
   ⟨State.reset, ⟨rfl, rfl⟩, by decide⟩,
   ⟨{ State.reset with
      ttc := { Ttc.reset with state := .locating, direction := .reverse, locateTarget := some 1 } },
   ⟨rfl, rfl⟩, _, rfl, by decide, by decide⟩,
   ⟨{ State.reset with ttc := { Ttc.reset with state := .locating, locateTarget := some 2 } }, ⟨rfl, rfl⟩, _, rfl, by
   decide, by decide, by decide⟩⟩

/-- What Obligations.SoundAndWriter assumes is met, clause by clause. -/
theorem witness_SoundAndWriter :
    (∃ a : Byte, ∃ s : State, Ready s ∧ 4 ≤ a.toNat) ∧
    (∃ a : Byte, ∃ s : State, Ready s ∧ a.toNat < 4 ∧ s.ttc.state ≠ .recording) ∧
    (∃ a : Byte, ∃ s : State, Ready s ∧ a.toNat < 4 ∧ s.ttc.state = .recording ∧ s.ttc.writer ≠ .idle) ∧
    (∃ a : Byte, ∃ s : State, Ready s ∧ ∃ cls, cueClass? a.toNat = some cls ∧ s.ttc.state = .recording ∧ s.ttc.writer
    = .idle) ∧
    (∃ a : Byte, ∃ b : Byte, ∃ s : State, Ready s ∧ (3 ≤ a.toNat ∨ 4 ≤ b.toNat ∧ b.toNat ≤ 254)) ∧
    (∃ a : Byte, ∃ b : Byte, ∃ s : State, Ready s ∧ a.toNat < 3 ∧ (b.toNat < 4 ∨ b = 0xFF)) ∧
    (∃ s : State, Ready s ∧ s.ttc.muteImposed = true) ∧
    (∃ a : Byte, ∃ b : Byte, ∃ s : State, Ready s ∧ s.ttc.muteImposed = false ∧ (s.ttc.level = a.toNat ∨ b = 0)) ∧
    (∃ a : Byte, ∃ b : Byte, ∃ s : State, Ready s ∧ s.ttc.muteImposed = false ∧ s.ttc.level ≠ a.toNat ∧ b ≠ 0) ∧
    (∃ s : State, s.notices = [] ∧ ∃ cls, s.ttc.writer = .tone cls ∧ s.ttc.writerTimer ≠ some 0) ∧
    (∃ s : State, s.notices = [] ∧ ∃ cls, s.ttc.writer = .tone cls ∧ s.ttc.writerTimer = some 0) ∧
    (∃ s : State, s.notices = [] ∧ (s.ttc.writer = .idle ∨ s.ttc.writer = .quiet)) ∧
    (∃ s : State, s.notices = [] ∧ ¬ (s.ttc.writer = .quiet ∧ s.ttc.writerTimer = some 0)) ∧
    (∃ s : State, s.notices = [] ∧ s.ttc.writer = .quiet ∧ s.ttc.writerTimer = some 0) ∧
    (∃ s : State, s.notices = [] ∧ s.ttc.ramp = none) ∧
    (∃ s : State, s.notices = [] ∧ ∃ r, s.ttc.ramp = some r ∧ ∃ n, n = (r.target - r.start) + (r.start - r.target) ∧
    r.elapsed < (r.steps + 1) * r.time / n) ∧
    (∃ s : State, s.notices = [] ∧ ∃ r, s.ttc.ramp = some r ∧ ∃ n, n = (r.target - r.start) + (r.start - r.target) ∧
    (r.steps + 1) * r.time / n ≤ r.elapsed) :=
  ⟨⟨208, State.reset, ⟨rfl, rfl⟩, by decide⟩,
   ⟨2, State.reset, ⟨rfl, rfl⟩, by decide, by decide⟩,
   ⟨3, { State.reset with ttc := { Ttc.reset with state := .recording, writer := .quiet } }, ⟨rfl, rfl⟩, by decide, by
   decide, by decide⟩,
   ⟨3, { State.reset with ttc := { Ttc.reset with state := .recording } }, ⟨rfl, rfl⟩, _, rfl, by decide, by decide⟩,
   ⟨2, 208, State.reset, ⟨rfl, rfl⟩, by decide⟩,
   ⟨2, 2, State.reset, ⟨rfl, rfl⟩, by decide, by decide⟩,
   ⟨{ State.reset with ttc := { Ttc.reset with muteImposed := true } }, ⟨rfl, rfl⟩, by decide⟩,
   ⟨1, 0, State.reset, ⟨rfl, rfl⟩, by decide, by decide⟩,
   ⟨2, 2, State.reset, ⟨rfl, rfl⟩, by decide, by decide, by decide⟩,
   ⟨{ State.reset with ttc := { Ttc.reset with writer := .tone (.mark) } }, by decide, _, rfl, by decide⟩,
   ⟨{ State.reset with ttc := { Ttc.reset with writer := .tone (.mark), writerTimer := some 0 } }, by decide, _, rfl,
   by decide⟩,
   ⟨State.reset, by decide, by decide⟩,
   ⟨State.reset, by decide, by decide⟩,
   ⟨{ State.reset with ttc := { Ttc.reset with writer := .quiet, writerTimer := some 0 } }, by decide, by decide, by
   decide⟩,
   ⟨State.reset, by decide, by decide⟩,
   ⟨{ State.reset with
      ttc := { Ttc.reset with
        ramp := some { start := 100, target := 110, time := 100, steps := 6, elapsed := 53 } } },
   by decide, _, rfl, _, rfl, by decide⟩,
   ⟨{ State.reset with
      ttc := { Ttc.reset with
        ramp := some { start := 100, target := 110, time := 100, steps := 8, elapsed := 90 } } },
   by decide, _, rfl, _, rfl, by decide⟩⟩

/-- What the pulses of Obligations.TapeStops assume is met, clause by clause. -/
theorem witness_TapeStops_pulse :
    (∃ s : State, s.notices = [] ∧ Deck s.ttc ∧ s.ttc.state = .stopped) ∧
    (∃ s : State, s.notices = [] ∧ Deck s.ttc ∧ s.ttc.leader = some 63) ∧
    (∃ s : State, s.notices = [] ∧ Deck s.ttc ∧ ∃ counted : Ttc, counted =
    { s.ttc with counter := if s.ttc.direction = .forward then s.ttc.counter + 1 else s.ttc.counter - 1, stallWatch := if s.ttc.state = .playing ∨ s.ttc.state = .recording then some 500 else s.ttc.stallWatch, leader := s.ttc.leader.map (· + 1) }
    ∧ ∃ g, s.ttc.locateTarget = some g ∧ s.ttc.leader ≠ some 63 ∧ s.ttc.state = .locating ∧ (if s.ttc.direction =
    .forward then g.toNat ≤ counted.counter.toNat else counted.counter.toNat ≤ g.toNat)) ∧
    (∃ s : State, s.notices = [] ∧ Deck s.ttc ∧ ∃ counted : Ttc, counted =
    { s.ttc with counter := if s.ttc.direction = .forward then s.ttc.counter + 1 else s.ttc.counter - 1, stallWatch := if s.ttc.state = .playing ∨ s.ttc.state = .recording then some 500 else s.ttc.stallWatch, leader := s.ttc.leader.map (· + 1) }
    ∧ ∃ g, s.ttc.locateTarget = some g ∧ s.ttc.leader ≠ some 63 ∧ s.ttc.state = .locating ∧ ¬ (if s.ttc.direction =
    .forward then g.toNat ≤ counted.counter.toNat else counted.counter.toNat ≤ g.toNat)) ∧
    (∃ s : State, s.notices = [] ∧ Deck s.ttc ∧ s.ttc.leader ≠ some 63 ∧ s.ttc.state ≠ .locating ∧ s.ttc.state ≠
    .stopped) :=
  ⟨⟨State.reset, by decide, by constructor <;> decide, by decide⟩,
   ⟨{ State.reset with
      ttc := { Ttc.reset with
        tend := true, state := .playing, direction := .forward, stallWatch := some 3, leader := some 63 } },
   by decide, by constructor <;> decide, by decide⟩,
   ⟨{ State.reset with
      ttc := { Ttc.reset with state := .locating, direction := .forward, counter := 4, locateTarget := some 2 } },
   by decide, by constructor <;> decide, _, rfl, _, rfl, by decide, by decide, by decide⟩,
   ⟨{ State.reset with
      ttc := { Ttc.reset with state := .locating, direction := .reverse, locateTarget := some 1 } },
   by decide, by constructor <;> decide, _, rfl, _, rfl, by decide, by decide, by decide⟩,
   ⟨{ State.reset with ttc := { Ttc.reset with state := .windFwd, direction := .forward } }, by decide, by constructor
   <;> decide, by decide, by decide, by decide⟩⟩

/-- What Obligations.TapeStops assumes is met, clause by clause. -/
theorem witness_TapeStops :
    (∃ s : State, s.notices = []) ∧
    (∃ s : State, s.notices = [] ∧ s.ttc.tend = true) ∧
    (∃ s : State, s.notices = [] ∧ s.ttc.tend = false ∧ s.ttc.state.moving = false) ∧
    (∃ s : State, s.notices = [] ∧ s.ttc.tend = false ∧ s.ttc.state.moving = true) ∧
    (∃ s : State, s.notices = [] ∧ ¬ (s.ttc.state = .braking ∧ s.ttc.brakingTimer = some 0)) ∧
    (∃ s : State, s.notices = [] ∧ s.ttc.state = .braking ∧ s.ttc.brakingTimer = some 0 ∧ s.ttc.latched = none) ∧
    (∃ s : State, s.notices = [] ∧ s.ttc.state = .braking ∧ s.ttc.brakingTimer = some 0 ∧ ∃ req, s.ttc.latched = some
    req) ∧
    (∃ s : State, s.notices = [] ∧ (¬ ((s.ttc.state = .playing ∨ s.ttc.state = .recording) ∧ s.ttc.stallWatch = some
    0))) ∧
    (∃ s : State, s.notices = [] ∧ (s.ttc.state = .playing ∨ s.ttc.state = .recording) ∧ s.ttc.stallWatch = some 0) :=
  ⟨⟨State.reset, by decide⟩,
   ⟨{ State.reset with ttc := { Ttc.reset with tend := true } }, by decide, by decide⟩,
   ⟨State.reset, by decide, by decide, by decide⟩,
   ⟨{ State.reset with ttc := { Ttc.reset with state := .windFwd } }, by decide, by decide, by decide⟩,
   ⟨State.reset, by decide, by decide⟩,
   ⟨{ State.reset with ttc := { Ttc.reset with state := .braking, brakingTimer := some 0 } }, by decide, by decide, by
   decide, by decide⟩,
   ⟨{ State.reset with
      ttc := { Ttc.reset with state := .braking, latched := some (.locate 1), brakingTimer := some 0 } },
   by decide, by decide, by decide, _, rfl⟩,
   ⟨State.reset, by decide, by decide⟩,
   ⟨{ State.reset with ttc := { Ttc.reset with state := .recording, stallWatch := some 0 } }, by decide, by decide, by
   decide⟩⟩

/-- What Obligations.CueBurst assumes is met, clause by clause. -/
theorem witness_CueBurst :
    (∃ s : State, s.notices = []) ∧
    (∃ s : State, s.notices = [] ∧ s.ttc.cuein = false ∧ s.ttc.decoder = .quiet) ∧
    (∃ s : State, s.notices = [] ∧ s.ttc.cuein = false ∧ s.ttc.decoder = .gap ∧ s.ttc.past800 = false) ∧
    (∃ s : State, s.notices = [] ∧ s.ttc.cuein = false ∧ s.ttc.decoder = .gap ∧ s.ttc.past800 = true) ∧
    (∃ s : State, s.notices = [] ∧ s.ttc.cuein = false ∧ (s.ttc.decoder = .stuck ∨ s.ttc.decoder = .resync)) ∧
    (∃ s : State, s.notices = [] ∧ s.ttc.cuein = false ∧ s.ttc.decoder = .off) ∧
    (∃ s : State, s.notices = [] ∧ s.ttc.cuein = true ∧ s.ttc.decoder = .tone) ∧
    (∃ s : State, s.notices = [] ∧ s.ttc.cuein = true ∧ (s.ttc.decoder = .stuck ∨ s.ttc.decoder = .resync)) ∧
    (∃ s : State, s.notices = [] ∧ s.ttc.cuein = true ∧ s.ttc.decoder = .off) ∧
    (∃ s : State, s.notices = [] ∧ (s.ttc.stuckTimer ≠ some 0 ∨ s.ttc.decoder ≠ .tone ∧ s.ttc.decoder ≠ .gap)) ∧
    (∃ s : State, s.notices = [] ∧ s.ttc.stuckTimer = some 0 ∧ s.ttc.decoder = .tone) ∧
    (∃ s : State, s.notices = [] ∧ s.ttc.stuckTimer = some 0 ∧ s.ttc.decoder = .gap) ∧
    (∃ s : State, s.notices = [] ∧ s.ttc.gapTimer ≠ some 0) ∧
    (∃ s : State, s.notices = [] ∧ s.ttc.gapTimer = some 0 ∧ (s.ttc.decoder = .stuck ∨ s.ttc.decoder = .resync)) :=
  ⟨⟨State.reset, by decide⟩,
   ⟨State.reset, by decide, by decide, by decide⟩,
   ⟨{ State.reset with ttc := { Ttc.reset with decoder := .gap } }, by decide, by decide, by decide, by decide⟩,
   ⟨{ State.reset with ttc := { Ttc.reset with decoder := .gap, past800 := true } }, by decide, by decide, by decide,
   by decide⟩,
   ⟨{ State.reset with ttc := { Ttc.reset with decoder := .stuck } }, by decide, by decide, by decide⟩,
   ⟨{ State.reset with ttc := { Ttc.reset with decoder := .off } }, by decide, by decide, by decide⟩,
   ⟨{ State.reset with ttc := { Ttc.reset with cuein := true, decoder := .tone } }, by decide, by decide, by decide⟩,
   ⟨{ State.reset with ttc := { Ttc.reset with cuein := true, decoder := .resync } }, by decide, by decide, by decide⟩,
   ⟨{ State.reset with ttc := { Ttc.reset with cuein := true, decoder := .off } }, by decide, by decide, by decide⟩,
   ⟨State.reset, by decide, by decide⟩,
   ⟨{ State.reset with ttc := { Ttc.reset with decoder := .tone, stuckTimer := some 0 } }, by decide, by decide, by
   decide⟩,
   ⟨{ State.reset with ttc := { Ttc.reset with decoder := .gap, stuckTimer := some 0 } }, by decide, by decide, by
   decide⟩,
   ⟨State.reset, by decide, by decide⟩,
   ⟨{ State.reset with ttc := { Ttc.reset with decoder := .stuck, gapTimer := some 0 } }, by decide, by decide, by
   decide⟩⟩

/-- What Obligations.CueClasses assumes is met, clause by clause. -/
theorem witness_CueClasses :
    (∃ s : State, s.notices = [] ∧ ∃ length, length = (s.ttc.lastFall - s.ttc.burstStart).toNat ∧ s.ttc.gapTimer =
    some 0 ∧ s.ttc.decoder = .gap ∧ classOf? length = none) ∧
    (∃ s : State, s.notices = [] ∧ ∃ length, length = (s.ttc.lastFall - s.ttc.burstStart).toNat ∧ s.ttc.gapTimer =
    some 0 ∧ s.ttc.decoder = .gap ∧ ∃ cls, classOf? length = some cls ∧ s.ttc.route = .off) ∧
    (∃ s : State, s.notices = [] ∧ ∃ length, length = (s.ttc.lastFall - s.ttc.burstStart).toNat ∧ s.ttc.gapTimer =
    some 0 ∧ s.ttc.decoder = .gap ∧ ∃ cls, classOf? length = some cls ∧ s.ttc.route = .toShow ∧ s.ttc.fifo.length < 8
    ∧ s.ce.awaits? 2 = none) ∧
    (∃ s : State, s.notices = [] ∧ ∃ length, length = (s.ttc.lastFall - s.ttc.burstStart).toNat ∧ s.ttc.gapTimer =
    some 0 ∧ s.ttc.decoder = .gap ∧ ∃ cls, classOf? length = some cls ∧ s.ttc.route = .toShow ∧ 8 ≤ s.ttc.fifo.length) ∧
    (∃ s : State, s.notices = [] ∧ ∃ length, length = (s.ttc.lastFall - s.ttc.burstStart).toNat ∧ s.ttc.gapTimer =
    some 0 ∧ s.ttc.decoder = .gap ∧ ∃ cls, classOf? length = some cls ∧ s.ttc.route = .direct ∧ cls = .stop ∧
    s.ttc.state.moving = true) ∧
    (∃ s : State, s.notices = [] ∧ ∃ length, length = (s.ttc.lastFall - s.ttc.burstStart).toNat ∧ s.ttc.gapTimer =
    some 0 ∧ s.ttc.decoder = .gap ∧ ∃ cls, classOf? length = some cls ∧ s.ttc.route = .direct ∧ cls = .mark ∧
    s.ttc.markChannel = none) ∧
    (∃ s : State, s.notices = [] ∧ ∃ length, length = (s.ttc.lastFall - s.ttc.burstStart).toNat ∧ s.ttc.gapTimer =
    some 0 ∧ s.ttc.decoder = .gap ∧ ∃ cls, classOf? length = some cls ∧ s.ttc.route = .direct ∧ (cls = .advance ∨ cls
    = .reverse) ∧ s.tmc.state = .jammed ∧ s.ca.inService = none ∧ s.ca.slots.tape = none) :=
  ⟨⟨{ State.reset with ttc := { Ttc.reset with decoder := .gap, gapTimer := some 0 } }, by decide, _, rfl, by decide,
   by decide, by decide⟩,
   ⟨{ State.reset with
      ttc := { Ttc.reset with decoder := .gap, lastFall := 130, gapTimer := some 0, route := .off } },
   by decide, _, rfl, by decide, by decide, _, rfl, by decide⟩,
   ⟨{ State.reset with ttc := { Ttc.reset with decoder := .gap, lastFall := 130, gapTimer := some 0 } }, by decide, _,
   rfl, by decide, by decide, _, rfl, by decide, by decide, by decide⟩,
   ⟨{ State.reset with
      ttc := { Ttc.reset with
        decoder := .gap, burstStart := 100, lastFall := 300, gapTimer := some 0,
        fifo := [{ cls := .mark, startCount := 0, ending := 0 }, { cls := .mark, startCount := 0, ending := 0 }, { cls := .mark, startCount := 0, ending := 0 }, { cls := .mark, startCount := 0, ending := 0 }, { cls := .mark, startCount := 0, ending := 0 }, { cls := .mark, startCount := 0, ending := 0 }, { cls := .mark, startCount := 0, ending := 0 }, { cls := .mark, startCount := 0, ending := 0 }] } },
   by decide, _, rfl, by decide, by decide, _, rfl, by decide, by decide⟩,
   ⟨{ State.reset with
      ttc := { Ttc.reset with
        state := .windFwd, decoder := .gap, lastFall := 657, gapTimer := some 0, route := .direct } },
   by decide, _, rfl, by decide, by decide, _, rfl, by decide, by decide, by decide⟩,
   ⟨{ State.reset with
      ttc := { Ttc.reset with
        decoder := .gap, burstStart := 100, lastFall := 300, gapTimer := some 0, route := .direct } },
   by decide, _, rfl, by decide, by decide, _, rfl, by decide, by decide, by decide⟩,
   ⟨{ State.reset with
      tmc := { Tmc.reset with state := .jammed },
      ttc := { Ttc.reset with
        decoder := .gap, burstStart := 100, lastFall := 200, gapTimer := some 0, route := .direct } },
   by decide, _, rfl, by decide, by decide, _, rfl, by decide, by decide, by decide, by decide, by decide⟩⟩

/-- What Obligations.RemoteLine assumes is met, clause by clause. -/
theorem witness_RemoteLine :
    (∃ s : State, s.notices = [] ∧ ∃ rising : Bool, rising = s.rr.rline) ∧
    (∃ s : State, s.notices = [] ∧ ∃ rising : Bool, rising = false ∧ s.rr.rline = true ∧ s.rr.receiver = .listen) ∧
    (∃ s : State, s.notices = [] ∧ ∃ rising : Bool, rising = false ∧ s.rr.rline = true ∧ s.rr.receiver = .resync) ∧
    (∃ s : State, s.notices = [] ∧ ∃ rising : Bool, ∃ micros : Nat, rising = false ∧ s.rr.rline = true ∧ ∃ bits,
    s.rr.receiver = .space bits ∧ bits.length ≠ 12 ∧ 450 ≤ micros ∧ micros ≤ 750) ∧
    (∃ s : State, s.notices = [] ∧ ∃ rising : Bool, ∃ micros : Nat, rising = false ∧ s.rr.rline = true ∧ ∃ bits,
    s.rr.receiver = .space bits ∧ bits.length ≠ 12 ∧ (micros < 450 ∨ 750 < micros)) ∧
    (∃ s : State, s.notices = [] ∧ ∃ rising : Bool, rising = false ∧ s.rr.rline = true ∧ ∃ bits, s.rr.receiver =
    .space bits ∧ bits.length = 12) ∧
    (∃ s : State, s.notices = [] ∧ ∃ rising : Bool, rising = true ∧ s.rr.rline = false ∧ s.rr.receiver = .resync) ∧
    (∃ s : State, s.notices = [] ∧ ∃ rising : Bool, ∃ micros : Nat, rising = true ∧ s.rr.rline = false ∧ s.rr.receiver
    = .start ∧ 1800 ≤ micros ∧ micros ≤ 3000) ∧
    (∃ s : State, s.notices = [] ∧ ∃ rising : Bool, ∃ micros : Nat, rising = true ∧ s.rr.rline = false ∧ s.rr.receiver
    = .start ∧ (micros < 1800 ∨ 3000 < micros)) ∧
    (∃ s : State, s.notices = [] ∧ ∃ rising : Bool, ∃ micros : Nat, rising = true ∧ s.rr.rline = false ∧ ∃ bits,
    s.rr.receiver = .bit bits ∧ 450 ≤ micros ∧ micros ≤ 750) ∧
    (∃ s : State, s.notices = [] ∧ ∃ rising : Bool, ∃ micros : Nat, rising = true ∧ s.rr.rline = false ∧ ∃ bits,
    s.rr.receiver = .bit bits ∧ 900 ≤ micros ∧ micros ≤ 1500) ∧
    (∃ s : State, s.notices = [] ∧ ∃ rising : Bool, ∃ micros : Nat, rising = true ∧ s.rr.rline = false ∧ ∃ bits,
    s.rr.receiver = .bit bits ∧ (micros < 450 ∨ 750 < micros ∧ micros < 900 ∨ 1500 < micros)) ∧
    (∃ s : State, s.notices = [] ∧ ∃ failure : FrameFailure, canFail s.rr failure = false) ∧
    (∃ s : State, s.notices = [] ∧ ∃ failure : FrameFailure, canFail s.rr failure = true) ∧
    (∃ s : State, s.notices = [] ∧ canFail s.rr .stuckLow = false) ∧
    (∃ s : State, s.notices = [] ∧ canFail s.rr .stuckLow = true) ∧
    (∃ s : State, s.notices = [] ∧ ¬ (s.rr.receiver = .resync ∧ s.rr.idleTimer = some 0)) ∧
    (∃ s : State, s.notices = [] ∧ s.rr.receiver = .resync ∧ s.rr.idleTimer = some 0) :=
  ⟨⟨State.reset, by decide, true, by decide⟩,
   ⟨{ State.reset with rr := { Rr.reset with receiver := .listen } }, by decide, false, by decide, by decide, by
   decide⟩,
   ⟨State.reset, by decide, false, by decide, by decide, by decide⟩,
   ⟨{ State.reset with rr := { Rr.reset with receiver := .space [false, false, false, false, true, false] } }, by
   decide, false, 600, by decide, by decide, _, rfl, by decide, by decide, by decide⟩,
   ⟨{ State.reset with rr := { Rr.reset with receiver := .space [false, false, false, false, true, false] } }, by
   decide, false, 2, by decide, by decide, _, rfl, by decide, by decide⟩,
   ⟨{ State.reset with
      rr := { Rr.reset with
        receiver := .space [true, false, false, true, false, true, false, false, false, true, false, false] } },
   by decide, false, by decide, by decide, _, rfl, by decide⟩,
   ⟨{ State.reset with rr := { Rr.reset with rline := false } }, by decide, true, by decide, by decide, by decide⟩,
   ⟨{ State.reset with rr := { Rr.reset with rline := false, receiver := .start } }, by decide, true, 2400, by decide,
   by decide, by decide, by decide, by decide⟩,
   ⟨{ State.reset with rr := { Rr.reset with rline := false, receiver := .start } }, by decide, true, 0, by decide, by
   decide, by decide, by decide⟩,
   ⟨{ State.reset with rr := { Rr.reset with rline := false, receiver := .bit [] } }, by decide, true, 600, by decide,
   by decide, _, rfl, by decide, by decide⟩,
   ⟨{ State.reset with rr := { Rr.reset with rline := false, receiver := .bit [] } }, by decide, true, 1000, by
   decide, by decide, _, rfl, by decide, by decide⟩,
   ⟨{ State.reset with rr := { Rr.reset with rline := false, receiver := .bit [] } }, by decide, true, 4, by decide,
   by decide, _, rfl, by decide⟩,
   ⟨State.reset, by decide, .startPulse, by decide⟩,
   ⟨{ State.reset with rr := { Rr.reset with receiver := .bit [] } }, by decide, .bitPulse, by decide⟩,
   ⟨State.reset, by decide, by decide⟩,
   ⟨{ State.reset with rr := { Rr.reset with receiver := .bit [], lowLimit := some 0 } }, by decide, by decide⟩,
   ⟨State.reset, by decide, by decide⟩,
   ⟨{ State.reset with rr := { Rr.reset with idleTimer := some 0 } }, by decide, by decide, by decide⟩⟩

/-- What Obligations.RemoteFrame assumes is met, clause by clause. -/
theorem witness_RemoteFrame :
    (∃ s : State, s.notices = [] ∧ s.rr.frameBits? = none) ∧
    (∃ s : State, s.notices = [] ∧ ∃ bits, s.rr.frameBits? = some bits ∧ frameField bits 10 2 ≠ (bits.take 10).count
    true % 4) ∧
    (∃ s : State, s.notices = [] ∧ ∃ bits, s.rr.frameBits? = some bits ∧ ∃ unit, unit = frameField bits 0 4 ∧ ∃
    accepted, accepted = decide (s.rr.enabled = true ∧ (unit = s.rr.unit.toNat ∨ unit = 15)) ∧ frameField bits 10 2 =
    (bits.take 10).count true % 4 ∧ accepted = false) ∧
    (∃ s : State, s.notices = [] ∧ ∃ bits, s.rr.frameBits? = some bits ∧ ∃ key, key = BitVec.ofNat 5 (frameField bits
    4 5) ∧ ∃ toggle, toggle = bits.getD 9 false ∧ ∃ unit, unit = frameField bits 0 4 ∧ ∃ accepted, accepted = decide
    (s.rr.enabled = true ∧ (unit = s.rr.unit.toNat ∨ unit = 15)) ∧ frameField bits 10 2 = (bits.take 10).count true %
    4 ∧ ∃ h, s.rr.held = some h ∧ accepted = true ∧ h.key = key ∧ h.toggle = toggle) ∧
    (∃ s : State, s.notices = [] ∧ ∃ bits, s.rr.frameBits? = some bits ∧ ∃ key, key = BitVec.ofNat 5 (frameField bits
    4 5) ∧ ∃ unit, unit = frameField bits 0 4 ∧ ∃ accepted, accepted = decide (s.rr.enabled = true ∧ (unit =
    s.rr.unit.toNat ∨ unit = 15)) ∧ frameField bits 10 2 = (bits.take 10).count true % 4 ∧ accepted = true ∧ s.rr.held
    = none ∧ s.ce.takesKey key = false ∧ ∃ e, e = s.rr.entry key ∧ e.policy = 2 ∧ e.effective ≠ 6 ∧ e.effective ≠ 7) ∧
    (∃ s : State, s.notices = [] ∧ ∃ bits, s.rr.frameBits? = some bits ∧ ∃ key, key = BitVec.ofNat 5 (frameField bits
    4 5) ∧ ∃ unit, unit = frameField bits 0 4 ∧ ∃ accepted, accepted = decide (s.rr.enabled = true ∧ (unit =
    s.rr.unit.toNat ∨ unit = 15)) ∧ frameField bits 10 2 = (bits.take 10).count true % 4 ∧ accepted = true ∧ s.rr.held
    = none ∧ s.ce.takesKey key = false ∧ ∃ e, e = s.rr.entry key ∧ e.effective = 0) ∧
    (∃ s : State, s.notices = [] ∧ ∃ bits, s.rr.frameBits? = some bits ∧ ∃ key, key = BitVec.ofNat 5 (frameField bits
    4 5) ∧ ∃ unit, unit = frameField bits 0 4 ∧ ∃ accepted, accepted = decide (s.rr.enabled = true ∧ (unit =
    s.rr.unit.toNat ∨ unit = 15)) ∧ frameField bits 10 2 = (bits.take 10).count true % 4 ∧ accepted = true ∧ s.rr.held
    = none ∧ s.ce.takesKey key = false ∧ ∃ e, e = s.rr.entry key ∧ e.effective = 6) ∧
    (∃ s : State, s.notices = [] ∧ ∃ bits, s.rr.frameBits? = some bits ∧ ∃ key, key = BitVec.ofNat 5 (frameField bits
    4 5) ∧ ∃ unit, unit = frameField bits 0 4 ∧ ∃ accepted, accepted = decide (s.rr.enabled = true ∧ (unit =
    s.rr.unit.toNat ∨ unit = 15)) ∧ frameField bits 10 2 = (bits.take 10).count true % 4 ∧ accepted = true ∧ s.rr.held
    = none ∧ s.ce.takesKey key = false ∧ ∃ e, e = s.rr.entry key ∧ e.effective = 7) ∧
    (∃ s : State, s.notices = [] ∧ ∃ bits, s.rr.frameBits? = some bits ∧ ∃ key, key = BitVec.ofNat 5 (frameField bits
    4 5) ∧ ∃ unit, unit = frameField bits 0 4 ∧ ∃ accepted, accepted = decide (s.rr.enabled = true ∧ (unit =
    s.rr.unit.toNat ∨ unit = 15)) ∧ frameField bits 10 2 = (bits.take 10).count true % 4 ∧ accepted = true ∧ s.rr.held
    = none ∧ s.ce.takesKey key = false ∧ ∃ e, e = s.rr.entry key ∧ 1 ≤ e.effective ∧ e.effective ≤ 4 ∧ e.policy = 0 ∧
    s.tmc.state = .jammed ∧ s.ca.inService = none ∧ s.ca.slots.remote = none) ∧
    (∃ s : State, s.notices = [] ∧ ∃ bits, s.rr.frameBits? = some bits ∧ ∃ key, key = BitVec.ofNat 5 (frameField bits
    4 5) ∧ ∃ unit, unit = frameField bits 0 4 ∧ ∃ accepted, accepted = decide (s.rr.enabled = true ∧ (unit =
    s.rr.unit.toNat ∨ unit = 15)) ∧ frameField bits 10 2 = (bits.take 10).count true % 4 ∧ accepted = true ∧ s.rr.held
    = none ∧ s.ce.takesKey key = false ∧ ∃ e, e = s.rr.entry key ∧ e.effective = 11 ∧ e.policy = 0 ∧ s.cu.enabled
    .remoteStop = true) :=
  ⟨⟨State.reset, by decide, by decide⟩,
   ⟨{ State.reset with
      rr := { Rr.reset with
        receiver := .space [true, false, false, true, true, false, true, false, false, true, false, true],
        frameEnd := some 0 } },
   by decide, _, rfl, by decide⟩,
   ⟨{ State.reset with
      rr := { Rr.reset with
        receiver := .space [true, true, true, true, true, true, true, false, false, true, false, false],
        frameEnd := some 0, enabled := false } },
   by decide, _, rfl, _, rfl, _, rfl, by decide, by decide⟩,
   ⟨{ State.reset with
      rr := { Rr.reset with
        receiver := .space [true, true, true, true, true, true, false, false, false, true, true, true],
        frameEnd := some 0, held := some { key := 3, toggle := true, consumed := false } } },
   by decide, _, rfl, _, rfl, _, rfl, _, rfl, _, rfl, by decide, _, rfl, by decide, by decide, by decide⟩,
   ⟨{ State.reset with
      rr := { Rr.reset with
        receiver := .space [false, false, false, false, false, false, false, false, false, true, true, false],
        frameEnd := some 0, keyMap := (defaultKeyMap |>.set 2 2) } },
   by decide, _, rfl, _, rfl, _, rfl, _, rfl, by decide, by decide, by decide, by decide, _, rfl, by decide, by
   decide, by decide⟩,
   ⟨{ State.reset with
      rr := { Rr.reset with
        receiver := .space [false, false, false, false, false, true, false, false, false, false, true, false],
        frameEnd := some 0, keyMap := (defaultKeyMap |>.set 8 0) } },
   by decide, _, rfl, _, rfl, _, rfl, _, rfl, by decide, by decide, by decide, by decide, _, rfl, by decide⟩,
   ⟨{ State.reset with
      rr := { Rr.reset with
        receiver := .space [true, true, true, true, true, false, false, false, false, true, false, true],
        frameEnd := some 0, keyMap := (defaultKeyMap |>.set 4 6) } },
   by decide, _, rfl, _, rfl, _, rfl, _, rfl, by decide, by decide, by decide, by decide, _, rfl, by decide⟩,
   ⟨{ State.reset with
      rr := { Rr.reset with
        receiver := .space [false, false, false, false, true, true, true, false, false, false, true, true],
        frameEnd := some 0, keyMap := (defaultKeyMap |>.set 28 7) } },
   by decide, _, rfl, _, rfl, _, rfl, _, rfl, by decide, by decide, by decide, by decide, _, rfl, by decide⟩,
   ⟨{ State.reset with
      tmc := { Tmc.reset with state := .jammed },
      rr := { Rr.reset with
        receiver := .space [true, true, true, true, true, false, true, false, false, false, false, true],
        frameEnd := some 0, keyMap := (defaultKeyMap |>.set 20 1) } },
   by decide, _, rfl, _, rfl, _, rfl, _, rfl, by decide, by decide, by decide, by decide, _, rfl, by decide, by
   decide, by decide, by decide, by decide, by decide⟩,
   ⟨{ State.reset with
      rr := { Rr.reset with
        receiver := .space [true, true, true, true, true, true, false, false, false, true, true, true],
        frameEnd := some 0, keyMap := (defaultKeyMap |>.set 12 11 |>.set 14 0) } },
   by decide, _, rfl, _, rfl, _, rfl, _, rfl, by decide, by decide, by decide, by decide, _, rfl, by decide, by
   decide, by decide⟩⟩

/-- What Obligations.RemoteKeys assumes is met, clause by clause. -/
theorem witness_RemoteKeys :
    (∃ s : State, s.notices = [] ∧ (s.rr.releaseTimer ≠ some 0 ∨ s.rr.held = none)) ∧
    (∃ s : State, s.notices = [] ∧ ∃ h, s.rr.held = some h ∧ ∃ e, e = s.rr.entry h.key ∧ s.rr.releaseTimer = some 0 ∧
    (e.policy ≠ 2 ∨ h.consumed = true ∨ e.effective = 0 ∨ e.effective = 6 ∨ e.effective = 7)) ∧
    (∃ s : State, s.notices = [] ∧ ∃ h, s.rr.held = some h ∧ ∃ e, e = s.rr.entry h.key ∧ s.rr.releaseTimer = some 0 ∧
    e.policy = 2 ∧ h.consumed = false ∧ (e.effective = 1 ∨ e.effective = 2) ∧ s.tmc.state = .jammed ∧ s.ca.inService =
    none ∧ s.ca.slots.remote = none) ∧
    (∃ s : State, s.notices = [] ∧ (s.rr.repeatTimer ≠ some 0 ∨ s.rr.held = none)) ∧
    (∃ s : State, s.notices = [] ∧ ∃ h, s.rr.held = some h ∧ ∃ e, e = s.rr.entry h.key ∧ s.rr.repeatTimer = some 0 ∧
    (e.policy ≠ 1 ∨ e.interval = 0)) ∧
    (∃ s : State, s.notices = [] ∧ ∃ h, s.rr.held = some h ∧ ∃ e, e = s.rr.entry h.key ∧ s.rr.repeatTimer = some 0 ∧
    e.policy = 1 ∧ 0 < e.interval ∧ (e.effective = 0 ∨ e.effective = 6 ∨ e.effective = 7)) ∧
    (∃ s : State, s.notices = [] ∧ ∃ h, s.rr.held = some h ∧ ∃ e, e = s.rr.entry h.key ∧ s.rr.repeatTimer = some 0 ∧
    e.policy = 1 ∧ 0 < e.interval ∧ (e.effective = 1 ∨ e.effective = 2) ∧ s.tmc.state = .jammed ∧ s.ca.inService =
    none ∧ s.ca.slots.remote = none) :=
  ⟨⟨State.reset, by decide, by decide⟩,
   ⟨{ State.reset with
      rr := { Rr.reset with held := some { key := 4, toggle := false, consumed := false }, releaseTimer := some 0 } },
   by decide, _, rfl, _, rfl, by decide, by decide⟩,
   ⟨{ State.reset with
      tmc := { Tmc.reset with state := .jammed },
      rr := { Rr.reset with
        held := some { key := 7, toggle := true, consumed := false }, releaseTimer := some 0,
        keyMap := (defaultKeyMap |>.set 28 2 |>.set 30 2) } },
   by decide, _, rfl, _, rfl, by decide, by decide, by decide, by decide, by decide, by decide, by decide⟩,
   ⟨State.reset, by decide, by decide⟩,
   ⟨{ State.reset with
      rr := { Rr.reset with held := some { key := 4, toggle := false, consumed := false }, repeatTimer := some 0 } },
   by decide, _, rfl, _, rfl, by decide, by decide⟩,
   ⟨{ State.reset with
      rr := { Rr.reset with
        held := some { key := 5, toggle := false, consumed := false }, repeatTimer := some 0,
        keyMap := (defaultKeyMap |>.set 20 12 |>.set 22 1 |>.set 23 1) } },
   by decide, _, rfl, _, rfl, by decide, by decide, by decide, by decide⟩,
   ⟨{ State.reset with
      tmc := { Tmc.reset with state := .jammed },
      rr := { Rr.reset with held := some { key := 0, toggle := false, consumed := false }, repeatTimer := some 0 } },
   by decide, _, rfl, _, rfl, by decide, by decide, by decide, by decide, by decide, by decide, by decide⟩⟩

/-- What Obligations.RemoteSetupAndFocus assumes is met, clause by clause. -/
theorem witness_RemoteSetupAndFocus :
    (∃ unit : Byte, ∃ enable : Byte, ∃ s : State, Ready s ∧ (15 < unit.toNat ∨ 1 < enable.toNat)) ∧
    (∃ unit : Byte, ∃ enable : Byte, ∃ s : State, Ready s ∧ unit.toNat ≤ 15 ∧ enable.toNat ≤ 1) ∧
    (∃ s : State, s.notices = []) ∧
    (∃ s : State, s.notices = [] ∧ s.rr.flim = false) ∧
    (∃ s : State, s.notices = [] ∧ s.rr.flim = true) ∧
    (∃ s : State, s.notices = [] ∧ (s.rr.escapeWatch ≠ some 0 ∨ s.rr.focus = .stopped)) ∧
    (∃ s : State, s.notices = [] ∧ s.rr.escapeWatch = some 0 ∧ s.rr.focus ≠ .stopped) :=
  ⟨⟨2, 2, State.reset, ⟨rfl, rfl⟩, by decide⟩,
   ⟨1, 1, State.reset, ⟨rfl, rfl⟩, by decide, by decide⟩,
   ⟨State.reset, by decide⟩,
   ⟨State.reset, by decide, by decide⟩,
   ⟨{ State.reset with rr := { Rr.reset with flim := true } }, by decide, by decide⟩,
   ⟨State.reset, by decide, by decide⟩,
   ⟨{ State.reset with rr := { Rr.reset with focus := .outward, escapeWatch := some 0 } }, by decide, by decide, by
   decide⟩⟩

/-- What Obligations.ArbiterSettings assumes is met, clause by clause. -/
theorem witness_ArbiterSettings :
    (∃ b1 : Byte, ∃ s : State, Ready s ∧ 4 ≤ b1.toNat) ∧
    (∃ b1 : Byte, ∃ s : State, Ready s ∧ b1.toNat < 4) ∧
    (∃ b0 : Byte, ∃ s : State, Ready s ∧ 32 ≤ b0.toNat) ∧
    (∃ b0 : Byte, ∃ s : State, Ready s ∧ ∃ masks : PerSource Bool, masks = ⟨b0.getLsbD 0, b0.getLsbD 1, b0.getLsbD 2,
    b0.getLsbD 3, b0.getLsbD 4⟩ ∧ b0.toNat < 32 ∧ ((∀ source, s.ca.masks.get source = true → masks.get source = true)
    ∨ s.tmc.state = .jammed ∨ (s.cu.flag = true ∧ s.cu.traySel ≠ .ignore) ∨ (∀ source, s.ca.slots.get source = none))) ∧
    (∃ b0 : Byte, ∃ s : State, Ready s ∧ ∃ r, s.ca.slots.remote = some r ∧ b0 = 0 ∧ s.ca.masks.remote = true ∧
    s.tmc.state = .noTray ∧ s.ca.inService = none ∧ s.cu.flag = false ∧ s.ca.slots =
    { s.ca.slots with directive := none, cue := none, tape := none, run := none }) :=
  ⟨⟨208, State.reset, ⟨rfl, rfl⟩, by decide⟩,
   ⟨2, State.reset, ⟨rfl, rfl⟩, by decide⟩,
   ⟨208, State.reset, ⟨rfl, rfl⟩, by decide⟩,
   ⟨2, State.reset, ⟨rfl, rfl⟩, _, rfl, by decide, .inl (by intro x; cases x <;> decide)⟩,
   ⟨0,
   { State.reset with
      ca := { Ca.reset with
        slots := { directive := none, cue := none, remote := some { kind := .moveBy 3, level := 1 }, tape := none, run := none },
        masks := { directive := false, cue := false, remote := true, tape := true, run := true } } },
   ⟨rfl, rfl⟩, _, rfl, by decide, by decide, by decide, by decide, by decide, by decide⟩⟩

/-- What Obligations.ArbiterChoice assumes is met, clause by clause. -/
theorem witness_ArbiterChoice :
    (∃ s : State, ∃ best, s.ca.best? = some best ∧ ∃ source : Source, s.ca.masks.get source = false ∧ ∃ r,
    s.ca.slots.get source = some r) ∧
    (∃ j : Int, -9 ≤ j ∧ j ≤ 9) ∧
    (∃ n : Nat, ∃ t : Nat, ∃ j : Int, -9 ≤ j ∧ j ≤ 9 ∧ n ≠ 0 ∧ t ≤ n) ∧
    (∃ n : Nat, ∃ t : Nat, ∃ j : Int, -9 ≤ j ∧ j ≤ 9 ∧ (n = 0 ∨ n < t)) :=
  ⟨⟨{ State.reset with
      ca := { Ca.reset with
        slots := { directive := none, cue := none, remote := some { kind := .moveBy 3, level := 1 }, tape := none, run := none } } },
   _, rfl, .remote, by decide, _, rfl⟩,
   ⟨-9, by decide, by decide⟩,
   ⟨1, 1, -9, by decide, by decide, by decide, by decide⟩,
   ⟨1, 37, -9, by decide, by decide, by decide⟩⟩

/-- A tape change to slot 63 that is darkening a lit slot 80, or turning from it, with nothing pending. -/
def underTapeChange (state : MechState) : State :=
  { State.reset with
    ca := { Ca.reset with inService := some ⟨.changeTo 63, .tape, 3⟩ }
    tmc := { Tmc.reset with
      tcode := 1, state := state, n := 80, p := 80, homed := true, display := 128, op := some ⟨.changeTo 63, .tape, 3⟩
      gate := if state = .turn then .empty else .loaded, lifter := state = .turn
      motor := if state = .turn then .forward else .unpowered }
    lc := { Lc.reset with state := .lit, hold := if state = .turn then .held else .darkening, showLevel := 700 } }

theorem underTapeChange_sound : ∀ state ∈ [MechState.darken, .turn], Mechanism (underTapeChange state).tmc := by
  intro state h
  simp only [List.mem_cons, List.not_mem_nil, or_false] at h
  rcases h with rfl | rfl <;> constructor <;> decide

/-- What Obligations.Preemption assumes is met: every request takes over in DARKEN and in TURN. -/
theorem witness_Preemption :
    ∀ state ∈ [MechState.darken, .turn], ∀ c ∈ [Instr.home, .gotoSlot 3, .moveBy 12, .clearGate], ∃ s : State, Ready s ∧
      Mechanism s.tmc ∧ s.tmc.state = state ∧ ∃ q, requestOf c = some q ∧ ∃ old, s.tmc.op = some old ∧
      s.ca.inService = some old ∧ s.ca.slots.directive = none ∧ s.tmc.n ≠ 0 ∧
      (∀ slot, q.kind = .changeTo slot → slot ≤ s.tmc.n) ∧
      (s.ca.masks.directive = false ∧ s.ca.levels.directive < old.level ∧ s.tmc.homed = true ∧
        (s.tmc.state = .darken ∨ s.tmc.state = .turn) ∧ (s.cu.flag = false ∨ s.cu.traySel = .ignore)) ∧
      old.source = .tape ∧
      ¬ (changesSlide q.kind = true ∧ targetOf s.tmc q.kind = s.tmc.p ∧ s.tmc.gate = .loaded) := by
  intro state h c hc
  refine ⟨underTapeChange state, ⟨rfl, rfl⟩, underTapeChange_sound state h, rfl, ?_⟩
  simp only [List.mem_cons, List.not_mem_nil, or_false] at h hc
  rcases hc with rfl | rfl | rfl | rfl <;> refine ⟨_, rfl, _, rfl, rfl, rfl, nofun, ?_, ?_, rfl, ?_⟩ <;>
    rcases h with rfl | rfl <;> first | decide | exact fun slot e => by cases e <;> decide

/-- A request whose target stands in the lit gate meets Obligations.Preemption: a GOTO_SLOT to it and a MOVE_BY of 0. -/
theorem witness_Preemption_standing :
    ∀ c ∈ [Instr.gotoSlot 80, .moveBy 0], ∃ s : State, Ready s ∧ Mechanism s.tmc ∧ ∃ q, requestOf c = some q ∧
      ∃ old, s.tmc.op = some old ∧ s.ca.inService = some old ∧ s.ca.slots.directive = none ∧ s.tmc.n ≠ 0 ∧
      (∀ slot, q.kind = .changeTo slot → slot ≤ s.tmc.n) ∧
      (s.ca.masks.directive = false ∧ s.ca.levels.directive < old.level ∧ s.tmc.homed = true ∧
        (s.tmc.state = .darken ∨ s.tmc.state = .turn) ∧ (s.cu.flag = false ∨ s.cu.traySel = .ignore)) ∧
      old.source = .tape ∧
      (changesSlide q.kind = true ∧ targetOf s.tmc q.kind = s.tmc.p ∧ s.tmc.gate = .loaded) ∧
      (∀ source, s.ca.slots.get source = none) ∧ s.lc.state = .lit ∧ s.lc.hold ≠ .none := by
  intro c hc
  refine ⟨underTapeChange .darken, ⟨rfl, rfl⟩, underTapeChange_sound _ (by decide), ?_⟩
  simp only [List.mem_cons, List.not_mem_nil, or_false] at hc
  rcases hc with rfl | rfl <;>
    refine ⟨_, rfl, _, rfl, rfl, rfl, nofun, ?_, ⟨rfl, by decide, rfl, by decide, .inl rfl⟩, rfl, by decide,
      by intro source; cases source <;> rfl, rfl, nofun⟩ <;> exact fun slot e => by cases e <;> decide

/-- A request that may not take over, during a homing, meets Obligations.Preemption. -/
theorem witness_Preemption_waits :
    ∀ c ∈ [Instr.home, .gotoSlot 3, .moveBy 12, .clearGate], ∃ s : State, Ready s ∧ Mechanism s.tmc ∧
      ∃ q, requestOf c = some q ∧ ∃ old, s.tmc.op = some old ∧ s.ca.inService = some old ∧
      s.ca.slots.directive = none ∧ s.tmc.n ≠ 0 ∧ (∀ slot, q.kind = .changeTo slot → slot ≤ s.tmc.n) ∧
      s.tmc.homed = false := by
  intro c hc
  refine ⟨{ State.reset with
    ca := { Ca.reset with inService := some ⟨.home, .tape, 3⟩ }
    tmc := { Tmc.reset with tcode := 1, state := .darken, n := 80, homing := true, op := some ⟨.home, .tape, 3⟩ } },
    ⟨rfl, rfl⟩, by constructor <;> decide, ?_⟩
  simp only [List.mem_cons, List.not_mem_nil, or_false] at hc
  rcases hc with rfl | rfl | rfl | rfl <;> refine ⟨_, rfl, _, rfl, rfl, rfl, nofun, ?_, rfl⟩ <;>
    exact fun slot e => by cases e <;> decide

/-- What Obligations.RunSettings assumes is met, clause by clause. -/
theorem witness_RunSettings :
    (∃ channel : Byte, ∃ slot : Byte, ∃ count : Byte, ∃ mode : Byte, ∃ dwell : Byte, ∃ s : State, Ready s ∧ (3 <
    channel.toNat ∨ slot = 0 ∨ 120 < slot.toNat ∨ 119 < count.toNat ∨ 8 ≤ mode.toNat ∨ dwell = 0)) ∧
    (∃ channel : Byte, ∃ slot : Byte, ∃ count : Byte, ∃ mode : Byte, ∃ dwell : Byte, ∃ s : State, Ready s ∧ ∃ c, c =
    BitVec.ofNat 2 channel.toNat ∧ channel.toNat ≤ 3 ∧ slot ≠ 0 ∧ slot.toNat ≤ 120 ∧ count.toNat ≤ 119 ∧ mode.toNat <
    8 ∧ dwell ≠ 0 ∧ ∃ other : BitVec 2, other ≠ c) ∧
    (∃ s : State, Ready s) ∧
    (∃ order : Byte, ∃ s : State, Ready s ∧ 1 < order.toNat) ∧
    (∃ order : Byte, ∃ s : State, Ready s ∧ order.toNat ≤ 1) :=
  ⟨⟨2, 2, 2, 208, 2, State.reset, ⟨rfl, rfl⟩, by decide⟩,
   ⟨2, 2, 2, 2, 2, State.reset, ⟨rfl, rfl⟩, _, rfl, by decide, by decide, by decide, by decide, by decide, by decide,
   0, by decide⟩,
   ⟨State.reset, ⟨rfl, rfl⟩⟩,
   ⟨2, State.reset, ⟨rfl, rfl⟩, by decide⟩,
   ⟨1, State.reset, ⟨rfl, rfl⟩, by decide⟩⟩

/-- What Obligations.RunTriggers assumes is met, clause by clause. -/
theorem witness_RunTriggers :
    (∃ s : State, s.notices = [] ∧ ∃ select : Byte, ∃ values : Byte, s.pu.inReset = false ∧ (16 ≤ select.toNat ∨ 16 ≤
    values.toNat)) ∧
    (∃ s : State, s.notices = [] ∧ ∃ select : Byte, ∃ values : Byte, s.pu.inReset = false ∧ select.toNat < 16 ∧
    values.toNat < 16 ∧ (s.rcu.pendingMarker ≠ none ∨ (∀ c, (s.rcu.channels.get c).request = false)) ∧ True) ∧
    (∃ s : State, s.notices = [] ∧ ∃ channel : Byte, s.pu.inReset = false ∧ 3 < channel.toNat) ∧
    (∃ s : State, s.notices = [] ∧ ∃ channel : Byte, s.pu.inReset = false ∧ ∃ c, c = BitVec.ofNat 2 channel.toNat ∧ ∃
    k, k = s.rcu.channels.get c ∧ channel.toNat ≤ 3 ∧ k.mask = true) ∧
    (∃ s : State, s.notices = [] ∧ ∃ channel : Byte, s.pu.inReset = false ∧ ∃ c, c = BitVec.ofNat 2 channel.toNat ∧ ∃
    k, k = s.rcu.channels.get c ∧ channel.toNat ≤ 3 ∧ k.mask = false ∧ k.request = true) ∧
    (∃ s : State, s.notices = [] ∧ ∃ channel : Byte, s.pu.inReset = false ∧ ∃ c, c = BitVec.ofNat 2 channel.toNat ∧ ∃
    k, k = s.rcu.channels.get c ∧ channel.toNat ≤ 3 ∧ k.mask = false ∧ k.request = false ∧ s.rcu.pendingMarker ≠ none) ∧
    (∃ s : State, s.notices = [] ∧ ∃ channel : Byte, s.pu.inReset = false ∧ ∃ c, c = BitVec.ofNat 2 channel.toNat ∧ ∃
    k, k = s.rcu.channels.get c ∧ channel.toNat ≤ 3 ∧ k.mask = false ∧ k.request = false ∧ s.rcu.pendingMarker = none
    ∧ s.rcu.serviceMarker = none ∧ (∀ other, (s.rcu.channels.get other).request = false) ∧ s.tmc.state = .jammed ∧
    s.ca.inService = none ∧ s.ca.slots.run = none) ∧
    (∃ s : State, s.notices = [] ∧ ∃ c : BitVec 2, ∃ k, k = s.rcu.channels.get c ∧ k.dwellTimer ≠ some 0) ∧
    (∃ s : State, s.notices = [] ∧ ∃ c : BitVec 2, ∃ k, k = s.rcu.channels.get c ∧ k.dwellTimer = some 0 ∧
    s.rcu.pendingMarker ≠ none) ∧
    (∃ s : State, s.notices = [] ∧ ∃ c : BitVec 2, ∃ k, k = s.rcu.channels.get c ∧ k.dwellTimer = some 0 ∧
    s.rcu.pendingMarker = none ∧ s.rcu.serviceMarker = none ∧ k.mask = false ∧ (∀ other, (s.rcu.channels.get
    other).request = false) ∧ s.tmc.state = .jammed ∧ s.ca.inService = none ∧ s.ca.slots.run = none) :=
  ⟨⟨State.reset, by decide, 2, 208, by decide, by decide⟩,
   ⟨State.reset, by decide, 2, 2, by decide, by decide, by decide, by decide, trivial⟩,
   ⟨State.reset, by decide, 208, by decide, by decide⟩,
   ⟨State.reset, by decide, 2, by decide, _, rfl, _, rfl, by decide, by decide⟩,
   ⟨{ State.reset with
      rcu := { Rcu.reset with
        channels := ⟨Channel.cleared, Channel.cleared, Channel.cleared, { Channel.cleared with baseCount := 5, slot := 32, count := 3, down := true, demand := true, mask := false, request := true, armed := true, dwellTimer := some 0 }⟩ } },
   by decide, 3, by decide, _, rfl, _, rfl, by decide, by decide, by decide⟩,
   ⟨{ State.reset with
      rcu := { Rcu.reset with
        channels := ⟨Channel.cleared, { Channel.cleared with baseCount := 5, count := 2, down := true, mask := false, tc := true }, Channel.cleared, Channel.cleared⟩,
        pendingMarker := some { channel := 0, detached := false } } },
   by decide, 1, by decide, _, rfl, _, rfl, by decide, by decide, by decide, by decide⟩,
   ⟨{ State.reset with
      rcu := { Rcu.reset with
        channels := ⟨Channel.cleared, { Channel.cleared with baseCount := 5, slot := 60, count := 2, reload := true, mask := false, armed := true }, Channel.cleared, Channel.cleared⟩ },
      tmc := { Tmc.reset with state := .jammed } },
   by decide, 1, by decide, _, rfl, _, rfl, by decide, by decide, by decide, by decide, by decide, by decide, by
   decide, by decide, by decide⟩,
   ⟨State.reset, by decide, 0, _, rfl, by decide⟩,
   ⟨{ State.reset with
      rcu := { Rcu.reset with
        channels := ⟨{ Channel.cleared with baseCount := 5, slot := 80, down := true, reload := true, mask := false, tc := true, dwellTimer := some 0 }, Channel.cleared, Channel.cleared, Channel.cleared⟩,
        pendingMarker := some { channel := 3, detached := false } } },
   by decide, 0, _, rfl, by decide, by decide⟩,
   ⟨{ State.reset with
      rcu := { Rcu.reset with
        channels := ⟨Channel.cleared, Channel.cleared, Channel.cleared, { Channel.cleared with baseCount := 5, slot := 57, down := true, demand := true, mask := false, dwellTimer := some 0 }⟩ },
      tmc := { Tmc.reset with state := .jammed } },
   by decide, 3, _, rfl, by decide, by decide, by decide, by decide, by decide, by decide, by decide, by decide⟩⟩

/-- What Obligations.RunCompletion assumes is met, clause by clause. -/
theorem witness_RunCompletion :
    (∃ s : State, s.notices = [] ∧ s.tmc.state = .settle ∧ s.tmc.settleTimer = some 0 ∧ s.tmc.gate = .loaded ∧ s.tmc.n
    ≠ 0 ∧ ∃ op, s.tmc.op = some op ∧ op.source = .run ∧ s.ca.inService = some op ∧ (∀ source, s.ca.slots.get source =
    none) ∧ s.rcu.pendingMarker = none ∧ (∀ other, (s.rcu.channels.get other).mask = true ∨ (s.rcu.channels.get
    other).request = false ∨ s.rcu.serviceMarker = some ⟨other, false⟩) ∧ s.ce.awaits? 4 = none ∧ ∃ m,
    s.rcu.serviceMarker = some m ∧ m.detached = false ∧ ∃ k, k = s.rcu.channels.get m.channel ∧ 0 < k.count) ∧
    (∃ s : State, s.notices = [] ∧ s.tmc.state = .settle ∧ s.tmc.settleTimer = some 0 ∧ s.tmc.gate = .loaded ∧ s.tmc.n
    ≠ 0 ∧ ∃ op, s.tmc.op = some op ∧ op.source = .run ∧ s.ca.inService = some op ∧ (∀ source, s.ca.slots.get source =
    none) ∧ s.rcu.pendingMarker = none ∧ (∀ other, (s.rcu.channels.get other).mask = true ∨ (s.rcu.channels.get
    other).request = false ∨ s.rcu.serviceMarker = some ⟨other, false⟩) ∧ s.ce.awaits? 4 = none ∧ ∃ m,
    s.rcu.serviceMarker = some m ∧ m.detached = false ∧ ∃ k, k = s.rcu.channels.get m.channel ∧ k.count = 0 ∧ k.reload
    = true) ∧
    (∃ s : State, s.notices = [] ∧ s.tmc.state = .settle ∧ s.tmc.settleTimer = some 0 ∧ s.tmc.gate = .loaded ∧ s.tmc.n
    ≠ 0 ∧ ∃ op, s.tmc.op = some op ∧ op.source = .run ∧ s.ca.inService = some op ∧ (∀ source, s.ca.slots.get source =
    none) ∧ s.rcu.pendingMarker = none ∧ (∀ other, (s.rcu.channels.get other).mask = true ∨ (s.rcu.channels.get
    other).request = false ∨ s.rcu.serviceMarker = some ⟨other, false⟩) ∧ s.ce.awaits? 4 = none ∧ ∃ m,
    s.rcu.serviceMarker = some m ∧ m.detached = false ∧ ∃ k, k = s.rcu.channels.get m.channel ∧ k.count = 0 ∧ k.reload
    = false) :=
  ⟨⟨{ State.reset with
      ca := { Ca.reset with inService := some { kind := .changeTo 80, source := .run, level := 2 } },
      rcu := { Rcu.reset with
        channels := ⟨Channel.cleared, Channel.cleared, Channel.cleared, { Channel.cleared with baseCount := 5, slot := 80, count := 1, reload := true, mask := false, tc := true, request := true, dwellTimer := some 0 }⟩,
        serviceMarker := some { channel := 3, detached := false } },
      tmc := { Tmc.reset with
        state := .settle, n := 80, gate := .loaded, op := some { kind := .changeTo 80, source := .run, level := 2 },
        settleTimer := some 0 } },
   by decide, by decide, by decide, by decide, by decide, _, rfl, by decide, by decide, by intro x; cases x <;>
   decide, by decide, by decide, by decide, _, rfl, by decide, _, rfl, by decide⟩,
   ⟨{ State.reset with
      ca := { Ca.reset with inService := some { kind := .changeTo 80, source := .run, level := 1 } },
      rcu := { Rcu.reset with
        channels := ⟨Channel.cleared, Channel.cleared, Channel.cleared, { Channel.cleared with baseCount := 5, slot := 80, demand := true, reload := true, request := true }⟩,
        serviceMarker := some { channel := 3, detached := false } },
      tmc := { Tmc.reset with
        state := .settle, n := 80, gate := .loaded, op := some { kind := .changeTo 80, source := .run, level := 1 },
        settleTimer := some 0 } },
   by decide, by decide, by decide, by decide, by decide, _, rfl, by decide, by decide, by intro x; cases x <;>
   decide, by decide, by decide, by decide, _, rfl, by decide, _, rfl, by decide, by decide⟩,
   ⟨{ State.reset with
      ca := { Ca.reset with inService := some { kind := .changeTo 1, source := .run, level := 1 } },
      rcu := { Rcu.reset with serviceMarker := some { channel := 3, detached := false } },
      tmc := { Tmc.reset with
        state := .settle, n := 80, gate := .loaded, op := some { kind := .changeTo 1, source := .run, level := 1 },
        settleTimer := some 0 } },
   by decide, by decide, by decide, by decide, by decide, _, rfl, by decide, by decide, by intro x; cases x <;>
   decide, by decide, by decide, by decide, _, rfl, by decide, _, rfl, by decide, by decide⟩⟩

/-- What Obligations.ShowDirectives assumes is met, clause by clause. -/
theorem witness_ShowDirectives :
    (∃ s : State, Ready s ∧ (s.ce.active = true ∨ s.cu.flag = true)) ∧
    (∃ lo : Byte, ∃ hi : Byte, ∃ s : State, Ready s ∧ ∃ i, i = lo.toNat + 256 * hi.toNat ∧ s.ce.active = false ∧
    s.cu.flag = false ∧ 3968 ≤ i) ∧
    (∃ lo : Byte, ∃ hi : Byte, ∃ s : State, Ready s ∧ ∃ i, i = lo.toNat + 256 * hi.toNat ∧ s.ce.active = false ∧
    s.cu.flag = false ∧ i < 3968) ∧
    (∃ s : State, Ready s ∧ s.ce.showState ≠ .running) ∧
    (∃ s : State, Ready s ∧ s.ce.showState = .running) ∧
    (∃ s : State, Ready s ∧ s.ce.showState ≠ .paused) ∧
    (∃ s : State, Ready s ∧ s.ce.showState = .paused ∧ s.ce.phase = .loading) ∧
    (∃ s : State, Ready s ∧ s.ca.slots.cue = none) ∧
    (∃ s : State, Ready s ∧ s.ca.slots.cue ≠ none) ∧
    (∃ enable : Byte, ∃ s : State, Ready s ∧ 1 < enable.toNat) ∧
    (∃ enable : Byte, ∃ s : State, Ready s ∧ enable.toNat ≤ 1 ∧ s.ce.waiting? = none) :=
  ⟨⟨{ State.reset with ce := { Ce.reset with showState := .paused } }, ⟨rfl, rfl⟩, by decide⟩,
   ⟨2, 208, State.reset, ⟨rfl, rfl⟩, _, rfl, by decide, by decide, by decide⟩,
   ⟨2, 2, State.reset, ⟨rfl, rfl⟩, _, rfl, by decide, by decide, by decide⟩,
   ⟨State.reset, ⟨rfl, rfl⟩, by decide⟩,
   ⟨{ State.reset with ce := { Ce.reset with showState := .running } }, ⟨rfl, rfl⟩, by decide⟩,
   ⟨State.reset, ⟨rfl, rfl⟩, by decide⟩,
   ⟨{ State.reset with ce := { Ce.reset with showState := .paused } }, ⟨rfl, rfl⟩, by decide, by decide⟩,
   ⟨State.reset, ⟨rfl, rfl⟩, by decide⟩,
   ⟨{ State.reset with
      ca := { Ca.reset with
        slots := { directive := none, cue := some { kind := .clearGate, level := 1 }, remote := none, tape := none, run := none } } },
   ⟨rfl, rfl⟩, by decide⟩,
   ⟨2, State.reset, ⟨rfl, rfl⟩, by decide⟩,
   ⟨1, State.reset, ⟨rfl, rfl⟩, by decide, by decide⟩⟩

/-- What Obligations.AwaitResolved assumes is met, clause by clause. -/
theorem witness_AwaitResolved :
    (∃ s : State, Ready s ∧ s.ce.awaits? 5 = none) ∧
    (∃ s : State, Ready s ∧ ∃ r, s.ce.awaits? 5 = some r ∧ recHasSlide r = true ∧ s.ca.slots.cue ≠ none) ∧
    (∃ s : State, Ready s ∧ ∃ r, s.ce.awaits? 5 = some r ∧ recHasSlide r = false ∧ recPlain r ∧ s.ce.queue.length = 1
    ∧ (recNextIndex s.ce.index r).1 < 3968) ∧
    (∃ s : State, Ready s ∧ s.ce.waiting? = none) ∧
    (∃ s : State, Ready s ∧ ∃ r, s.ce.waiting? = some r ∧ ∃ expired, expired = (recIsAwait r && decide (0 < recTime r)
    && reached s.ce.clock (s.ce.startInstant + BitVec.ofNat 32 (10 * recTime r))) ∧ expired = false) ∧
    (∃ s : State, Ready s ∧ ∃ r, s.ce.waiting? = some r ∧ ∃ expired, expired = (recIsAwait r && decide (0 < recTime r)
    && reached s.ce.clock (s.ce.startInstant + BitVec.ofNat 32 (10 * recTime r))) ∧ expired = true ∧ recHasSlide r =
    true ∧ s.ca.slots.cue ≠ none) ∧
    (∃ s : State, Ready s ∧ ∃ r, s.ce.waiting? = some r ∧ ∃ expired, expired = (recIsAwait r && decide (0 < recTime r)
    && reached s.ce.clock (s.ce.startInstant + BitVec.ofNat 32 (10 * recTime r))) ∧ expired = true ∧ recHasSlide r =
    false ∧ recPlain r ∧ s.ce.queue.length = 1 ∧ (recAltIndex s.ce.index r).1 < 3968) :=
  ⟨⟨State.reset, ⟨rfl, rfl⟩, by decide⟩,
   ⟨{ State.reset with
      ce := { Ce.reset with
        showState := .running,
        queue := [{ index := 3, copy := [21, 1, 0, 0, 5, 0, 255, 255, 1, 3, 0, 2, 3, 0, 3, 0], valid := true, tag := .sequential }],
        phase := .waiting },
      ca := { Ca.reset with
        slots := { directive := none, cue := some { kind := .clearGate, level := 1 }, remote := none, tape := none, run := none } } },
   ⟨rfl, rfl⟩, _, rfl, by decide, by decide⟩,
   ⟨{ State.reset with
      ce := { Ce.reset with
        showState := .running,
        queue := [{ index := 3, copy := [5, 1, 0, 0, 5, 0, 255, 255, 1, 3, 0, 2, 1, 0, 0, 0], valid := true, tag := .sequential }],
        phase := .waiting } },
   ⟨rfl, rfl⟩, _, rfl, by decide, ⟨by decide, by decide⟩, by decide, by decide⟩,
   ⟨State.reset, ⟨rfl, rfl⟩, by decide⟩,
   ⟨{ State.reset with
      ce := { Ce.reset with
        showState := .running,
        queue := [{ index := 3, copy := [1, 1, 1, 0, 5, 0, 255, 0, 1, 3, 5, 2, 4, 0, 3, 0], valid := true, tag := .sequential }],
        phase := .waiting } },
   ⟨rfl, rfl⟩, _, rfl, _, rfl, by decide⟩,
   ⟨{ State.reset with
      ce := { Ce.reset with
        showState := .running, clock := 384,
        queue := [{ index := 3, copy := [21, 1, 4, 0, 5, 0, 255, 255, 1, 3, 0, 2, 250, 255, 2, 0], valid := true, tag := .sequential }],
        phase := .waiting },
      ca := { Ca.reset with
        slots := { directive := none, cue := some { kind := .clearGate, level := 1 }, remote := none, tape := none, run := none } } },
   ⟨rfl, rfl⟩, _, rfl, _, rfl, by decide, by decide, by decide⟩,
   ⟨{ State.reset with
      ce := { Ce.reset with
        showState := .running, clock := 96,
        queue := [{ index := 3, copy := [3, 1, 5, 0, 5, 0, 255, 255, 1, 3, 0, 2, 1, 0, 3, 0], valid := true, tag := .sequential }],
        phase := .waiting } },
   ⟨rfl, rfl⟩, _, rfl, _, rfl, by decide, by decide, ⟨by decide, by decide⟩, by decide, by decide⟩⟩

/-- What Obligations.Timeline assumes is met, clause by clause. -/
theorem witness_Timeline :
    (∃ s : State, s.notices = [] ∧ s.ce.waiting? = none) ∧
    (∃ s : State, s.notices = [] ∧ ∃ r, s.ce.waiting? = some r ∧ ∃ at_, at_ = firesAt s.ce s.tmc.outTime r ∧ (recForm
    r ≠ 1 ∨ reached s.ce.clock at_ = false)) ∧
    (∃ s : State, s.notices = [] ∧ ∃ r, s.ce.waiting? = some r ∧ ∃ at_, at_ = firesAt s.ce s.tmc.outTime r ∧ recForm r
    = 1 ∧ reached s.ce.clock at_ = true ∧ recHasSlide r = true ∧ s.ca.slots.cue ≠ none) ∧
    (∃ s : State, s.notices = [] ∧ ∃ r, s.ce.waiting? = some r ∧ ∃ at_, at_ = firesAt s.ce s.tmc.outTime r ∧ ∃ at_T,
    at_T = s.ce.startInstant + BitVec.ofNat 32 (10 * recTime r) ∧ recForm r = 1 ∧ reached s.ce.clock at_ = true ∧
    recHasSlide r = true ∧ s.ca.slots.cue = none ∧ s.ce.pendingMarker = none ∧ recPlain r ∧ reached s.ce.clock at_T =
    false ∧ s.tmc.state = .jammed ∧ s.ca.inService = none) ∧
    (∃ s : State, s.notices = [] ∧ ∃ r, s.ce.waiting? = some r ∧ ∃ at_, at_ = firesAt s.ce s.tmc.outTime r ∧ recForm r
    = 1 ∧ reached s.ce.clock at_ = true ∧ recHasSlide r = false ∧ recPlain r ∧ recRepeat r = 0 ∧ s.ce.queue.length = 1
    ∧ (recNextIndex s.ce.index r).1 < 3968) ∧
    (∃ s : State, s.notices = [] ∧ ∃ now, now = decide (s.ce.showState = .running ∧ s.ce.phase = .fired ∧ reached
    s.ce.clock s.ce.timelineInstant = true) ∧ now = false) ∧
    (∃ s : State, s.notices = [] ∧ ∃ now, now = decide (s.ce.showState = .running ∧ s.ce.phase = .fired ∧ reached
    s.ce.clock s.ce.timelineInstant = true) ∧ ∃ next, next = recNextIndex s.ce.index s.ce.fired ∧ now = true ∧ recForm
    s.ce.fired = 1 ∧ recRepeat s.ce.fired = 0 ∧ 3968 ≤ next.1) ∧
    (∃ s : State, s.notices = [] ∧ ∃ now, now = decide (s.ce.showState = .running ∧ s.ce.phase = .fired ∧ reached
    s.ce.clock s.ce.timelineInstant = true) ∧ ∃ next, next = recNextIndex s.ce.index s.ce.fired ∧ now = true ∧ recForm
    s.ce.fired = 1 ∧ recRepeat s.ce.fired = 0 ∧ next.1 < 3968 ∧ s.ce.queue.length = 1) ∧
    (∃ s : State, s.notices = [] ∧ ∃ now, now = decide (s.ce.showState = .running ∧ s.ce.phase = .fired ∧ reached
    s.ce.clock s.ce.timelineInstant = true) ∧ ∃ next, next = recNextIndex s.ce.index s.ce.fired ∧ now = true ∧ recForm
    s.ce.fired = 1 ∧ recRepeat s.ce.fired = 0 ∧ ∃ e, s.ce.queue[1]? = some e ∧ next.1 < 3968 ∧ (e.index ≠ next.1 ∨
    e.tag ≠ next.2)) ∧
    (∃ s : State, s.notices = [] ∧ ∃ now, now = decide (s.ce.showState = .running ∧ s.ce.phase = .fired ∧ reached
    s.ce.clock s.ce.timelineInstant = true) ∧ ∃ next, next = recNextIndex s.ce.index s.ce.fired ∧ now = true ∧ recForm
    s.ce.fired = 1 ∧ recRepeat s.ce.fired = 0 ∧ ∃ e, s.ce.queue[1]? = some e ∧ next.1 < 3968 ∧ e.index = next.1 ∧
    e.tag = next.2 ∧ s.ce.queue.length = 2 ∧ e.valid = false) :=
  ⟨⟨State.reset, by decide, by decide⟩,
   ⟨{ State.reset with
      ce := { Ce.reset with
        showState := .running,
        queue := [{ index := 3, copy := [35, 1, 7, 0, 5, 0, 255, 255, 1, 3, 0, 2, 0, 0, 3, 0], valid := true, tag := .sequential }],
        phase := .waiting } },
   by decide, _, rfl, _, rfl, by decide⟩,
   ⟨{ State.reset with
      ce := { Ce.reset with
        showState := .running,
        queue := [{ index := 3, copy := [33, 1, 0, 0, 5, 0, 255, 255, 1, 3, 0, 2, 2, 0, 1, 0], valid := true, tag := .sequential }],
        phase := .waiting },
      ca := { Ca.reset with
        slots := { directive := none, cue := some { kind := .clearGate, level := 1 }, remote := none, tape := none, run := none } } },
   by decide, _, rfl, _, rfl, by decide, by decide, by decide, by decide⟩,
   ⟨{ State.reset with
      ce := { Ce.reset with
        showState := .running,
        queue := [{ index := 3, copy := [33, 1, 7, 0, 5, 0, 255, 255, 1, 3, 0, 2, 1, 0, 3, 0], valid := true, tag := .sequential }],
        phase := .waiting },
      tmc := { Tmc.reset with state := .jammed } },
   by decide, _, rfl, _, rfl, _, rfl, by decide, by decide, by decide, by decide, by decide, ⟨by decide, by decide⟩,
   by decide, by decide, by decide⟩,
   ⟨{ State.reset with
      ce := { Ce.reset with
        showState := .running, clock := 92,
        queue := [{ index := 3, copy := [1, 1, 1, 0, 5, 0, 255, 255, 1, 3, 0, 2, 1, 0, 1, 0], valid := true, tag := .sequential }],
        phase := .waiting } },
   by decide, _, rfl, _, rfl, by decide, by decide, by decide, ⟨by decide, by decide⟩, by decide, by decide, by
   decide⟩,
   ⟨State.reset, by decide, _, rfl, by decide⟩,
   ⟨{ State.reset with
      ce := { Ce.reset with
        showState := .running, phase := .fired, fired := [33, 1, 0, 0, 5, 0, 255, 255, 1, 3, 0, 2, 250, 255, 2, 0] } },
   by decide, _, rfl, _, rfl, by decide, by decide, by decide, by decide⟩,
   ⟨{ State.reset with
      ce := { Ce.reset with
        showState := .running,
        queue := [{ index := 3, copy := [17, 1, 5, 0, 5, 0, 255, 255, 1, 3, 0, 2, 4, 0, 0, 0], valid := true, tag := .sequential }],
        phase := .fired, fired := [17, 1, 5, 0, 5, 0, 255, 255, 1, 3, 0, 2, 4, 0, 0, 0] } },
   by decide, _, rfl, _, rfl, by decide, by decide, by decide, by decide, by decide⟩,
   ⟨{ State.reset with
      ce := { Ce.reset with
        showState := .running,
        queue := [{ index := 3, copy := [1, 1, 6, 0, 5, 0, 255, 255, 1, 3, 0, 2, 4, 0, 1, 0], valid := false, tag := .sequential }, { index := 0, copy := [], valid := false, tag := .next }],
        phase := .fired, fired := [1, 1, 6, 0, 5, 0, 255, 255, 1, 3, 0, 2, 4, 0, 1, 0] } },
   by decide, _, rfl, _, rfl, by decide, by decide, by decide, _, rfl, by decide, by decide⟩,
   ⟨{ State.reset with
      ce := { Ce.reset with
        showState := .running,
        queue := [{ index := 3, copy := [1, 1, 2, 0, 5, 0, 255, 255, 1, 3, 0, 2, 2, 0, 2, 0], valid := false, tag := .sequential }, { index := 2, copy := [], valid := false, tag := .next }],
        phase := .fired, fired := [1, 1, 2, 0, 5, 0, 255, 255, 1, 3, 0, 2, 2, 0, 2, 0] } },
   by decide, _, rfl, _, rfl, by decide, by decide, by decide, _, rfl, by decide, by decide, by decide, by decide, by
   decide⟩⟩

/-- What Obligations.DirectivesAnswered assumes is met, clause by clause. -/
theorem witness_DirectivesAnswered :
    (∃ c : Instr, ∃ s : State, s.notices = [] ∧ ∃ code, directiveCode c = some code ∧ s.pu.inReset = true) ∧
    (∃ c : Instr, ∃ s : State, s.notices = [] ∧ ∃ code, directiveCode c = some code ∧ s.pu.inReset = false) :=
  ⟨⟨.home, { State.reset with pu := { Pu.reset with inReset := true } }, by decide, _, rfl, by decide⟩,
   ⟨.home, State.reset, by decide, _, rfl, by decide⟩⟩

/-- What Obligations.DirectiveStream assumes is met, clause by clause. -/
theorem witness_DirectiveStream :
    (∃ b : Byte, ∃ s : State, BusFree s ∧ Ram s ∧ s.pu.inReset = false ∧ ∃ n, operandCount? b = some n ∧ 0 < n) ∧
    (∃ b : Byte, ∃ s : State, BusFree s ∧ Ram s ∧ s.pu.inReset = false ∧ operandCount? b = none) ∧
    (∃ b : Byte, ∃ s : State, BusFree s ∧ Ram s ∧ s.pu.inReset = false ∧ operandCount? b = some 0 ∧ b ≠ 1) ∧
    (∃ s : State, BusFree s ∧ Ram s ∧ s.pu.inReset = true) ∧
    (∃ s : State, BusFree s ∧ Ram s ∧ s.pu.inReset = false ∧ s.rw.lines.length = 11) ∧
    (∃ s : State, BusFree s ∧ Ram s ∧ s.pu.inReset = false ∧ s.dd.collecting = false) ∧
    (∃ s : State, BusFree s ∧ Ram s ∧ s.pu.inReset = false ∧ s.dd.collecting = true ∧ s.dd.received + 1 ≠ s.dd.expected) ∧
    (∃ s : State, BusFree s ∧ Ram s ∧ s.pu.inReset = false ∧ s.dd.collecting = true ∧ s.dd.received + 1 = s.dd.expected) :=
  ⟨⟨2, State.reset, ⟨rfl, rfl, by decide⟩, rfl, by decide, _, rfl, by decide⟩,
   ⟨208, State.reset, ⟨rfl, rfl, by decide⟩, rfl, by decide, by decide⟩,
   ⟨64, State.reset, ⟨rfl, rfl, by decide⟩, rfl, by decide, by decide, by decide⟩,
   ⟨{ State.reset with pu := { Pu.reset with inReset := true } }, ⟨rfl, rfl, by decide⟩, rfl, rfl⟩,
   ⟨State.reset, ⟨rfl, rfl, by decide⟩, rfl, rfl, rfl⟩,
   ⟨State.reset, ⟨rfl, rfl, by decide⟩, rfl, by decide, by decide⟩,
   ⟨{ State.reset with dd := { Dd.reset with collecting := true } }, ⟨rfl, rfl, by decide⟩, rfl, by decide, by decide, by
   decide⟩,
   ⟨{ State.reset with dd := { Dd.reset with collecting := true, expected := 4, received := 3 } }, ⟨rfl, rfl, by decide⟩, rfl, by decide, by decide, by decide⟩⟩

/-- What Obligations.HostCycles assumes is met, clause by clause. -/
theorem witness_HostCycles :
    (∃ a : Address, ∃ s : State, s.notices = [] ∧ Ram s ∧ ∃ offset, offset = (a - s.pu.base).toNat ∧ BusFree s ∧ (s.pu.inReset
    = true ∨ 65536 ≤ offset ∨ 3 ≤ offset ∧ offset < 0x0600 ∨ 0x0780 ≤ offset ∧ offset < 0x0800)) ∧
    (∃ s : State, s.notices = [] ∧ Ram s ∧ ∃ c, s.pu.own = some c) ∧
    (∃ s : State, s.notices = [] ∧ Ram s ∧ s.pu.own = none ∧ s.pu.waitCount = 8 ∧ s.pu.waiting = true ∧ s.pu.inReset = false) :=
  ⟨⟨787591, State.reset, by decide, rfl, _, rfl, ⟨rfl, rfl, by decide⟩, by decide⟩,
   ⟨{ State.reset with
      pu := { Pu.reset with
        own := some { requester := .reportWriter, offset := 271, data := some 254, live := true } } },
   by decide, rfl, _, rfl⟩,
   ⟨{ State.reset with pu := { Pu.reset with rwRequest := some { offset := 256, data := 1 }, waitCount := 8 } }, by
   decide, rfl, by decide, by decide, by decide, by decide⟩⟩

/-- A host cycle held for an own cycle meets Obligations.HostCycles: one in progress, and at the hold limit the Cue
Engine's read before the Report Writer's write, and that write alone. -/
theorem witness_HostCycles_held (data : Option Byte) :
    (∃ s : State, s.notices = [] ∧ Ram s ∧ HeldFor s.pu ⟨.reportWriter, 0x10F, data, false⟩ s.pu) ∧
    (∃ s : State, s.notices = [] ∧ Ram s ∧ s.pu.rwRequest ≠ none ∧ ∃ running,
      HeldFor s.pu ⟨.cueEngine, 0x805, none, true⟩ running ∧ running ≠ s.pu) ∧
    (∃ s : State, s.notices = [] ∧ Ram s ∧ ∃ running,
      HeldFor s.pu ⟨.reportWriter, 0x100, some 1, true⟩ running ∧ running ≠ s.pu) :=
  ⟨⟨{ State.reset with pu := { Pu.reset with own := some ⟨.reportWriter, 0x10F, data, false⟩ } }, rfl, rfl, rfl, .inl rfl⟩,
   ⟨{ State.reset with pu := { Pu.reset with ceRequest := some 0x805, rwRequest := some ⟨0x100, 1⟩, waitCount := 8 } },
    rfl, rfl, nofun, _, ⟨rfl, .inr ⟨rfl, rfl, rfl, .inl ⟨_, rfl, rfl, rfl⟩⟩⟩, by decide⟩,
   ⟨{ State.reset with pu := { Pu.reset with rwRequest := some ⟨0x100, 1⟩, waitCount := 8 } }, rfl, rfl, _,
    ⟨rfl, .inr ⟨rfl, rfl, rfl, .inr ⟨rfl, _, rfl, rfl, rfl⟩⟩⟩, by decide⟩⟩

/-- What Obligations.SnoopedWrites assumes is met, clause by clause. -/
theorem witness_SnoopedWrites :
    (∃ record : BitVec 12, record.toNat < 3968) ∧
    (∃ s : State, BusFree s ∧ Ram s ∧ s.pu.inReset = false) ∧
    (∃ s : State, BusFree s ∧ Ram s ∧ s.pu.inReset = false ∧ ∃ record : BitVec 12, 3968 ≤ record.toNat) ∧
    (∃ s : State, BusFree s ∧ Ram s ∧ s.pu.inReset = false ∧ ∃ record : BitVec 12, record.toNat < 3968 ∧ (∀ e ∈ s.ce.queue,
    e.index ≠ record.toNat)) ∧
    (∃ s : State, BusFree s ∧ Ram s ∧ s.pu.inReset = false ∧ ∃ record : BitVec 12, record.toNat < 3968 ∧ ∃ e, s.ce.queue = [e]
    ∧ e.index = record.toNat ∧ (s.ce.phase = .loading ∨ s.ce.phase = .waiting)) ∧
    (∃ s : State, BusFree s ∧ Ram s ∧ s.pu.inReset = false ∧ ∃ record : BitVec 12, record.toNat < 3968 ∧ ∃ e, s.ce.queue = [e]
    ∧ e.index = record.toNat ∧ (s.ce.phase = .held ∨ s.ce.phase = .fired)) :=
  ⟨⟨0, by decide⟩,
   ⟨State.reset, ⟨rfl, rfl, by decide⟩, rfl, by decide⟩,
   ⟨State.reset, ⟨rfl, rfl, by decide⟩, rfl, by decide, 3968, by decide⟩,
   ⟨State.reset, ⟨rfl, rfl, by decide⟩, rfl, by decide, 0, by decide, by decide⟩,
   ⟨{ State.reset with
      ce := { Ce.reset with
        queue := [{ index := 4, copy := [54, 0, 16, 0, 42, 0, 90, 255, 2, 3, 0, 1, 6, 0, 0, 0], valid := true, tag := .sequential }] } },
   ⟨rfl, rfl, by decide⟩, rfl, by decide, 4, by decide, _, rfl, by decide, by decide⟩,
   ⟨{ State.reset with
      ce := { Ce.reset with
        queue := [{ index := 3, copy := [1, 1, 0, 0, 5, 0, 255, 255, 1, 3, 0, 2, 0, 0, 1, 0], valid := true, tag := .sequential }],
        phase := .fired } },
   ⟨rfl, rfl, by decide⟩, rfl, by decide, 3, by decide, _, rfl, by decide, by decide⟩⟩

/-- What Obligations.OwnCycleCompletes assumes is met, clause by clause. -/
theorem witness_OwnCycleCompletes :
    (∃ s : State, s.notices = [] ∧ Ram s ∧ s.pu.own = none) ∧
    (∃ s : State, s.notices = [] ∧ Ram s ∧ ∃ c, s.pu.own = some c ∧ ∃ d, c.data = some d) ∧
    (∃ s : State, s.notices = [] ∧ Ram s ∧ ∃ c, s.pu.own = some c ∧ ∃ d, c.data = some d ∧ (c.live = false ∨ s.rw.job = none)) ∧
    (∃ s : State, s.notices = [] ∧ Ram s ∧ ∃ c, s.pu.own = some c ∧ ∃ d, c.data = some d ∧ ∃ j, s.rw.job = some j ∧ c.live =
    true ∧ ∃ w, j.todo[1]? = some w ∧ s.pu.ceRequest = none ∧ s.pu.hostBusy = false ∧ s.pu.inReset = false) ∧
    (∃ s : State, s.notices = [] ∧ Ram s ∧ ∃ c, s.pu.own = some c ∧ ∃ d, c.data = some d ∧ ∃ j, s.rw.job = some j ∧ c.live =
    true ∧ j.todo.length ≤ 1 ∧ j.kind = .entry) ∧
    (∃ s : State, s.notices = [] ∧ Ram s ∧ ∃ c, s.pu.own = some c ∧ ∃ d, c.data = some d ∧ ∃ j, s.rw.job = some j ∧ c.live =
    true ∧ ∃ n image, j.kind = .line n image ∧ j.todo.length ≤ 1 ∧ n < s.rw.lines.length) ∧
    (∃ s : State, s.notices = [] ∧ Ram s ∧ ∃ c, s.pu.own = some c ∧ c.data = none ∧ c.live = false) ∧
    (∃ s : State, s.notices = [] ∧ Ram s ∧ ∃ c, s.pu.own = some c ∧ ∃ at_, at_ = (s.pu.base + BitVec.ofNat 20 c.offset).toNat
    ∧ ∃ e, s.ce.fetching? = some e ∧ c.data = none ∧ c.live = true ∧ ∃ copy, copy = e.copy ++ [Memory.read s.mem at_]
    ∧ copy.length < 16 ∧ s.pu.hostBusy = false ∧ s.pu.inReset = false) ∧
    (∃ s : State, s.notices = [] ∧ Ram s ∧ ∃ c, s.pu.own = some c ∧ ∃ at_, at_ = (s.pu.base + BitVec.ofNat 20 c.offset).toNat
    ∧ ∃ e, s.ce.fetching? = some e ∧ c.data = none ∧ c.live = true ∧ ∃ copy, copy = e.copy ++ [Memory.read s.mem at_]
    ∧ 16 ≤ copy.length ∧ s.ce.active = true ∧ s.ce.queue = [e] ∧ recBad copy = true) ∧
    (∃ s : State, s.notices = [] ∧ Ram s ∧ ∃ c, s.pu.own = some c ∧ ∃ at_, at_ = (s.pu.base + BitVec.ofNat 20 c.offset).toNat
    ∧ ∃ e, s.ce.fetching? = some e ∧ c.data = none ∧ c.live = true ∧ ∃ copy, copy = e.copy ++ [Memory.read s.mem at_]
    ∧ 16 ≤ copy.length ∧ s.ce.active = true ∧ s.ce.queue = [e] ∧ recBad copy = false ∧ recForm copy = 0) ∧
    (∃ s : State, s.notices = [] ∧ Ram s ∧ ∃ c, s.pu.own = some c ∧ ∃ at_, at_ = (s.pu.base + BitVec.ofNat 20 c.offset).toNat
    ∧ ∃ e, s.ce.fetching? = some e ∧ c.data = none ∧ c.live = true ∧ ∃ copy, copy = e.copy ++ [Memory.read s.mem at_]
    ∧ 16 ≤ copy.length ∧ s.ce.active = true ∧ s.ce.queue = [e] ∧ recBad copy = false ∧ recForm copy = 5 ∧ recTime copy
    = 0 ∧ (recNextIndex e.index copy).1 < 3968) :=
  ⟨⟨State.reset, by decide, rfl, by decide⟩,
   ⟨{ State.reset with
      pu := { Pu.reset with
        own := some { requester := .reportWriter, offset := 271, data := some 254, live := true } } },
   by decide, rfl, _, rfl, _, rfl⟩,
   ⟨{ State.reset with
      pu := { Pu.reset with
        own := some { requester := .reportWriter, offset := 583, data := some 170, live := true } } },
   by decide, rfl, _, rfl, _, rfl, by decide⟩,
   ⟨{ State.reset with
      pu := { Pu.reset with
        own := some { requester := .reportWriter, offset := 271, data := some 254, live := true } },
      rw := { Rw.reset with
        job := some { kind := .line 0 [70, 1, 0, 0, 255, 0, 0, 0, 0, 0, 0, 0, 0, 0], todo := [{ offset := 271, data := 254 }, { offset := 256, data := 1 }, { offset := 257, data := 70 }, { offset := 258, data := 1 }, { offset := 259, data := 0 }, { offset := 260, data := 0 }, { offset := 261, data := 255 }, { offset := 262, data := 0 }, { offset := 263, data := 0 }, { offset := 264, data := 0 }, { offset := 265, data := 0 }, { offset := 266, data := 0 }, { offset := 267, data := 0 }, { offset := 268, data := 0 }, { offset := 269, data := 0 }, { offset := 270, data := 0 }, { offset := 271, data := 1 }] } } },
   by decide, rfl, _, rfl, _, rfl, _, rfl, by decide, _, rfl, by decide, by decide, by decide⟩,
   ⟨{ State.reset with
      pu := { Pu.reset with
        own := some { requester := .reportWriter, offset := 542, data := some 124, live := true } },
      rw := { Rw.reset with job := some { kind := .entry, todo := [{ offset := 542, data := 124 }] } } },
   by decide, rfl, _, rfl, _, rfl, _, rfl, by decide, by decide, by decide⟩,
   ⟨{ State.reset with
      pu := { Pu.reset with
        own := some { requester := .reportWriter, offset := 319, data := some 1, live := true } },
      rw := { Rw.reset with
        job := some { kind := .line 3 [0, 48, 1, 193, 0, 0, 0, 0, 0, 0, 0, 0, 0, 0], todo := [{ offset := 319, data := 1 }] } } },
   by decide, rfl, _, rfl, _, rfl, _, rfl, by decide, _, _, rfl, by decide, by decide⟩,
   ⟨{ State.reset with
      pu := { Pu.reset with own := some { requester := .cueEngine, offset := 2111, data := none, live := false } } },
   by decide, rfl, _, rfl, by decide, by decide⟩,
   ⟨{ State.reset with
      pu := { Pu.reset with own := some { requester := .cueEngine, offset := 2110, data := none, live := true } },
      ce := { Ce.reset with
        queue := [{ index := 3, copy := [36, 0, 19, 0, 46, 0, 72, 255, 3, 7], valid := true, tag := .next }, { index := 4, copy := [34, 2, 2, 0, 33, 0, 142, 255, 4, 6], valid := false, tag := .next }, { index := 3, copy := [21, 0, 7, 0, 52, 0, 244, 1, 0], valid := false, tag := .sequential }] } },
   by decide, rfl, _, rfl, _, rfl, _, rfl, by decide, by decide, _, rfl, by decide, by decide, by decide⟩,
   ⟨{ State.reset with
      pu := { Pu.reset with own := some { requester := .cueEngine, offset := 2111, data := none, live := true } },
      ce := { Ce.reset with
        showState := .paused,
        queue := [{ index := 3, copy := [15, 1, 0, 0, 5, 0, 255, 255, 1, 3, 0, 2, 2, 0, 4], valid := false, tag := .sequential }] } },
   by decide, rfl, _, rfl, _, rfl, _, rfl, by decide, by decide, _, rfl, by decide, by decide, by decide, by decide⟩,
   ⟨{ State.reset with
      pu := { Pu.reset with own := some { requester := .cueEngine, offset := 2111, data := none, live := true } },
      ce := { Ce.reset with
        showState := .running,
        queue := [{ index := 3, copy := [0, 1, 0, 0, 5, 0, 255, 255, 1, 3, 0, 2, 0, 0, 4], valid := false, tag := .sequential }] } },
   by decide, rfl, _, rfl, _, rfl, _, rfl, by decide, by decide, _, rfl, by decide, by decide, by decide, by decide, by
   decide⟩,
   ⟨{ State.reset with
      pu := { Pu.reset with own := some { requester := .cueEngine, offset := 2111, data := none, live := true } },
      ce := { Ce.reset with
        showState := .running,
        queue := [{ index := 3, copy := [5, 1, 0, 0, 5, 0, 255, 255, 1, 3, 0, 2, 4, 0, 4], valid := false, tag := .sequential }] } },
   by decide, rfl, _, rfl, _, rfl, _, rfl, by decide, by decide, _, rfl, by decide, by decide, by decide, by decide, by
   decide, by decide, by decide⟩⟩

/-- What Obligations.MillisecondTick assumes is met, clause by clause. -/
theorem witness_MillisecondTick :
    (∃ s : State, s.notices = []) ∧
    (∃ s : State, s.notices = [] ∧ s.rw.job = none ∧ s.rw.lines.length = 11 ∧ s.rw.lastLine ≤ 10 ∧ s.rw.buffer = []) ∧
    (∃ s : State, s.notices = [] ∧ s.rw.job = none ∧ s.rw.lines.length = 11 ∧ ∃ e, s.rw.buffer.head? = some e ∧
    s.rw.entryNext = true ∧ s.rw.writeIndex + 1 ≠ s.rw.readIndex) ∧
    (∃ s : State, s.notices = [] ∧ s.rw.job = none ∧ s.rw.lines.length = 11 ∧ ∃ e, s.rw.buffer.head? = some e ∧
    s.rw.entryNext = true ∧ s.rw.writeIndex + 1 = s.rw.readIndex) :=
  ⟨⟨State.reset, by decide⟩,
   ⟨State.reset, by decide, by decide, by decide, by decide, by decide⟩,
   ⟨{ State.reset with
      rw := { Rw.reset with buffer := [{ event := .key, arg := 3, uptime := 5 }], entryNext := true } },
   by decide, by decide, by decide, _, rfl, by decide, by decide⟩,
   ⟨{ State.reset with
      rw := { Rw.reset with
        writeIndex := 1, readIndex := 2, buffer := [{ event := .key, arg := 3, uptime := 5 }], entryNext := true } },
   by decide, by decide, by decide, _, rfl, by decide, by decide⟩⟩

/-- What Obligations.PowerOnReset assumes is met, clause by clause. -/
theorem witness_PowerOnReset :
    (∃ pins : Pins, (pins.thsw = true ∨ pins.ilockOpen = true ∨ pins.tcode = 3)) ∧
    (∃ pins : Pins, pins.thsw = false ∧ pins.ilockOpen = false ∧ pins.tcode ≠ 3) ∧
    (∃ s : State, s.notices = []) :=
  ⟨⟨{ wsel := 2, tcode := 2, sensors := { thome := true, ltop := true, gseat := false, gslide := false }, lcur := true, thsw := true, ilockOpen := false, tend := true, cuein := false, rline := false, flim := true },
   by decide⟩,
   ⟨{ wsel := 0, tcode := 0, sensors := { thome := false, ltop := true, gseat := false, gslide := true }, lcur := false, thsw := false, ilockOpen := false, tend := true, cuein := false, rline := false, flim := false },
   by decide, by decide, by decide⟩,
   ⟨State.reset, by decide⟩⟩

/-- What Obligations.PartReset assumes is met, clause by clause. -/
theorem witness_PartReset :
    (∃ s : State, s.notices = [] ∧ s.pu.inReset = true) ∧
    (∃ s : State, s.notices = [] ∧ s.pu.inReset = false) :=
  ⟨⟨{ State.reset with pu := { Pu.reset with inReset := true } }, by decide, by decide⟩,
   ⟨State.reset, by decide, by decide⟩⟩

/-- What Obligations.StepTakesFront assumes is met, clause by clause. -/
theorem witness_StepTakesFront :
    ∃ s : State, s.pending = [] :=
  ⟨State.reset, by decide⟩

/-- What Obligations.MechanismKept assumes is met, clause by clause. -/
theorem witness_MechanismKept :
    ∃ s : State, s.notices = [] ∧ Mechanism s.tmc ∧ ∃ t, step s = .next t :=
  ⟨{ State.reset with pending := [.lampOn] }, by decide, by constructor <;> decide, _, rfl⟩

/-- What Obligations.LampHouseKept assumes is met, clause by clause. -/
theorem witness_LampHouseKept :
    ∃ s : State, s.notices = [] ∧ Lamphouse s.lc ∧ Fan s.fc ∧ CoolDone s ∧ ∃ t, step s = .next t :=
  ⟨{ State.reset with pending := [.lampOn] }, by decide, ⟨by decide, by decide, by decide, by decide, ⟨78, 110, by
   decide⟩, by decide, by decide, by decide⟩, by constructor <;> decide, by unfold CoolDone; decide, _, rfl⟩

/-- What Obligations.CutoffKept assumes is met, clause by clause. -/
theorem witness_CutoffKept :
    ∃ s : State, s.notices = [] ∧ Cutoff s.cu ∧ s.cu.overheat = s.lc.overheat ∧ s.cu.trayLost = s.tmc.trayLost ∧ ∃ t,
    step s = .next t :=
  ⟨{ State.reset with pending := [.lampOn] }, by decide, ⟨by decide, by intro c; cases c <;> decide, by decide⟩, by
   decide, by decide, _, rfl⟩

/-- What Obligations.DeckAndRemoteKept assumes is met, clause by clause. -/
theorem witness_DeckAndRemoteKept :
    ∃ s : State, s.notices = [] ∧ Deck s.ttc ∧ Remote s.rr ∧ ∃ t, step s = .next t :=
  ⟨{ State.reset with pending := [.lampOn] }, by decide, by constructor <;> decide, ⟨trivial, by decide, by decide⟩,
   _, rfl⟩

/-- What Obligations.ChannelsAndEngineKept assumes is met, clause by clause. -/
theorem witness_ChannelsAndEngineKept :
    ∃ s : State, s.notices = [] ∧ RunChannels s ∧ Engine s.ce ∧ ∃ t, step s = .next t :=
  ⟨{ State.reset with pending := [.lampOn] }, by decide, ⟨by decide, fun c => by constructor <;> revert c <;>
   decide⟩, by constructor <;> decide, _, rfl⟩

/-- What Obligations.PassageKept assumes is met, clause by clause. -/
theorem witness_PassageKept :
    ∃ s : State, Drained s ∧ Ram s ∧ Reports s ∧ Decoder s.dd ∧ ∃ t, step s = .next t :=
  ⟨{ State.reset with pending := [.lampOn] }, rfl, rfl, ⟨by decide, by decide, by decide, by decide, by decide,
   nofun, nofun, nofun⟩, by constructor <;> decide, _, rfl⟩

/-! ### Witnesses for the clauses that one state can meet together -/

/-- The cutoff with these selections, the sound, the tape and the fan left alone. -/
def leaving (lamp : LampSelection) (tray : TraySelection) : Cu :=
  { Cu.reset with lampSel := lamp, traySel := tray, tapeIgnore := true, audioIgnore := true, fanIgnore := true }

theorem leaving_sound (lamp : LampSelection) (tray : TraySelection) : Cutoff (leaving lamp tray) :=
  ⟨by constructor <;> intro _ <;> rfl, by intro c _ h; cases c <;> exact absurd h (by simp [leaving, Cu.reset, Cu.present]),
   rfl⟩

theorem fresh_sound : Cutoff Cu.reset := ⟨by decide, by intro c; cases c <;> decide, by decide⟩

/-- Every phase of Obligations.CutoffForce is met, from a lit and from a dark gate, with the operation alone. -/
theorem witness_CutoffForce_phases (dark : Bool) :
    ∀ state ∈ [MechState.darken, .lift, .turn, .drop, .settle], ∃ s : State, Ready s ∧ Cutoff s.cu ∧
      s.cu.enabled .forced = true ∧ s.cu.flag = false ∧ s.cu.traySel ≠ .ignore ∧ ∃ op, s.tmc.op = some op ∧
      s.tmc.state = state ∧ s.tmc.fromDark = dark ∧ s.lc.state ≠ .striking ∧ s.ca.inService = some op ∧ Alone s op ∧
      s.tmc.inCycle = true ∧ s.cu.lampSel = .ignore ∧ s.cu.tapeIgnore = true ∧ s.cu.audioIgnore = true ∧
      s.cu.fanIgnore = true ∧ s.ce.active = false := by
  intro state h
  refine ⟨{ State.reset with
    tmc := { Tmc.reset with state := state, fromDark := dark, op := some ⟨.changeTo 14, .directive, 0⟩ }
    ca := { Ca.reset with inService := some ⟨.changeTo 14, .directive, 0⟩ }, cu := leaving .ignore .brake },
    ⟨rfl, rfl⟩, leaving_sound _ _, show (leaving .ignore .brake).enabled .forced = true by decide, rfl, nofun, _, rfl, rfl, rfl, nofun, rfl,
    ⟨rfl, rfl, .inl rfl, by intro source; cases source <;> rfl⟩, ?_, rfl, rfl, rfl, rfl, rfl⟩
  simp only [List.mem_cons, List.not_mem_nil, or_false] at h
  rcases h with rfl | rfl | rfl | rfl | rfl <;> rfl

/-- A run channel's change in service, for Obligations.CutoffForce. -/
theorem witness_CutoffForce_run : ∃ s : State, Ready s ∧ Cutoff s.cu ∧ s.cu.enabled .forced = true ∧
    s.cu.flag = false ∧ s.cu.traySel ≠ .ignore ∧ ∃ op, s.tmc.op = some op ∧ s.ca.inService = some op ∧
    op.source = .run ∧ s.ca.slots.run = none ∧ ∃ m, s.rcu.serviceMarker = some m ∧ m.detached = false :=
  ⟨{ State.reset with
    tmc := { Tmc.reset with state := .turn, op := some ⟨.changeTo 14, .run, 2⟩ }
    ca := { Ca.reset with inService := some ⟨.changeTo 14, .run, 2⟩ }
    rcu := { Rcu.reset with serviceMarker := some ⟨1, false⟩ } },
   ⟨rfl, rfl⟩, fresh_sound, by decide, rfl, nofun, _, rfl, rfl, rfl, rfl, _, rfl, rfl⟩

/-- Every lamp state of Obligations.CutoffForce is met, also with every other output left alone. -/
theorem witness_CutoffForce_lamp (state : LampState) : ∃ s : State, Ready s ∧ Cutoff s.cu ∧
    s.cu.enabled .forced = true ∧ s.cu.flag = false ∧ s.cu.lampSel = .off ∧ s.lc.imposition = .none ∧
    s.lc.state = state ∧ s.cu.traySel = .ignore ∧ s.cu.tapeIgnore = true ∧ s.cu.audioIgnore = true ∧
    s.cu.fanIgnore = true ∧ s.ce.active = false :=
  ⟨{ State.reset with lc := { Lc.reset with state := state }, cu := leaving .off .ignore }, ⟨rfl, rfl⟩,
   leaving_sound _ _, show (leaving .off .ignore).enabled .forced = true by decide, rfl, rfl, rfl, rfl, rfl, rfl, rfl,
   rfl, rfl⟩

/-- A moving tape with the sound left alone, and a sound at its level and at 0, for Obligations.CutoffForce. -/
theorem witness_CutoffForce_deck :
    (∃ s : State, Ready s ∧ Cutoff s.cu ∧ s.cu.enabled .forced = true ∧ s.cu.flag = false ∧ s.cu.tapeIgnore = false ∧
      s.cu.audioIgnore = true ∧ s.ttc.state.moving = true) ∧
    ∀ level, ∃ s : State, Ready s ∧ Cutoff s.cu ∧ s.cu.enabled .forced = true ∧ s.cu.flag = false ∧
      s.cu.audioIgnore = false ∧ s.ttc.muteImposed = false ∧ s.ttc.level = level :=
  ⟨⟨{ State.reset with
      cu := { Cu.reset with audioIgnore := true }, ttc := { Ttc.reset with state := .playing, direction := .forward } },
    ⟨rfl, rfl⟩, ⟨by decide, by intro c; cases c <;> decide, by decide⟩, by decide, rfl, rfl, rfl, rfl⟩,
   fun level => ⟨{ State.reset with ttc := { Ttc.reset with level := level } }, ⟨rfl, rfl⟩,
    fresh_sound, show Cu.reset.enabled .forced = true by decide, rfl, rfl, rfl, rfl⟩⟩

/-- The part at the end of the gap of a burst of 30, 100, 200 or 500 ms, routed DIRECT to a MARK channel. -/
def heardDirect (length : Word) (channel : Option (BitVec 2)) : State :=
  { State.reset with ttc := { Ttc.reset with
      decoder := .gap, gapTimer := some 0, lastFall := length, route := .direct, markChannel := channel } }

/-- What a DIRECT cue of Obligations.CueClasses assumes, before its class decides. -/
def HeardDirect (s : State) (cls : CueClass) : Prop :=
  s.notices = [] ∧ s.ttc.gapTimer = some 0 ∧ s.ttc.decoder = .gap ∧ s.ttc.route = .direct ∧
    classOf? (s.ttc.lastFall - s.ttc.burstStart).toNat = some cls

theorem heard_step : classOf? (30#32 - 0).toNat = some .advance := by decide

/-- A DIRECT STOP finds the tape in any state, for Obligations.CueClasses. -/
theorem witness_CueClasses_stop (state : Transport) : ∃ s, HeardDirect s .stop ∧ s.ttc.state = state :=
  ⟨{ heardDirect 500 none with ttc := { (heardDirect 500 none).ttc with state := state } },
   ⟨rfl, rfl, rfl, rfl, show classOf? (500#32 - 0).toNat = some .stop by decide⟩, rfl⟩

/-- A DIRECT MARK with no channel, with a masked or a requested one, and with a free one, for Obligations.CueClasses. -/
theorem witness_CueClasses_mark :
    (∃ s, HeardDirect s .mark ∧ s.ttc.markChannel = none) ∧
    (∃ s, HeardDirect s .mark ∧ s.ttc.markChannel = some 3 ∧
      ((s.rcu.channels.get 3).mask = true ∨ (s.rcu.channels.get 3).request = true)) ∧
    (∃ s, HeardDirect s .mark ∧ s.ttc.markChannel = some 3 ∧ (s.rcu.channels.get 3).mask = false ∧
      (s.rcu.channels.get 3).request = false ∧ s.rcu.pendingMarker ≠ none) ∧
    (∃ s, HeardDirect s .mark ∧ s.ttc.markChannel = some 3 ∧ (s.rcu.channels.get 3).mask = false ∧
      (s.rcu.channels.get 3).request = false ∧ s.rcu.pendingMarker = none ∧ s.rcu.serviceMarker = none ∧
      (∀ other, (s.rcu.channels.get other).request = false) ∧ s.tmc.state = .jammed ∧ s.ca.inService = none ∧
      s.ca.slots.run = none) :=
  ⟨⟨heardDirect 200 none, ⟨rfl, rfl, rfl, rfl, by decide⟩, rfl⟩,
   ⟨heardDirect 200 (some 3), ⟨rfl, rfl, rfl, rfl, by decide⟩, rfl, .inl rfl⟩,
   ⟨{ heardDirect 200 (some 3) with rcu := { Rcu.reset with
      channels := Rcu.reset.channels.set 3 { Channel.cleared with mask := false }, pendingMarker := some ⟨0, false⟩ } },
    ⟨rfl, rfl, rfl, rfl, by decide⟩, rfl, by decide, by decide, by decide⟩,
   ⟨{ heardDirect 200 (some 3) with
      tmc := { Tmc.reset with state := .jammed }
      rcu := { Rcu.reset with channels := Rcu.reset.channels.set 3 { Channel.cleared with mask := false } } },
    ⟨rfl, rfl, rfl, rfl, by decide⟩, rfl, by decide, by decide, rfl, rfl, by decide, rfl, rfl, rfl⟩⟩

/-- A DIRECT ADVANCE that waits, with an empty and with a filled slot, that is granted, that is refused unhomed and without
a tray, and that preempts, for Obligations.CueClasses. -/
theorem witness_CueClasses_step :
    (∀ held : Option Request, ∃ s, HeardDirect s .advance ∧ s.cu.flag = false ∧ s.ca.masks.tape = false ∧
      s.tmc.state = .jammed ∧ s.ca.inService = none ∧ s.ca.slots.tape = held) ∧
    (∀ state ∈ [MechState.ready, .unhomed, .noTray], ∃ s, HeardDirect s .advance ∧ s.cu.flag = false ∧
      s.ca.masks.tape = false ∧ s.ca.inService = none ∧ s.tmc.state = state ∧ s.tmc.n ≠ 0 ∧
      ∀ source, s.ca.slots.get source = none) ∧
    (∀ state ∈ [MechState.darken, .turn], ∃ s, HeardDirect s .advance ∧ ∃ old, s.ca.inService = some old ∧
      s.tmc.op = some old ∧ s.cu.flag = false ∧ s.ca.masks.tape = false ∧ s.ca.slots.tape = none ∧
      s.ca.levels.tape < old.level ∧ s.tmc.homed = true ∧ s.tmc.n ≠ 0 ∧ s.tmc.state = state ∧ s.tmc.homing = false ∧
      old.source = .directive) :=
  ⟨fun held => ⟨{ heardDirect 30 none with
      tmc := { Tmc.reset with state := .jammed }
      ca := { Ca.reset with slots := { Ca.reset.slots with tape := held } } },
    ⟨rfl, rfl, rfl, rfl, heard_step⟩, rfl, rfl, rfl, rfl, rfl⟩,
   fun state _ => ⟨{ heardDirect 30 none with tmc := { Tmc.reset with state := state, n := 80 } },
    ⟨rfl, rfl, rfl, rfl, heard_step⟩, rfl, rfl, rfl, rfl, nofun, by intro source; cases source <;> rfl⟩,
   fun state _ => ⟨{ heardDirect 30 none with
      tmc := { Tmc.reset with state := state, n := 80, homed := true, op := some ⟨.changeTo 14, .directive, 3⟩ }
      ca := { Ca.reset with inService := some ⟨.changeTo 14, .directive, 3⟩ } },
    ⟨rfl, rfl, rfl, rfl, heard_step⟩, _, rfl, rfl, rfl, rfl, rfl,
    show (2 : BitVec 2) < 3 by decide, rfl, nofun, rfl, rfl, rfl⟩⟩

/-- The counter at both ends of its range in both directions, with a write in progress, for Obligations.TapeCounter. -/
theorem witness_TapeCounter (direction : Direction) (counter : Half) : ∃ s : State, s.notices = [] ∧
    5 < s.rw.lines.length ∧ s.ttc.state.moving = true ∧ s.ttc.leader = some 63 ∧ s.ttc.direction = direction ∧
    s.ttc.counter = counter ∧ s.rw.job.isSome = true ∧ s.pu.inReset = false :=
  ⟨{ State.reset with
      ttc := { Ttc.reset with state := .windFwd, leader := some 63, direction := direction, counter := counter }, rw := { Rw.reset with job := some ⟨.entry, []⟩ } },
   rfl, show 5 < 11 by decide, rfl, rfl, rfl, rfl, rfl, rfl⟩

/-- A successor beyond the store with the CUE slot as it may be, for the halt of Obligations.Timeline. -/
theorem witness_Timeline_halt (waiting : Option Request) : ∃ s : State, s.notices = [] ∧
    s.ce.showState = .running ∧ s.ce.phase = .fired ∧ reached s.ce.clock s.ce.timelineInstant = true ∧
    recForm s.ce.fired = 1 ∧ recRepeat s.ce.fired = 0 ∧ 3968 ≤ (recNextIndex s.ce.index s.ce.fired).1 ∧
    s.ca.slots.cue = waiting :=
  ⟨{ State.reset with
      ce := { Ce.reset with
        showState := .running, phase := .fired, index := 3967, fired := [1, 0, 0, 0, 0, 0, 0, 0, 0, 0, 0, 0, 0x80, 0x0F, 0, 0] },
      ca := { Ca.reset with slots := { Ca.reset.slots with cue := waiting } } },
   rfl, rfl, rfl, show reached 0 0 = true by decide, rfl, rfl,
   show 3968 ≤ (recNextIndex 3967 [1, 0, 0, 0, 0, 0, 0, 0, 0, 0, 0, 0, 0x80, 0x0F, 0, 0]).1 by decide, rfl⟩

/-- An AWAIT_GO of the last record of the store whose successor lies beyond it, with the CUE slot as it may be, for the halt
of Obligations.AwaitResolved. -/
theorem witness_AwaitResolved_halt (waiting : Option Request) : ∃ s : State, Ready s ∧ ∃ r, s.ce.awaits? 5 = some r ∧
    recHasSlide r = false ∧ recExtraOp r ≠ 4 ∧ 3968 ≤ (recNextIndex s.ce.index r).1 ∧ s.ca.slots.cue = waiting :=
  ⟨{ State.reset with
      ce := { Ce.reset with
        showState := .running, phase := .waiting, index := 3967,
        queue := [⟨3967, [5, 0, 0, 0, 0, 0, 0, 0, 0, 0, 0, 0, 0x80, 0x0F, 0, 0], true, .next⟩] },
      ca := { Ca.reset with slots := { Ca.reset.slots with cue := waiting } } },
   ⟨rfl, rfl⟩, _, rfl, rfl, show recExtraOp [5, 0, 0, 0, 0, 0, 0, 0, 0, 0, 0, 0, 0x80, 0x0F, 0, 0] ≠ 4 by decide,
   show 3968 ≤ (recNextIndex 3967 [5, 0, 0, 0, 0, 0, 0, 0, 0, 0, 0, 0, 0x80, 0x0F, 0, 0]).1 by decide, rfl⟩

/-- An idle Report Writer with a line dirty besides the clock's, at both ends of the cyclic order, for
Obligations.MillisecondTick. -/
theorem witness_MillisecondTick_lines : ∀ last ∈ [0, 10], ∃ s : State, s.notices = [] ∧ s.rw.job = none ∧
    s.rw.lines.length = 11 ∧ s.rw.lastLine = last ∧ s.rw.buffer = [] ∧
    (s.rw.lines.getD 4 LineRecord.reset).dirty = true :=
  fun last _ => ⟨{ State.reset with rw := { Rw.reset with lastLine := last } }, rfl, rfl, rfl, rfl, rfl, rfl⟩

/-! ### Witnesses for the endings without a DROP and a preemption recorded in TURN -/

/-- The operation alone in service on this mechanism, with the blackout report sent. -/
def acting (op : Operation) (m : Tmc) : State :=
  { State.reset with
      tmc := { m with op := some op }, ca := { Ca.reset with inService := some op }, lc := { Lc.reset with report := true } }

theorem acting_alone (kind : OpKind) (m : Tmc) : Alone (acting ⟨kind, .tape, 1⟩ m) ⟨kind, .tape, 1⟩ :=
  ⟨rfl, rfl, .inr (.inr rfl), by intro source; cases source <;> rfl⟩

/-- An operation of any kind at its target `p`, with any sensors, whose DARKEN or LIFT ends: at 0 it ends there, elsewhere it
drops, for Obligations.DarkenEnds and Obligations.LiftPhase. -/
theorem witness_DarkenEnds_LiftPhase_onward (kind : OpKind) (phase : MechState) (gate : Gate) (sensors : Sensors) (p : Nat)
    (h : p ≤ 80) : ∃ s : State, s.notices = [] ∧ s.lc.report = true ∧ s.tmc.state = phase ∧ s.tmc.gate = gate ∧
      s.tmc.lifter = true ∧ s.tmc.lowerTimer = some 0 ∧ s.tmc.sensors = sensors ∧ s.tmc.p = p ∧ s.tmc.target = some p ∧
      p ≤ s.tmc.n ∧ ∃ op, s.tmc.op = some op ∧ op.kind = kind ∧ Alone s op :=
  ⟨acting ⟨kind, .tape, 1⟩ { Tmc.reset with
      tcode := 1, n := 80, state := phase, gate := gate, lifter := true, lowerTimer := some 0, sensors := sensors, p := p,
      target := some p },
   rfl, rfl, rfl, rfl, rfl, rfl, rfl, rfl, rfl, h, _, rfl, rfl, acting_alone _ _⟩

/-- A TURN forward from `p` toward `g` with an operation of this kind, recorded there or not. -/
def turningFrom (kind : OpKind) (p g : Nat) (recorded : Bool) : State :=
  acting ⟨kind, .tape, 1⟩ { Tmc.reset with
    tcode := 1, n := 80, state := .turn, lifter := true, motor := .forward, homed := true, p := p, display := bcd p,
    target := some g, redirect := recorded }

theorem turningFrom_sound (kind : OpKind) (p g : Nat) (recorded : Bool) (h : p ≤ 80)
    (hk : recorded = true ∨ changesSlide kind = true) : Mechanism (turningFrom kind p g recorded).tmc where
  size := rfl
  present _ := show 80 ≠ 0 by decide
  ready := nofun
  unhomed := by rintro (h | h | h) <;> cases h
  tray _ _ := show 80 ≠ 0 by decide
  ring _ := h
  display := rfl
  cycle := rfl
  counting _ _ := rfl
  homing := nofun
  moving := ⟨fun _ => rfl, fun _ => .inl rfl⟩
  lifted _ := ⟨rfl, rfl⟩
  known _ := nofun
  phase := nofun
  clearing _ := nofun
  seeking := by rintro (h | h) <;> cases h
  changing := by rintro (h | h) <;> cases h
  turning _ _ clear := hk.elim id fun k => by
    rcases clear with e | e <;> injection e with e <;> change kind = _ at e <;> subst e <;> cases k

/-- The arrivals of a TURN at the ends of the ring, at its target and away from it: at 0 through the last position, by a slip
and short of it, for each kind of a recorded operation and for a change in service, for Obligations.TurnArrivals. -/
theorem witness_TurnArrivals_redirected (kind : OpKind) (g : Nat) (recorded : Bool) (hg : g ≤ 80)
    (hk : recorded = true ∨ changesSlide kind = true) : ∀ p ∈ [0, 4, 79, 80], ∃ s : State, s.notices = [] ∧
      ringStep s.tmc.motor s.tmc.p s.tmc.n = (if p = 80 then 0 else p + 1) ∧ s.tmc.state = .turn ∧ Mechanism s.tmc ∧
      s.tmc.homing = false ∧ s.tmc.redirect = recorded ∧ s.tmc.target = some g ∧ g ≤ s.tmc.n ∧
      ∃ op, s.tmc.op = some op ∧ op.kind = kind ∧ Alone s op := by
  intro p hp
  have bound : p ≤ 80 := by
    simp only [List.mem_cons, List.not_mem_nil, or_false] at hp
    omega
  refine ⟨turningFrom kind p g recorded, rfl, ?_, rfl, turningFrom_sound kind p g recorded bound hk, rfl, rfl, rfl, hg, _, rfl,
    rfl, acting_alone _ _⟩
  exact (show ∀ p ∈ [0, 4, 79, 80], ringStep .forward p 80 = if p = 80 then 0 else p + 1 by decide) p hp

/-- A homing turn toward `g` with an operation of this kind. -/
def seekingFor (kind : OpKind) (g : Nat) : State :=
  acting ⟨kind, .tape, 1⟩ { Tmc.reset with
    tcode := 1, n := 80, state := .turn, lifter := true, motor := .forward, homing := true, target := some g }

theorem seekingFor_sound (kind : OpKind) (g : Nat) : Mechanism (seekingFor kind g).tmc where
  size := rfl
  present := nofun
  ready := nofun
  unhomed _ := rfl
  tray _ _ := show 80 ≠ 0 by decide
  ring := nofun
  display := rfl
  cycle := rfl
  counting _ := nofun
  homing _ := rfl
  moving := ⟨fun _ => rfl, fun _ => .inl rfl⟩
  lifted _ := ⟨rfl, rfl⟩
  known _ _ := .inl rfl
  phase _ := .inr (.inr rfl)
  clearing _ := nofun
  seeking := by rintro (h | h) <;> cases h
  changing := by rintro (h | h) <;> cases h
  turning _ := nofun

/-- A homing turn that finds THOME for a change or a CLEAR_GATE, for Obligations.TurnArrivals. -/
theorem witness_TurnArrivals_found (kind : OpKind) (g : Nat) (hg : g ≤ 80) : ∃ s : State, s.notices = [] ∧
    s.tmc.state = .turn ∧ s.tmc.motor = .forward ∧ s.tmc.homing = true ∧ Mechanism s.tmc ∧ s.tmc.target = some g ∧
    g ≤ s.tmc.n ∧ ∃ op, s.tmc.op = some op ∧ op.kind = kind ∧ Alone s op :=
  ⟨seekingFor kind g, rfl, rfl, rfl, rfl, seekingFor_sound kind g, rfl, hg, _, rfl, rfl, acting_alone _ _⟩

/-! ### Witnesses for the third stall window, a run channel's grant and its preemption -/

/-- The fan at the end of its third stall window beside a lamp in this state, H at CD (R66, R68). -/
def stalling (lamp : LampState) (h : Nat) (full : Bool) (cu : Cu) : State :=
  { State.reset with
      fc := { Fc.reset with state := .running, grace := 0, stallWindows := 2, full := full, windowPhase := some 0 }
      lc := { Lc.reset with state := lamp, h := h }, cu := cu }

/-- What the third stall window of Obligations.FanMeasured assumes. -/
def ThirdStall (s : State) : Prop :=
  s.notices = [] ∧ s.fc.windowPhase = some 0 ∧ (s.fc.state = .running ∨ s.fc.state = .cooldown) ∧ 64 ≤ s.fc.demand ∧
    4 * min 255 (4 * s.fc.pulses) < s.fc.demand ∧ 2 ≤ s.fc.stallWindows

theorem stalling_third (lamp : LampState) (h : Nat) (full : Bool) (cu : Cu) : ThirdStall (stalling lamp h full cu) :=
  ⟨rfl, rfl, .inl rfl, show 64 ≤ 193 by decide, show 4 * min 255 0 < 193 by decide, Nat.le_refl 2⟩

/-- Every clause of the third stall window of Obligations.FanMeasured is met. -/
theorem witness_FanMeasured_third :
    (∃ s, ThirdStall s ∧ s.cu.enabled .fanStall = true) ∧ (∃ s, ThirdStall s ∧ s.cu.enabled .fanStall = false) ∧
    (∃ s, ThirdStall s ∧ s.cu.flag = true ∧ s.cu.inSet .fanStall = true) ∧
    (∃ s, ThirdStall s ∧ s.lc.state = .exchange) ∧ (∃ s, ThirdStall s ∧ s.fc.full = true) ∧
    (∃ s, ThirdStall s ∧ s.cu.flag = false ∧ s.cu.fanIgnore = false) ∧
    (∃ s, ThirdStall s ∧ s.fc.coolDone < s.lc.h ∧
      s.fc.minimum + (255 - s.fc.minimum) * min s.lc.h s.lc.derateStart / s.lc.derateStart ≠ 0) :=
  ⟨⟨_, stalling_third .lit 3072 false Cu.reset, by decide⟩,
   ⟨_, stalling_third .lit 3072 false { Cu.reset with enables := 0xEF }, by decide⟩,
   ⟨_, stalling_third .lit 3072 false { Cu.reset with flag := true, causes := 0x10 }, rfl, by decide⟩,
   ⟨_, stalling_third .exchange 3072 false Cu.reset, rfl⟩, ⟨_, stalling_third .lit 3072 true Cu.reset, rfl⟩,
   ⟨_, stalling_third .lit 3072 false Cu.reset, rfl, rfl⟩, ⟨_, stalling_third .lit 3073 false Cu.reset, by decide, by decide⟩⟩

/-- The lamp that FAN_STALL puts out, in cutoff and at its entry, with every selection IGNORE, H at CD, for
Obligations.FanMeasured. -/
theorem witness_FanMeasured_out (flag : Bool) : ∃ s, ThirdStall s ∧ s.cu.enabled .fanStall = true ∧
    s.cu.inSet .fanStall = false ∧ s.lc.state = .lit ∧ s.cu.lampHanded ≠ .off ∧ s.lc.imposition ≠ .off ∧
    s.fc.full = false ∧ s.cu.flag = flag ∧ s.cu.fanIgnore = true ∧ s.lc.h = s.fc.coolDone ∧ s.cu.traySel = .ignore ∧
    s.cu.tapeIgnore = true ∧ s.cu.audioIgnore = true ∧ s.ce.active = false :=
  ⟨_, stalling_third .lit 3072 false
    { leaving .ignore .ignore with flag := flag, causes := if flag then 0x40 else 0 },
   show Cu.reset.enabled .fanStall = true by decide, by cases flag <;> decide, rfl, nofun, nofun, rfl, rfl, rfl, rfl,
   rfl, rfl, rfl, rfl⟩

/-- The part with channel 1 free to be triggered for `slot`, the mechanism in this state with 80 slots. -/
def triggered (state : MechState) (slot : Nat) : State :=
  { State.reset with
      tmc := { Tmc.reset with tcode := 1, n := 80, state := state, homed := state == .ready }
      rcu := { Rcu.reset with channels := Rcu.reset.channels.set 1 { Channel.cleared with mask := false, slot := slot } } }

/-- What a trigger with nothing in its way assumes in Obligations.RunTriggers. -/
def FreeTrigger (s : State) (slot : Nat) : Prop :=
  s.notices = [] ∧ s.pu.inReset = false ∧ (s.rcu.channels.get 1).mask = false ∧
    (s.rcu.channels.get 1).request = false ∧ (s.rcu.channels.get 1).slot = slot ∧ s.rcu.pendingMarker = none ∧
    s.rcu.serviceMarker = none ∧ (∀ other, (s.rcu.channels.get other).request = false) ∧ s.ca.inService = none ∧
    (∀ source, s.ca.slots.get source = none) ∧ s.ca.masks.run = false ∧ s.cu.flag = false

theorem triggered_free (state : MechState) (slot : Nat) : FreeTrigger (triggered state slot) slot :=
  ⟨rfl, rfl, rfl, rfl, rfl, rfl, rfl, by
    intro other; obtain ⟨k⟩ := other; match k with
    | 0 | 1 | 2 | 3 => rfl,
   rfl, by intro source; cases source <;> rfl, rfl, rfl⟩

/-- A trigger that is granted at the last slot, one that is beyond the tray by one, and one refused unhomed and without a
tray, for Obligations.RunTriggers. -/
theorem witness_RunTriggers_selected :
    (∃ s, FreeTrigger s 80 ∧ s.tmc.state = .ready ∧ 80 ≤ s.tmc.n ∧ ¬ (80 = s.tmc.p ∧ s.tmc.gate = .loaded)) ∧
    (∃ s, FreeTrigger s 81 ∧ s.tmc.state = .ready ∧ s.tmc.n < 81) ∧
    ∀ state ∈ [MechState.unhomed, .noTray], ∃ s, FreeTrigger s 80 ∧ s.tmc.state = state :=
  ⟨⟨_, triggered_free .ready 80, rfl, Nat.le_refl 80, by decide⟩, ⟨_, triggered_free .ready 81, rfl, Nat.lt_succ_self 80⟩,
   fun state _ => ⟨_, triggered_free state 80, rfl⟩⟩

/-- A tray that turns from slot 12 for a run channel's change. -/
def ousted : Tmc :=
  { Tmc.reset with
      tcode := 1, state := .turn, n := 80, p := 12, homed := true, motor := .forward, lifter := true,
      display := 0x012, op := some { kind := .changeTo 63, source := .run, level := 2 } }

theorem ousted_sound : Mechanism ousted := by constructor <;> decide

/-- A run channel's change that a directive preempts while the tray turns, its record detached or not, for
Obligations.RunCompletion. -/
theorem witness_RunCompletion_preempted (detached : Bool) : ∃ s : State, Ready s ∧ Mechanism s.tmc ∧ ∃ old,
    s.tmc.op = some old ∧ s.ca.inService = some old ∧ old.source = .run ∧ s.ca.slots.directive = none ∧
    s.ca.slots.run = none ∧ s.ca.masks.directive = false ∧ s.ca.levels.directive < old.level ∧ s.tmc.homed = true ∧
    s.tmc.state = .turn ∧ s.cu.flag = false ∧ s.tmc.n = 80 ∧ s.tmc.p ≠ 80 ∧ s.rcu.pendingMarker = none ∧
    (∀ other, (s.rcu.channels.get other).mask = true ∨ (s.rcu.channels.get other).request = false ∨
      s.rcu.serviceMarker = some ⟨other, false⟩) ∧ s.rcu.serviceMarker = some ⟨1, detached⟩ :=
  ⟨{ State.reset with
      ca := { Ca.reset with inService := some { kind := .changeTo 63, source := .run, level := 2 } }
      rcu := { Rcu.reset with serviceMarker := some ⟨1, detached⟩ }
      tmc := ousted },
   ⟨rfl, rfl⟩, ousted_sound, _, rfl, rfl, rfl, rfl, rfl, rfl, show (0 : BitVec 2) < 2 by decide, rfl, rfl,
   rfl, rfl, show 12 ≠ 80 by decide, rfl, by
    intro other; obtain ⟨k⟩ := other; match k with
    | 0 | 1 | 2 | 3 => exact .inl rfl,
   rfl⟩

/-! ## Deposits, choices and grants -/

/-- A directive request that waits in its slot, for each of the four reasons of Obligations.RequestsRefused, one that finds
the slot occupied, and one that finds the mechanism available. -/
theorem witness_RequestsRefused_deposited :
    (∃ s : State, Ready s ∧ s.ca.slots.directive = none ∧ s.cu.flag = true ∧ s.cu.traySel ≠ .ignore) ∧
    (∃ s : State, Ready s ∧ s.ca.slots.directive = none ∧ s.tmc.state = .jammed) ∧
    (∃ s : State, Ready s ∧ s.ca.masks.directive = true ∧ ∀ source, s.ca.slots.get source = none) ∧
    (∃ s : State, Ready s ∧ s.ca.slots.directive = none ∧
      ∃ old, s.ca.inService = some old ∧ old.level ≤ s.ca.levels.directive) ∧
    (∃ s : State, Ready s ∧ s.ca.slots.directive ≠ none) ∧
    (∀ state ∈ [MechState.noTray, .unhomed, .ready], ∃ s : State, Ready s ∧ (∀ source, s.ca.slots.get source = none) ∧
      s.ca.inService = none ∧ s.ca.masks.directive = false ∧ s.cu.flag = false ∧ s.tmc.state = state ∧ s.tmc.n ≠ 0) ∧
    ∃ c q, requestOf c = some q ∧ ∀ s : State, s.tmc.n = 0 → ∀ slot, q.kind = .changeTo slot →
      slot ≤ 120 ∧ (s.tmc.n = 0 ∨ slot ≤ s.tmc.n) :=
  ⟨⟨{ State.reset with cu := { Cu.reset with flag := true } }, ⟨rfl, rfl⟩, rfl, rfl, nofun⟩,
   ⟨{ State.reset with tmc := { Tmc.reset with state := .jammed } }, ⟨rfl, rfl⟩, rfl, rfl⟩,
   ⟨{ State.reset with ca := { Ca.reset with masks := { Ca.reset.masks with directive := true } } }, ⟨rfl, rfl⟩, rfl,
    by intro source; cases source <;> rfl⟩,
   ⟨{ State.reset with ca := { Ca.reset with inService := some ⟨.home, .directive, 0⟩ } }, ⟨rfl, rfl⟩, rfl, _, rfl,
    show (0 : BitVec 2) ≤ 0 by decide⟩,
   ⟨{ State.reset with ca := { Ca.reset with slots := { Ca.reset.slots with directive := some ⟨.home, 0⟩ } } },
    ⟨rfl, rfl⟩, nofun⟩,
   fun state _ => ⟨{ State.reset with tmc := { Tmc.reset with state := state, n := 80 } }, ⟨rfl, rfl⟩, by
      intro source; cases source <;> rfl,
    rfl, rfl, rfl, rfl, nofun⟩,
   .gotoSlot 120, _, rfl, fun _ n slot h => by cases h; exact ⟨Nat.le_refl 120, .inl n⟩⟩

/-- The masks after ARB_MASK 0. -/
def unmasked (s : State) : Ca := { s.ca with masks := ⟨false, false, false, false, false⟩ }

/-- A READY mechanism at slot 12 of 80, with REMOTE's step of level 2 and the record of `source`, of level 1, pending and
masked. -/
def choosing (source : Source) : State :=
  { State.reset with
    tmc := { Tmc.reset with tcode := 1, state := .ready, n := 80, p := 12, homed := true, gate := .loaded }
    ca := { Ca.reset with
      masks := ⟨true, true, true, true, true⟩
      slots := { Ca.reset.slots with remote := some ⟨.moveBy 3, 2⟩ }.set source (some ⟨.changeTo 80, 1⟩) }
    rcu := { Rcu.reset with pendingMarker := some ⟨1, false⟩, rotating := true }
    ce := { Ce.reset with pendingMarker := some false } }

/-- A choice of each source for Obligations.ArbiterChoice, REMOTE's own record pending beside it. -/
theorem witness_ArbiterChoice_granted (source : Source) :
    Ready (choosing source) ∧ (∃ k, (choosing source).ca.masks.get k = true ∧ (unmasked (choosing source)).masks.get k = false) ∧
    (choosing source).tmc.state = .ready ∧ (choosing source).tmc.homed = true ∧ (choosing source).ca.inService = none ∧
    (choosing source).cu.flag = false ∧ (unmasked (choosing source)).best? = some (source, ⟨.changeTo 80, 1⟩) ∧
    80 ≤ (choosing source).tmc.n ∧ targetOf (choosing source).tmc (.changeTo 80) ≠ (choosing source).tmc.p ∧
    (choosing source).ce.phase ≠ .held ∧
    (∀ other, (((choosing source).rcu.channels.get other).mask = true)) ∧
    (choosing source).rcu.pendingMarker = some ⟨1, false⟩ :=
  ⟨⟨rfl, rfl⟩, ⟨.cue, rfl, rfl⟩, rfl, rfl, rfl, rfl, by cases source <;> decide, Nat.le_refl 80,
   show 80 ≠ 12 by decide, nofun, by
    intro other; obtain ⟨k⟩ := other; match k with
    | 0 | 1 | 2 | 3 => rfl,
   rfl⟩

/-! ## The show's records -/

/-- A cue record of this first byte: WAITARG, TIME, SLIDEARG 90, REPEAT, the lamp level, the extra action, NEXT 4 and
ALT 5. -/
def record (b0 arg time again lampLo lampHi extra : Byte) : List Byte :=
  [b0, arg, time, 0, 90, again, lampLo, lampHi, 1, 3, extra, 2, 4, 0, 5, 0]

/-- The engine with that record current, at 10 ms of the show clock. -/
def shown (showState : ShowState) (phase : Phase) (r : List Byte) : Ce :=
  { Ce.reset with
    showState := showState, phase := phase, index := 3, clock := 10, queue := [⟨3, r, true, .sequential⟩], fired := r }

/-- The two ways of Safety.Resolves: HELD with an occupied slot, and on to the successor without actions. -/
def Way (slide timedOut : Bool) (s : State) (ce : Ce) (r : List Byte) : Prop :=
  if slide then recHasSlide r = true ∧ s.ca.slots.cue ≠ none
  else recHasSlide r = false ∧ recPlain r ∧ ce.queue.length = 1 ∧
    (if timedOut then recAltIndex ce.index r else recNextIndex ce.index r).1 < 3968

/-- An await of this form and argument, with a slide action or with no action. -/
def await (form arg time : Byte) (slide : Bool) : List Byte :=
  record (if slide then 0x10 + form else form) arg time 0 0xFF 0xFF 0

/-- The part with that record, and the CUE slot occupied where it has a slide action. -/
def awaiting (slide : Bool) (ce : Ce) : State :=
  { State.reset with
    ce := ce, ca := { Ca.reset with slots := { Ca.reset.slots with cue := if slide then some ⟨.clearGate, 1⟩ else none } } }

/-- The remote with a frame of unit 0 and key 4 complete, the toggle clear. -/
def framed (keyMap : List Byte) (held : Option HeldKey) : Rr :=
  { Rr.reset with
    receiver := .space [false, false, false, false, false, false, true, false, false, false, true, false],
    frameEnd := some 0, keyMap := keyMap, held := held }

/-- A key map in which key 0 has this action and policy and key 4 no action. -/
def keys (action policy : Byte) : List Byte :=
  (([action, 0, policy, 0] ++ defaultKeyMap.drop 4).set 16 0).set 18 0

/-- That frame is complete, good and accepted, and it is of key 4. -/
theorem framed_accepted (s : State) (keyMap : List Byte) (held : Option HeldKey) :
    ∃ bits, ({ s with rr := framed keyMap held } : State).rr.frameBits? = some bits ∧
      BitVec.ofNat 5 (frameField bits 4 5) = 4 ∧ bits.getD 9 false = false ∧
      frameField bits 10 2 = (bits.take 10).count true % 4 ∧ frameField bits 0 4 = (framed keyMap held).unit.toNat :=
  ⟨_, rfl, by decide, by decide, by decide, show 0 = (0 : BitVec 4).toNat by decide⟩

/-- A press that an AWAIT_KEY of key 4 takes, for Obligations.RemoteFrame. -/
theorem witness_RemoteFrame_consumed (slide : Bool) : ∃ s : State, s.notices = [] ∧ s.rr = framed defaultKeyMap none ∧
    ∃ r, s.ce.awaits? 3 = some r ∧ recWaitArg r = 4 ∧ Way slide false s s.ce r := by
  refine ⟨{ awaiting slide (shown .running .waiting (await 3 4 0 slide)) with rr := framed defaultKeyMap none }, ?_⟩
  cases slide
  · exact ⟨rfl, rfl, _, rfl, by decide, ⟨by decide, ⟨by decide, by decide⟩, by decide, by decide⟩⟩
  · exact ⟨rfl, rfl, _, rfl, by decide, ⟨by decide, nofun⟩⟩

/-- A frame of key 4, which has no action, that releases key 0: one without a release action and one that deposits a step,
for Obligations.RemoteFrame. -/
theorem witness_RemoteFrame_released : ∀ policy ∈ [0, 2], ∃ s : State, s.notices = [] ∧
    s.rr = framed (keys 1 policy) (some ⟨0, false, false⟩) ∧
    (s.rr.entry 0).policy = policy.toNat ∧ (s.rr.entry 0).effective = 1 ∧ (s.rr.entry 4).effective = 0 ∧
    (s.rr.entry 4).policy ≠ 1 ∧ s.ce.takesKey 4 = false ∧ s.tmc.state = .jammed ∧ s.ca.inService = none ∧
    s.ca.slots.remote = none := by
  intro policy h
  refine ⟨{ State.reset with
    tmc := { Tmc.reset with state := .jammed }
    rr := framed (keys 1 policy) (some ⟨0, false, false⟩) }, ?_⟩
  simp only [List.mem_cons, List.not_mem_nil, or_false] at h
  rcases h with rfl | rfl <;> exact ⟨rfl, rfl, by decide, by decide, by decide, by decide, by decide, rfl, rfl, rfl⟩

/-- A frame of key 4 that releases key 0 of SHOW_PAUSE_RESUME with the show PAUSED at an AWAIT_KEY of key 4, its timeout
reached or not, for Obligations.RemoteFrame. -/
theorem witness_RemoteFrame_resumed (slide expired : Bool) : ∃ s : State, s.notices = [] ∧
    s.rr = framed (keys 8 2) (some ⟨0, false, false⟩) ∧ (s.rr.entry 0).policy = 2 ∧
    (s.rr.entry 0).effective = 8 ∧ (s.rr.entry 4).effective = 0 ∧ (s.rr.entry 4).policy ≠ 1 ∧
    s.ce.showState = .paused ∧ ∃ r, ({ s.ce with showState := .running } : Ce).awaits? 3 = some r ∧
    recWaitArg r = 4 ∧ expired = decide (0 < recTime r ∧
      reached s.ce.clock (s.ce.startInstant + BitVec.ofNat 32 (10 * recTime r)) = true) ∧
    Way slide expired s { s.ce with showState := .running } r := by
  refine ⟨{ awaiting slide (shown .paused .waiting (await 3 4 (if expired then 1 else 2) slide)) with
    rr := framed (keys 8 2) (some ⟨0, false, false⟩) }, rfl, rfl, rfl, rfl, rfl, nofun, rfl, ?_⟩
  cases slide <;> cases expired
  · exact ⟨_, rfl, by decide, by decide, ⟨by decide, ⟨by decide, by decide⟩, by decide, by decide⟩⟩
  · exact ⟨_, rfl, by decide, by decide, ⟨by decide, ⟨by decide, by decide⟩, by decide, by decide⟩⟩
  · exact ⟨_, rfl, by decide, by decide, ⟨by decide, nofun⟩⟩
  · exact ⟨_, rfl, by decide, by decide, ⟨by decide, nofun⟩⟩

/-- A CUE change in service. -/
def cueOp : Operation := ⟨.changeTo 63, .cue, 1⟩

/-- That change in this phase, with every timer of a phase run out, and its marker. -/
def cueService (state : MechState) (ce : Ce) (waiting : Option Request) : State :=
  { State.reset with
    ce := ce
    tmc := { Tmc.reset with
      tcode := 1, state := state, n := 80, p := 12, homed := true, display := 0x012, op := some cueOp, target := some 63,
      gate := if state = .turn then .empty else .loaded, lifter := state == .turn,
      motor := if state = .turn then .forward else .unpowered, settleTimer := some 0, positionTimer := some 0 }
    ca := { Ca.reset with inService := some cueOp, slots := { Ca.reset.slots with cue := waiting } } }

/-- The end of a CUE change, and its jam with the show RUNNING or PAUSED, the marker stale or not and the CUE slot as it
may be, for Obligations.ShowDirectives. -/
theorem witness_ShowDirectives_outcomes (stale : Bool) (waiting : Option Request) :
    (∃ s : State, s.notices = [] ∧ s.tmc.op = some cueOp ∧ s.ca.inService = some cueOp ∧ s.tmc.state = .settle ∧
      s.tmc.settleTimer = some 0 ∧ (∀ source, s.ca.slots.get source = none) ∧ s.ce.serviceMarker = some stale) ∧
    ∀ showState ∈ [ShowState.running, .paused, .halted], ∃ s : State, s.notices = [] ∧ s.tmc.op = some cueOp ∧
      s.ca.inService = some cueOp ∧ s.tmc.state = .turn ∧ s.tmc.positionTimer = some 0 ∧
      s.cu.enabled .trayJam = false ∧ s.ce.showState = showState ∧ s.ce.serviceMarker = some stale ∧
      s.ca.slots.cue = waiting :=
  ⟨⟨cueService .settle { Ce.reset with serviceMarker := some stale } none, rfl, rfl, rfl, rfl, rfl, by
      intro source; cases source <;> rfl,
    rfl⟩,
   fun showState _ => ⟨{ cueService .turn { Ce.reset with showState := showState, serviceMarker := some stale } waiting with
      cu := { Cu.reset with enables := 0xDF } }, rfl, rfl, rfl, rfl, rfl,
    show Cu.enabled { Cu.reset with enables := 0xDF } .trayJam = false by decide, rfl, rfl, rfl⟩⟩

/-- A CUE change that a cutoff aborts, with the CUE slot as it may be, and one that a directive preempts while it darkens,
for Obligations.ShowDirectives. -/
theorem witness_ShowDirectives_taken (showState : ShowState) (waiting : Option Request) :
    (∃ s : State, Ready s ∧ s.tmc.op = some cueOp ∧ s.ca.inService = some cueOp ∧ s.tmc.inCycle = true ∧
      s.cu.flag = false ∧ s.cu.enabled .forced = true ∧ s.cu.traySel ≠ .ignore ∧ s.ce.showState = showState ∧
      s.ca.slots.cue = waiting) ∧
    (∃ s : State, Ready s ∧ Mechanism s.tmc ∧ s.tmc.op = some cueOp ∧ s.ca.inService = some cueOp ∧
      s.ca.slots.directive = none ∧ s.ca.slots.cue = none ∧ s.ca.masks.directive = false ∧
      s.ca.levels.directive < cueOp.level ∧ s.tmc.homed = true ∧ s.tmc.state = .darken ∧ s.cu.flag = false ∧
      s.tmc.n = 80 ∧ s.tmc.p ≠ 80) :=
  ⟨⟨cueService .lift { Ce.reset with showState := showState } waiting, ⟨rfl, rfl⟩, rfl, rfl, rfl, rfl,
    show Cu.reset.enabled .forced = true by decide, nofun, rfl, rfl⟩,
   ⟨cueService .darken Ce.reset none, ⟨rfl, rfl⟩, by constructor <;> decide, rfl, rfl, rfl, rfl, rfl,
    show (0 : BitVec 2) < 1 by decide, rfl, rfl, rfl, rfl, show 12 ≠ 80 by decide⟩⟩

/-- The deck at the end of the gap of a MARK, with these classes in the FIFO. -/
def heardMark (fifo : List CueClass) : Ttc :=
  { Ttc.reset with
    gapTimer := some 0, decoder := .gap, lastFall := 200, route := .toShow, fifo := fifo.map fun c => ⟨c, 0, 0⟩ }

/-- A MARK that joins the FIFO while an AWAIT_TAPE waits: no cue of its class, and one behind a cue of another class, for
Obligations.AwaitResolved. -/
theorem witness_AwaitResolved_tape (slide : Bool) :
    classOf? (200 : Word).toNat = some .mark ∧
    (∃ s : State, Ready s ∧ s.ttc = heardMark [.advance] ∧ ∃ r, s.ce.awaits? 2 = some r ∧ recWaitArg r = 3) ∧
    (∃ s : State, Ready s ∧ s.ttc = heardMark [.advance] ∧ ∃ r, s.ce.awaits? 2 = some r ∧ recWaitArg r = 2 ∧
      Way slide false s s.ce r) := by
  refine ⟨by decide, ⟨{ State.reset with
    ce := shown .running .waiting (await 2 3 0 false), ttc := heardMark [.advance] }, ⟨rfl, rfl⟩, rfl, _, rfl, by decide⟩,
    { awaiting slide (shown .running .waiting (await 2 2 0 slide)) with ttc := heardMark [.advance] }, ⟨rfl, rfl⟩, rfl, ?_⟩
  cases slide
  · exact ⟨_, rfl, by decide, ⟨by decide, ⟨by decide, by decide⟩, by decide, by decide⟩⟩
  · exact ⟨_, rfl, by decide, ⟨by decide, nofun⟩⟩

/-- The last change of channel 1 with an AWAIT_RUN of that channel waiting, for Obligations.AwaitResolved. -/
theorem witness_AwaitResolved_run : ∃ s : State, Ready s ∧ s.tmc.state = .settle ∧ s.tmc.settleTimer = some 0 ∧
    s.tmc.gate = .loaded ∧ s.tmc.n ≠ 0 ∧ ∃ op, s.tmc.op = some op ∧ op.source = .run ∧ s.ca.inService = some op ∧
    (∀ source, s.ca.slots.get source = none) ∧ s.rcu.pendingMarker = none ∧ s.rcu.serviceMarker = some ⟨1, false⟩ ∧
    (s.rcu.channels.get 1).count = 0 ∧ (∀ other, (s.rcu.channels.get other).mask = true ∨
      (s.rcu.channels.get other).request = false ∨ other = 1) ∧ ∃ r, s.ce.awaits? 4 = some r ∧ recWaitArg r = 1 ∧
    Way false false s s.ce r :=
  ⟨{ State.reset with
      tmc := { Tmc.reset with
        tcode := 1, n := 80, state := .settle, settleTimer := some 0, gate := .loaded, op := some ⟨.changeTo 5, .run, 2⟩ }
      ca := { Ca.reset with inService := some ⟨.changeTo 5, .run, 2⟩ }
      rcu := { Rcu.reset with serviceMarker := some ⟨1, false⟩ }
      ce := shown .running .waiting (await 4 1 0 false) },
   ⟨rfl, rfl⟩, rfl, rfl, rfl, by decide, _, rfl, rfl, rfl, by intro source; cases source <;> rfl, rfl, rfl, rfl, by
    intro other; obtain ⟨k⟩ := other; match k with
    | 0 | 1 | 2 | 3 => exact .inl rfl,
   _, rfl, by decide, ⟨by decide, ⟨by decide, by decide⟩, by decide, by decide⟩⟩

/-- A PAUSED show with an await current, for SHOW_RESUME in Obligations.AwaitResolved: a timeout reached, and each form with
none reached, a cue of its class in the FIFO and its channel's TC set. -/
theorem witness_AwaitResolved_resumed (slide : Bool) :
    (∃ s : State, Ready s ∧ s.ce.showState = .paused ∧ ∃ r, ({ s.ce with showState := .running } : Ce).waiting? = some r ∧
      (recIsAwait r && decide (0 < recTime r) &&
        reached s.ce.clock (s.ce.startInstant + BitVec.ofNat 32 (10 * recTime r))) = true ∧
      Way slide true s { s.ce with showState := .running } r) ∧
    ∀ form ∈ [2, 3, 4, 5], ∃ s : State, Ready s ∧ s.ce.showState = .paused ∧ s.ttc.fifo = [⟨.mark, 0, 0⟩] ∧
      (s.rcu.channels.get 2).tc = true ∧ ∃ r, ({ s.ce with showState := .running } : Ce).waiting? = some r ∧
      (recIsAwait r && decide (0 < recTime r) &&
        reached s.ce.clock (s.ce.startInstant + BitVec.ofNat 32 (10 * recTime r))) = false ∧ recForm r = form ∧
      recWaitArg r = 2 ∧ Way slide false s { s.ce with showState := .running } r := by
  constructor
  · refine ⟨awaiting slide (shown .paused .waiting (await 5 0 1 slide)), ⟨rfl, rfl⟩, rfl, ?_⟩
    cases slide
    · exact ⟨_, rfl, by decide, ⟨by decide, ⟨by decide, by decide⟩, by decide, by decide⟩⟩
    · exact ⟨_, rfl, by decide, ⟨by decide, nofun⟩⟩
  · intro form h
    refine ⟨{ awaiting slide (shown .paused .waiting (await (BitVec.ofNat 8 form) 2 0 slide)) with
      ttc := { Ttc.reset with fifo := [⟨.mark, 0, 0⟩] }
      rcu := { Rcu.reset with channels := Rcu.reset.channels.set 2 { Channel.cleared with tc := true } } },
      ⟨rfl, rfl⟩, rfl, rfl, rfl, ?_⟩
    simp only [List.mem_cons, List.not_mem_nil, or_false] at h
    rcases h with rfl | rfl | rfl | rfl <;> cases slide <;>
      first
        | exact ⟨_, rfl, by decide, by decide, by decide, ⟨by decide, ⟨by decide, by decide⟩, by decide, by decide⟩⟩
        | exact ⟨_, rfl, by decide, by decide, by decide, ⟨by decide, nofun⟩⟩

/-- The record is due at its fire instant in this state, with what Obligations.Timeline asks of an issue: the slot free for a
slide change, and a successor in the store where the timeline instant is reached too. -/
def DueNow (s : State) (r : List Byte) (atT : Bool) : Prop :=
  s.notices = [] ∧ s.ce.waiting? = some r ∧ recForm r = 1 ∧ reached s.ce.clock (firesAt s.ce s.tmc.outTime r) = true ∧
    reached s.ce.clock (s.ce.startInstant + BitVec.ofNat 32 (10 * recTime r)) = atT ∧ recRepeat r = 0 ∧
    s.ce.queue.length = 1 ∧ (recNextIndex s.ce.index r).1 < 3968 ∧ s.ca.slots.cue = none ∧
    s.ce.pendingMarker = none ∧ s.ca.inService = none ∧ (recExtraOp r = 4 → s.rcu.pendingMarker ≠ none)

/-- A DELAY of this first byte with a lamp action and this extra action; its time stands at the show clock, or past it by
less than the lead. -/
def delaying (b0 extra lampHi : Byte) (atT : Bool) (state : MechState) : State :=
  { State.reset with
    tmc := { Tmc.reset with state := state, n := if state = .ready then 80 else 0 }
    rcu := { Rcu.reset with pendingMarker := some ⟨0, false⟩ }
    ce := { shown .running .waiting (record b0 0 (if atT then 1 else 2) 0 0xFF lampHi extra) with leadOn := !atT } }

/-- A record with a lamp action and each of the extra actions, without a slide action and with one, at its timeline instant
and before it, for Obligations.Timeline. -/
theorem witness_Timeline_acted :
    (∀ extra ∈ [0, 1, 2, 3, 4, 5], ∃ s r, DueNow s r true ∧ recHasSlide r = false ∧ recHasLamp r = true ∧
      recExtraOp r = extra) ∧
    ∀ atT : Bool, ∃ s r, DueNow s r atT ∧ recHasSlide r = true ∧ recHasLamp r = true ∧ s.tmc.state = .jammed := by
  constructor
  · intro extra h
    refine ⟨delaying 1 (BitVec.ofNat 8 extra) 0 true .jammed, _, ⟨rfl, rfl, ?_⟩, ?_⟩
    all_goals
      simp only [List.mem_cons, List.not_mem_nil, or_false] at h
      rcases h with rfl | rfl | rfl | rfl | rfl | rfl <;> decide
  · intro atT
    refine ⟨delaying 0x11 0 0 atT .jammed, _, ⟨rfl, rfl, ?_⟩, ?_⟩ <;> cases atT <;> decide

/-- A slide change that is refused at once, by each state of the mechanism, for Obligations.Timeline. -/
theorem witness_Timeline_refused (atT : Bool) : ∀ state ∈ [MechState.noTray, .unhomed, .ready],
    ∃ s r, DueNow s r atT ∧ recHasSlide r = true ∧ recPlain r ∧ s.ca.masks.cue = false ∧
      (∀ source, s.ca.slots.get source = none) ∧ s.cu.flag = false ∧ s.tmc.state = state ∧
      recSlideKind r = .changeTo 90 ∧ (state = .ready → s.tmc.n < 90) := by
  intro state h
  refine ⟨delaying 0x11 0 0xFF atT state, _, ⟨rfl, rfl, ?_⟩, ?_⟩ <;>
    simp only [List.mem_cons, List.not_mem_nil, or_false] at h <;> rcases h with rfl | rfl | rfl <;> cases atT
  all_goals first
    | decide
    | exact ⟨by decide, ⟨by decide, by decide⟩, by decide, by intro source; cases source <;> rfl, by decide, by decide,
        by decide, by decide⟩

/-- A FIRED record with REPEAT 2 and this loop table, for Obligations.Timeline: no entry, one that counts down, one that is
given up, and a full table. -/
theorem witness_Timeline_loops : ∀ loops ∈ [[], [⟨7, 1⟩, ⟨3, 1⟩], [⟨3, 0⟩, ⟨7, 1⟩], [⟨7, 1⟩, ⟨8, 0⟩, ⟨9, 0⟩, ⟨10, 254⟩]],
    ∃ s : State, s.notices = [] ∧ s.ce.showState = .running ∧ s.ce.phase = .fired ∧
      reached s.ce.clock s.ce.timelineInstant = true ∧ recForm s.ce.fired = 1 ∧ s.ce.queue.length = 1 ∧
      recRepeat s.ce.fired = 2 ∧ (recAltIndex s.ce.index s.ce.fired).1 < 3968 ∧
      (recNextIndex s.ce.index s.ce.fired).1 < 3968 ∧ s.ce.index = 3 ∧ s.ce.loops = loops :=
  fun loops _ => ⟨{ State.reset with
      ce := { shown .running .fired (record 1 0 0 2 0xFF 0xFF 0) with loops := loops } },
    rfl, rfl, rfl, show reached 10 0 = true by decide, rfl, rfl, rfl, show 5 < 3968 by decide,
    show 4 < 3968 by decide, rfl, rfl⟩

/-- The engine with a HELD DELAY before its timeline instant. -/
def holding (showState : ShowState) (marker : Option Bool) : Ce :=
  { shown showState .held (record 0x11 0 0 0 0xFF 0xFF 0) with timelineInstant := 20, pendingMarker := marker }

theorem holding_ready (showState : ShowState) (marker : Option Bool) :
    let ce := holding showState marker
    ce.phase = .held ∧ recHasSlide ce.fired = true ∧ recPlain ce.fired ∧ recIsDelay ce.fired = true ∧
      reached ce.clock ce.timelineInstant = false :=
  ⟨rfl, show recHasSlide (record 0x11 0 0 0 0xFF 0xFF 0) = true by decide,
   ⟨show recHasLamp (record 0x11 0 0 0 0xFF 0xFF 0) = false by decide,
    show recExtraOp (record 0x11 0 0 0 0xFF 0xFF 0) = 0 by decide⟩,
   show recIsDelay (record 0x11 0 0 0 0xFF 0xFF 0) = true by decide, show reached 10 20 = false by decide⟩

/-- A HELD record offered at SHOW_RESUME, and one behind a pending CUE record that an ARB_MASK lets be granted, for
Obligations.Timeline. -/
theorem witness_Timeline_held (stale : Bool) :
    (∃ s : State, Ready s ∧ s.ce = holding .paused none ∧ s.ca.slots.cue = none ∧ s.tmc.state = .jammed ∧
      s.ca.inService = none) ∧
    (∃ s : State, Ready s ∧ s.ce = holding .running (some stale) ∧
      s.ca.slots = ⟨none, some ⟨.changeTo 80, 1⟩, none, none, none⟩ ∧ s.ca.masks.cue = true ∧ s.tmc.state = .ready ∧
      s.tmc.homed = true ∧ s.ca.inService = none ∧ s.cu.flag = false ∧ (1 : BitVec 2) ≤ s.ca.levels.cue ∧
      80 ≤ s.tmc.n ∧ targetOf s.tmc (.changeTo 80) ≠ s.tmc.p) :=
  ⟨⟨{ State.reset with ce := holding .paused none, tmc := { Tmc.reset with state := .jammed } }, ⟨rfl, rfl⟩, rfl, rfl, rfl,
    rfl⟩,
   ⟨{ choosing .cue with
      ce := holding .running (some stale)
      ca := { (choosing .cue).ca with slots := ⟨none, some ⟨.changeTo 80, 1⟩, none, none, none⟩ } },
    ⟨rfl, rfl⟩, rfl, rfl, rfl, rfl, rfl, rfl, rfl, show (1 : BitVec 2) ≤ 1 by decide, Nat.le_refl 80,
    show 80 ≠ 12 by decide⟩⟩

/-! ### Ways on from a record (Safety.Passes, Safety.Enters) -/

/-- A state with these entries behind its current record. -/
def trailed (tail : List StagedEntry) (s : State) : State :=
  { s with ce := { s.ce with queue := s.ce.queue.take 1 ++ tail } }

/-- An entry of this index and tag, with this copy. -/
def staged (next : Nat × BranchTag) (r : List Byte) : StagedEntry := ⟨next.1, r, true, next.2⟩

/-- A due record whose actions are all taken, with this successor, these entries behind it and this CUE slot. -/
structure GoesOn (u : State) (next : Nat × BranchTag) (tail : List StagedEntry) (slot : Option Request) : Prop where
  takes : Takes u
  ends : 2 ≤ recForm u.ce.fired ∨ recForm u.ce.fired = 1 ∧ reached u.ce.clock u.ce.timelineInstant = true ∧
    recRepeat u.ce.fired = 0
  successor : next = if recForm u.ce.fired = 1 ∨ u.ce.timedOut = false then recNextIndex u.ce.index u.ce.fired
    else recAltIndex u.ce.index u.ce.fired
  behind : u.ce.queue.tail = tail
  slot : u.ca.slots.cue = slot

/-- A due record without a slide action goes on, with all asked of it by its own bytes. -/
theorem goesOn_of {u : State} {r : List Byte} {next : Nat × BranchTag} (fired : u.ce.fired = r)
    (plain : recHasSlide r = false ∧ recExtraOp r = 0)
    (ends : 2 ≤ recForm r ∨ recForm r = 1 ∧ recRepeat r = 0) (past : reached u.ce.clock u.ce.timelineInstant = true)
    (successor : next = if recForm r = 1 ∨ u.ce.timedOut = false then recNextIndex u.ce.index r
      else recAltIndex u.ce.index r) : GoesOn u next u.ce.queue.tail u.ca.slots.cue := by
  subst fired
  exact ⟨⟨fun h => absurd h (by simp [plain.1]), fun h => absurd h (by simp [plain.2])⟩,
    ends.imp id fun h => ⟨h.1, past, h.2⟩, successor, rfl, rfl⟩

/-- The part with that record, these entries behind it and this CUE slot. -/
def going (tail : List StagedEntry) (slot : Option Request) (ce : Ce) : State :=
  trailed tail { State.reset with ce := ce, ca := { Ca.reset with slots := { Ca.reset.slots with cue := slot } } }

/-- The entries behind the current record for each clause of Safety.Passes and Safety.Enters: none, one of another tag, and the
successor itself, still loading, an END, bad, at rest, past its fire instant with the CUE slot occupied, and past its fire
instant before its timeline instant. -/
theorem witness_Passes (next : Nat × BranchTag) (slot : Option Request) (head : StagedEntry) :
    ∀ u, u = { State.reset with
      ce := { Ce.reset with showState := .running, index := next.1, clock := 10, startInstant := 10 }
      ca := { Ca.reset with slots := { Ca.reset.slots with cue := slot } } } →
    (∃ tail, (head :: tail).length = 1) ∧
    (∃ e : StagedEntry, e.index ≠ next.1 ∨ e.tag ≠ next.2) ∧
    (∃ e : StagedEntry, e.index = next.1 ∧ e.tag = next.2 ∧ e.valid = false) ∧
    (∃ r, recBad r = true ∧ (staged next r).index = next.1 ∧ (staged next r).tag = next.2) ∧
    (∃ r, recBad r = false ∧ recForm r = 0) ∧
    (∀ form ∈ [1, 2, 3, 4, 5], ∃ r, recBad r = false ∧ recForm r = form ∧ Rests u r) ∧
    (∃ r, recBad r = false ∧ recForm r = 1 ∧ reached u.ce.clock (firesAt u.ce u.tmc.outTime r) = true ∧
      recHasSlide r = true) ∧
    (∃ r, recBad r = false ∧ recForm r = 1 ∧ reached u.ce.clock (firesAt u.ce u.tmc.outTime r) = true ∧
      reached u.ce.clock (timeOf u.ce r) = false ∧
      (slot = none → ∀ tail, Takes { u with
        tmc := { u.tmc with state := .jammed }
        ce := dueAs (foreseeing { u.ce with queue := staged next r :: tail, phase := .waiting }) u.tmc.outTime r })) := by
  rintro u rfl
  refine ⟨⟨[], rfl⟩, ⟨⟨next.1 + 1, [], true, next.2⟩, .inl (Nat.succ_ne_self _)⟩, ⟨⟨next.1, [], false, next.2⟩, rfl, rfl, rfl⟩,
    ⟨record 6 0 0 0 0xFF 0xFF 0, by decide, rfl, rfl⟩, ⟨record 0 0 0 0 0xFF 0xFF 0, by decide, by decide⟩, ?_,
    ⟨record 0x11 0 2 0 0xFF 0xFF 0, by decide, by decide, show reached 10 10 = true by decide, by decide⟩,
    ⟨record 0x11 0 2 0 0xFF 0xFF 0, by decide, by decide, show reached 10 10 = true by decide,
      show reached 10 30 = false by decide, fun h tail => ⟨fun _ => ⟨h, rfl, .inl ⟨rfl, rfl⟩⟩,
      fun h => absurd h (show recExtraOp (record 0x11 0 2 0 0xFF 0xFF 0) ≠ 4 by decide)⟩⟩⟩
  intro form h
  simp only [List.mem_cons, List.not_mem_nil, or_false] at h
  rcases h with rfl | rfl | rfl | rfl | rfl
  · exact ⟨record 1 0 2 0 0xFF 0xFF 0, by decide, by decide, .inr (.inl ⟨by decide, show reached 10 30 = false by decide⟩)⟩
  · exact ⟨await 2 1 0 false, by decide, by decide,
      .inr (.inr ⟨by decide, .inl (by decide), fun _ => rfl, fun h => absurd h (by decide)⟩)⟩
  · exact ⟨await 3 1 2 false, by decide, by decide,
      .inr (.inr ⟨by decide, .inr (show reached 10 30 = false by decide), fun _ => rfl, fun h => absurd h (by decide)⟩)⟩
  · exact ⟨await 4 1 0 false, by decide, by decide,
      .inr (.inr ⟨by decide, .inl (by decide), fun _ => rfl, fun _ => rfl⟩)⟩
  · exact ⟨await 5 1 0 false, by decide, by decide,
      .inr (.inr ⟨by decide, .inl (by decide), fun _ => rfl, fun h => absurd h (by decide)⟩)⟩

/-- An AWAIT_GO with TIME 1, its timeout reached at 10 ms of the show clock. -/
theorem timed_out : (recIsAwait (await 5 0 1 false) && decide (0 < recTime (await 5 0 1 false)) &&
    reached 10 (0 + BitVec.ofNat 32 (10 * recTime (await 5 0 1 false)))) = true := by decide

/-- An await without actions goes on from any entries behind it and with any CUE slot: by a CUE_GO, by its timeout, by the
cue and the terminal count it waits for, and at SHOW_RESUME by its timeout, its cue and its channel, for
Obligations.AwaitResolved. -/
theorem witness_AwaitResolved_onward (tail : List StagedEntry) (slot : Option Request) :
    (∃ s : State, Ready s ∧ ∃ r, s.ce.awaits? 5 = some r ∧
      GoesOn { s with ce := resolved s.ce r false } (4, .next) tail slot) ∧
    (∃ s : State, Ready s ∧ ∃ r, s.ce.waiting? = some r ∧
      (recIsAwait r && decide (0 < recTime r) && reached s.ce.clock (timeOf s.ce r)) = true ∧
      GoesOn { s with ce := resolved s.ce r true } (5, .alt) tail slot) ∧
    (∃ s : State, Ready s ∧ s.ttc = heardMark [.advance] ∧ ∃ r, s.ce.awaits? 2 = some r ∧ recWaitArg r = 2 ∧
      GoesOn { s with ttc := { s.ttc with fifo := [] }, ce := resolved s.ce r false } (4, .next) tail slot) ∧
    (∃ s : State, Ready s ∧ s.tmc.state = .settle ∧ s.tmc.n ≠ 0 ∧ s.rcu.pendingMarker = none ∧
      s.rcu.serviceMarker = some ⟨1, false⟩ ∧ ∃ r, s.ce.awaits? 4 = some r ∧ recWaitArg r = 1 ∧
      GoesOn { s with ce := resolved s.ce r false } (4, .next) tail none) ∧
    (∃ s : State, Ready s ∧ s.ce.showState = .paused ∧ ∃ ce, ce = { s.ce with showState := .running } ∧
      ∃ r, ce.waiting? = some r ∧
      (recIsAwait r && decide (0 < recTime r) && reached s.ce.clock (timeOf s.ce r)) = true ∧
      GoesOn { s with ce := resolved ce r true } (5, .alt) tail slot) ∧
    (∀ form ∈ [2, 4], ∃ s : State, Ready s ∧ s.ce.showState = .paused ∧ s.ttc.fifo = [⟨.mark, 0, 0⟩] ∧
      (s.rcu.channels.get 2).tc = true ∧ ∃ ce, ce = { s.ce with showState := .running } ∧ ∃ r, ce.waiting? = some r ∧
      recForm r = form ∧ recTime r = 0 ∧ recWaitArg r = 2 ∧
      GoesOn { s with ce := resolved ce r false } (4, .next) tail slot) := by
  refine ⟨⟨going tail slot (shown .running .waiting (await 5 0 0 false)), ⟨rfl, rfl⟩, _, rfl, ?_⟩,
    ⟨going tail slot (shown .running .waiting (await 5 0 1 false)), ⟨rfl, rfl⟩, _, rfl, timed_out, ?_⟩,
    ⟨{ going tail slot (shown .running .waiting (await 2 2 0 false)) with ttc := heardMark [.advance] }, ⟨rfl, rfl⟩, rfl,
      _, rfl, by decide, ?_⟩,
    ⟨{ going tail none (shown .running .waiting (await 4 1 0 false)) with
        tmc := { Tmc.reset with tcode := 1, n := 80, state := .settle }
        rcu := { Rcu.reset with serviceMarker := some ⟨1, false⟩ } },
      ⟨rfl, rfl⟩, rfl, show 80 ≠ 0 by decide, rfl, rfl, _, rfl, by decide, ?_⟩,
    ⟨going tail slot (shown .paused .waiting (await 5 0 1 false)), ⟨rfl, rfl⟩, rfl, _, rfl, _, rfl, timed_out, ?_⟩, ?_⟩
  · exact goesOn_of (r := await 5 0 0 false) rfl (by decide) (by decide) (show reached 10 10 = true by decide) rfl
  · exact goesOn_of (r := await 5 0 1 false) rfl (by decide) (by decide) (show reached 10 10 = true by decide) rfl
  · exact goesOn_of (r := await 2 2 0 false) rfl (by decide) (by decide) (show reached 10 10 = true by decide) rfl
  · exact goesOn_of (r := await 4 1 0 false) rfl (by decide) (by decide) (show reached 10 10 = true by decide) rfl
  · exact goesOn_of (r := await 5 0 1 false) rfl (by decide) (by decide) (show reached 10 10 = true by decide) rfl
  intro form h
  refine ⟨{ going tail slot (shown .paused .waiting (await (BitVec.ofNat 8 form) 2 0 false)) with
    ttc := { Ttc.reset with fifo := [⟨.mark, 0, 0⟩] }
    rcu := { Rcu.reset with channels := Rcu.reset.channels.set 2 { Channel.cleared with tc := true } } },
    ⟨rfl, rfl⟩, rfl, rfl, rfl, _, rfl, _, rfl, ?_⟩
  simp only [List.mem_cons, List.not_mem_nil, or_false] at h
  rcases h with rfl | rfl
  · exact ⟨by decide, by decide, by decide,
      goesOn_of (r := await 2 2 0 false) rfl (by decide) (by decide) (show reached 10 10 = true by decide) rfl⟩
  · exact ⟨by decide, by decide, by decide,
      goesOn_of (r := await 4 2 0 false) rfl (by decide) (by decide) (show reached 10 10 = true by decide) rfl⟩

/-- A DELAY without actions goes on at its timeline instant from any entries behind it and with any CUE slot: at its fire
instant, by a SHOW_LEAD, FIRED at its timeline instant, and at SHOW_RESUME from WAITING, HELD and FIRED, for
Obligations.Timeline. -/
theorem witness_Timeline_onward (tail : List StagedEntry) (slot : Option Request) :
    (∃ s : State, Ready s ∧ ∃ r, s.ce.waiting? = some r ∧ recForm r = 1 ∧ ∃ due, due = dueAs s.ce s.tmc.outTime r ∧
      reached s.ce.clock due.dueInstant = true ∧ GoesOn { s with ce := due } (4, .next) tail slot) ∧
    (∃ s : State, Ready s ∧ ∃ r, s.ce.waiting? = some r ∧ recForm r = 1 ∧
      ∃ ce, ce = { s.ce with leadOn := decide ((0 : Byte) = 1), leadExtra := 0 } ∧
      ∃ due, due = dueAs ce s.tmc.outTime r ∧ reached s.ce.clock due.dueInstant = true ∧
      GoesOn { s with ce := due } (4, .next) tail slot) ∧
    (∃ s : State, Ready s ∧ s.ce.showState = .running ∧ s.ce.phase = .fired ∧ GoesOn s (4, .next) tail slot) ∧
    (∃ s : State, Ready s ∧ s.ce.showState = .paused ∧ ∃ ce, ce = { s.ce with showState := .running } ∧
      ∃ r, ce.waiting? = some r ∧ recForm r = 1 ∧ ∃ due, due = dueAs ce s.tmc.outTime r ∧
      reached s.ce.clock due.dueInstant = true ∧ GoesOn { s with ce := due } (4, .next) tail slot) ∧
    (∀ phase ∈ [Phase.held, .fired], ∃ s : State, Ready s ∧ s.ce.showState = .paused ∧ s.ce.phase = phase ∧
      ∃ ce, ce = { s.ce with showState := .running } ∧ GoesOn { s with ce := ce } (4, .next) tail slot) := by
  have r1 : recHasSlide (record 1 0 1 0 0xFF 0xFF 0) = false ∧ recExtraOp (record 1 0 1 0 0xFF 0xFF 0) = 0 := by decide
  have r2 : 2 ≤ recForm (record 1 0 1 0 0xFF 0xFF 0) ∨
      recForm (record 1 0 1 0 0xFF 0xFF 0) = 1 ∧ recRepeat (record 1 0 1 0 0xFF 0xFF 0) = 0 := by decide
  exact ⟨⟨going tail slot (shown .running .waiting (record 1 0 1 0 0xFF 0xFF 0)), ⟨rfl, rfl⟩, _, rfl, by decide, _, rfl,
      show reached 10 (0 + 10) = true by decide, goesOn_of rfl r1 r2 (show reached 10 (0 + 10) = true by decide) rfl⟩,
    ⟨going tail slot (shown .running .waiting (record 1 0 1 0 0xFF 0xFF 0)), ⟨rfl, rfl⟩, _, rfl, by decide, _, rfl, _, rfl,
      show reached 10 (0 + 10) = true by decide, goesOn_of rfl r1 r2 (show reached 10 (0 + 10) = true by decide) rfl⟩,
    ⟨going tail slot (shown .running .fired (record 1 0 1 0 0xFF 0xFF 0)), ⟨rfl, rfl⟩, rfl, rfl,
      goesOn_of rfl r1 r2 (show reached 10 0 = true by decide) rfl⟩,
    ⟨going tail slot (shown .paused .waiting (record 1 0 1 0 0xFF 0xFF 0)), ⟨rfl, rfl⟩, rfl, _, rfl, _, rfl, by decide, _,
      rfl, show reached 10 (0 + 10) = true by decide,
      goesOn_of rfl r1 r2 (show reached 10 (0 + 10) = true by decide) rfl⟩,
    fun phase _ => ⟨going tail slot (shown .paused phase (record 1 0 1 0 0xFF 0xFF 0)), ⟨rfl, rfl⟩, rfl, rfl, _, rfl,
      goesOn_of rfl r1 r2 (show reached 10 0 = true by decide) rfl⟩⟩

/-- An instant that has not come, at a SHOW_LEAD and at SHOW_RESUME from WAITING and from FIRED, for Obligations.Timeline. -/
theorem witness_Timeline_early :
    (∃ s : State, Ready s ∧ ∃ r, s.ce.waiting? = some r ∧ recForm r = 1 ∧
      reached s.ce.clock (dueAs { s.ce with leadOn := false, leadExtra := 0 } s.tmc.outTime r).dueInstant = false) ∧
    (∃ s : State, Ready s ∧ s.ce.showState = .paused ∧ ∃ r, ({ s.ce with showState := .running } : Ce).waiting? = some r ∧
      recForm r = 1 ∧ reached s.ce.clock (dueAs s.ce s.tmc.outTime r).dueInstant = false) ∧
    (∃ s : State, Ready s ∧ s.ce.showState = .paused ∧ s.ce.phase = .fired ∧
      reached s.ce.clock s.ce.timelineInstant = false) :=
  ⟨⟨{ State.reset with ce := shown .running .waiting (record 1 0 2 0 0xFF 0xFF 0) }, ⟨rfl, rfl⟩, _, rfl, by decide,
      by decide⟩,
   ⟨{ State.reset with ce := shown .paused .waiting (record 1 0 2 0 0xFF 0xFF 0) }, ⟨rfl, rfl⟩, rfl, _, rfl, by decide,
      by decide⟩,
   ⟨{ State.reset with ce := { shown .paused .fired (record 1 0 2 0 0xFF 0xFF 0) with timelineInstant := 20 } },
    ⟨rfl, rfl⟩, rfl, rfl, show reached 10 20 = false by decide⟩⟩

/-- Each case of the loop table with any entries behind the record, for the step of Safety.Succeeds: no entry, one that counts
down, one that is given up, and a full table. -/
theorem witness_Succeeds_loops (tail : List StagedEntry) (slot : Option Request) :
    ∀ loops ∈ [[], [⟨7, 1⟩, ⟨3, 1⟩], [⟨3, 0⟩, ⟨7, 1⟩], [⟨7, 1⟩, ⟨8, 0⟩, ⟨9, 0⟩, ⟨10, 254⟩]],
    ∃ s : State, Ready s ∧ s.ce.showState = .running ∧ s.ce.phase = .fired ∧
      reached s.ce.clock s.ce.timelineInstant = true ∧ recForm s.ce.fired = 1 ∧ recRepeat s.ce.fired = 2 ∧
      recAltIndex s.ce.index s.ce.fired = (5, .alt) ∧ recNextIndex s.ce.index s.ce.fired = (4, .next) ∧
      s.ce.index = 3 ∧ s.ce.loops = loops ∧ s.ce.queue.tail = tail ∧ s.ca.slots.cue = slot :=
  fun loops _ => ⟨going tail slot { shown .running .fired (record 1 0 0 2 0xFF 0xFF 0) with loops := loops },
    ⟨rfl, rfl⟩, rfl, rfl, show reached 10 0 = true by decide, rfl, rfl, rfl, rfl, rfl, rfl, rfl, rfl⟩

/-- A DELAY whose slide change is refused at once, at its timeline instant, with each entry behind it that
Obligations.Timeline names: one still loading, one at rest and one of another tag. -/
theorem witness_Timeline_refused_onward :
    ∀ e ∈ [(⟨4, [], false, .next⟩ : StagedEntry), staged (4, .next) (await 5 0 0 false), staged (4, .alt) (await 5 0 0 false)],
    ∃ (s : State) (r : List Byte), s.notices = [] ∧ s.ce.waiting? = some r ∧ recForm r = 1 ∧ recHasSlide r = true ∧ recPlain r ∧
      reached s.ce.clock (dueAs s.ce s.tmc.outTime r).dueInstant = true ∧
      reached s.ce.clock (dueAs s.ce s.tmc.outTime r).timelineInstant = true ∧ recRepeat r = 0 ∧
      recNextIndex s.ce.index r = (4, .next) ∧ s.ce.queue[1]? = some e ∧ s.ce.queue.length = 2 ∧
      (∀ ce : Ce, Rests { s with ce := ce } (await 5 0 0 false)) ∧ s.ca.masks.cue = false ∧
      s.ca.inService = none ∧ (∀ source, s.ca.slots.get source = none) ∧ s.ce.pendingMarker = none ∧ s.cu.flag = false ∧
      s.tmc.state = .noTray := by
  intro e _
  refine ⟨trailed [e] (delaying 0x11 0 0xFF true .noTray), record 0x11 0 1 0 0xFF 0xFF 0, rfl, rfl, by decide, by decide,
    ⟨by decide, by decide⟩, show reached 10 (0 + 10) = true by decide, show reached 10 (0 + 10) = true by decide, by decide,
    rfl, rfl, rfl, ?_, rfl, rfl, by intro source; cases source <;> rfl, rfl, rfl, rfl⟩
  exact fun ce => .inr (.inr ⟨by decide, .inl (by decide), fun h => absurd h (by decide), fun h => absurd h (by decide)⟩)

/-- A press that an AWAIT_KEY of key 4 takes with any entries behind it, and a frame of key 4 that resumes a show PAUSED there,
for Obligations.RemoteFrame. -/
theorem witness_RemoteFrame_onward (tail : List StagedEntry) (slot : Option Request) :
    (∃ s : State, s.notices = [] ∧ s.rr = framed defaultKeyMap none ∧ ∃ r, s.ce.awaits? 3 = some r ∧ recWaitArg r = 4 ∧
      GoesOn { s with ce := resolved s.ce r false } (4, .next) tail slot) ∧
    (∃ s : State, s.notices = [] ∧ s.rr = framed (keys 8 2) (some ⟨0, false, false⟩) ∧ s.ce.showState = .paused ∧
      ∃ ce, ce = { s.ce with showState := .running } ∧ ∃ r, ce.awaits? 3 = some r ∧ recWaitArg r = 4 ∧
      recTime r = 0 ∧ GoesOn { s with ce := resolved ce r false } (4, .next) tail slot) ∧
    (∃ s : State, s.notices = [] ∧ s.rr = framed (keys 8 2) (some ⟨0, false, false⟩) ∧ s.ce.showState = .paused ∧
      ∃ ce, ce = { s.ce with showState := .running } ∧ ∃ r, ce.awaits? 3 = some r ∧ recWaitArg r = 4 ∧
      0 < recTime r ∧ reached s.ce.clock (s.ce.startInstant + BitVec.ofNat 32 (10 * recTime r)) = true ∧
      GoesOn { s with ce := resolved ce r true } (5, .alt) tail slot) :=
  ⟨⟨{ going tail slot (shown .running .waiting (await 3 4 0 false)) with rr := framed defaultKeyMap none }, rfl, rfl, _, rfl,
      by decide, goesOn_of (r := await 3 4 0 false) rfl (by decide) (by decide)
        (show reached 10 10 = true by decide) rfl⟩,
   ⟨{ going tail slot (shown .paused .waiting (await 3 4 0 false)) with
      rr := framed (keys 8 2) (some ⟨0, false, false⟩) }, rfl, rfl, rfl, _, rfl, _, rfl, by decide, by decide,
      goesOn_of (r := await 3 4 0 false) rfl (by decide) (by decide)
        (show reached 10 10 = true by decide) rfl⟩,
   ⟨{ going tail slot (shown .paused .waiting (await 3 4 1 false)) with
      rr := framed (keys 8 2) (some ⟨0, false, false⟩) }, rfl, rfl, rfl, _, rfl, _, rfl, by decide, by decide,
      show reached 10 (0 + 10) = true by decide, goesOn_of (r := await 3 4 1 false) rfl (by decide) (by decide)
        (show reached 10 10 = true by decide) rfl⟩⟩

/-- A slide change whose deposit is taken and stays in the slot, beside a JAMMED mechanism, beside an operation that it does not
preempt and with the source masked, for the issues of Obligations.Timeline and Obligations.AwaitResolved. -/
theorem witness_Takes (tail : List StagedEntry) : ∀ form ∈ [1, 5],
    ∀ c ∈ [(MechState.jammed, none, false), (.lift, some (⟨.home, .directive, 0⟩ : Operation), false), (.ready, none, true)],
    ∃ u : State, Takes u ∧ recForm u.ce.fired = form ∧ recHasSlide u.ce.fired = true ∧ u.tmc.state = c.1 ∧
      u.ca.inService = c.2.1 ∧ u.ca.masks.cue = c.2.2 ∧ u.ce.queue.tail = tail := by
  intro form h c k
  refine ⟨{ going tail none (shown .running .waiting (record (0x10 + BitVec.ofNat 8 form) 0 1 0 0xFF 0xFF 0)) with
    tmc := { Tmc.reset with state := c.1 }
    ca := { Ca.reset with inService := c.2.1, masks := { Ca.reset.masks with cue := c.2.2 } } },
    ⟨fun _ => ⟨rfl, rfl, ?_⟩, ?_⟩, ?_, ?_, rfl, rfl, rfl, rfl⟩
  · simp only [List.mem_cons, List.not_mem_nil, or_false] at k
    rcases k with rfl | rfl | rfl
    · exact .inl ⟨rfl, rfl⟩
    · exact .inr (.inl ⟨_, rfl, show (0 : BitVec 2) ≤ 1 by decide⟩)
    · exact .inr (.inr ⟨rfl, by intro source; cases source <;> rfl⟩)
  all_goals
    simp only [List.mem_cons, List.not_mem_nil, or_false] at h
    rcases h with rfl | rfl <;>
      first
        | exact fun h => absurd h (show recExtraOp (record _ 0 1 0 0xFF 0xFF 0) ≠ 4 by decide)
        | exact show recForm (record _ 0 1 0 0xFF 0xFF 0) = _ by decide
        | exact show recHasSlide (record _ 0 1 0 0xFF 0xFF 0) = true by decide

/-- A slide change that is granted at once: a CHANGE_TO beyond the slot at the gate, by a DELAY before and at its timeline
instant and by an await, for the issues of Obligations.Timeline and Obligations.AwaitResolved. -/
theorem witness_Grants (tail : List StagedEntry) : ∀ form ∈ [1, 5], ∀ timeline ∈ [(5 : Word), 20],
    ∃ u : State, Grants u ∧ recForm u.ce.fired = form ∧ recSlideKind u.ce.fired = .changeTo 80 ∧
      reached u.ce.clock u.ce.timelineInstant = decide (timeline = 5) ∧ u.ce.queue.tail = tail := by
  intro form h timeline k
  have e : ∀ f ∈ [1, 5], recHasSlide ((record (0x10 + BitVec.ofNat 8 f) 0 1 0 0xFF 0xFF 0).set 4 80) = true ∧
      recSlideKind ((record (0x10 + BitVec.ofNat 8 f) 0 1 0 0xFF 0xFF 0).set 4 80) = .changeTo 80 ∧
      recExtraOp ((record (0x10 + BitVec.ofNat 8 f) 0 1 0 0xFF 0xFF 0).set 4 80) ≠ 4 ∧
      recForm ((record (0x10 + BitVec.ofNat 8 f) 0 1 0 0xFF 0xFF 0).set 4 80) = f := by decide
  obtain ⟨e1, e2, e3, e4⟩ := e form h
  refine ⟨{ going tail none { shown .running .waiting ((record (0x10 + BitVec.ofNat 8 form) 0 1 0 0xFF 0xFF 0).set 4 80) with
      timelineInstant := timeline } with
    tmc := { Tmc.reset with state := .ready, n := 80, homed := true, p := 12 } },
    ⟨e1, rfl, by intro source; cases source <;> rfl, rfl, ⟨rfl, rfl, rfl, show 80 ≠ 0 by decide⟩, .inl rfl, ?_, ?_,
      fun h => absurd h e3⟩, e4, e2, ?_, rfl⟩
  · intro slot hs
    cases (e2.symm.trans hs)
    exact Nat.le_refl 80
  · rintro ⟨-, ht, -⟩
    exact absurd ((congrArg (targetOf _) e2).symm.trans ht) (show 80 ≠ 12 by decide)
  · simp only [List.mem_cons, List.not_mem_nil, or_false] at k
    rcases k with rfl | rfl
    · exact show reached 10 5 = true by decide
    · exact show reached 10 20 = false by decide

/-- A HELD record at its timeline instant behind a pending CUE record that an ARB_MASK lets be granted, a DELAY and an await,
with any entries behind it, for Obligations.Timeline. -/
theorem witness_Timeline_held_onward (tail : List StagedEntry) : ∀ form ∈ [1, 5], ∃ s : State, Ready s ∧ s.ce.phase = .held ∧
    s.ce.showState = .running ∧ s.ce.pendingMarker = some false ∧ recHasSlide s.ce.fired = true ∧ recPlain s.ce.fired ∧
    recForm s.ce.fired = form ∧ reached s.ce.clock s.ce.timelineInstant = true ∧ recRepeat s.ce.fired = 0 ∧
    s.ca.slots = ⟨none, some ⟨.changeTo 80, 1⟩, none, none, none⟩ ∧ s.ca.masks.cue = true ∧ s.tmc.state = .ready ∧
    s.tmc.homed = true ∧ s.ca.inService = none ∧ s.cu.flag = false ∧ 80 ≤ s.tmc.n ∧
    targetOf s.tmc (.changeTo 80) ≠ s.tmc.p ∧ s.ce.queue.tail = tail := by
  intro form h
  refine ⟨trailed tail { choosing .cue with
    ce := { shown .running .held (record (0x10 + BitVec.ofNat 8 form) 0 0 0 0xFF 0xFF 0) with pendingMarker := some false }
    ca := { (choosing .cue).ca with slots := ⟨none, some ⟨.changeTo 80, 1⟩, none, none, none⟩ } }, ⟨rfl, rfl⟩, rfl, rfl, rfl,
    ?_, ?_, ?_, show reached 10 0 = true by decide, rfl, rfl, rfl, rfl, rfl, rfl, rfl, Nat.le_refl 80,
    show 80 ≠ 12 by decide, rfl⟩
  all_goals
    simp only [List.mem_cons, List.not_mem_nil, or_false] at h
    rcases h with rfl | rfl <;>
      first
        | exact show recHasSlide (record _ 0 0 0 0xFF 0xFF 0) = true by decide
        | exact ⟨show recHasLamp (record _ 0 0 0 0xFF 0xFF 0) = false by decide,
            show recExtraOp (record _ 0 0 0 0xFF 0xFF 0) = 0 by decide⟩
        | exact show recForm (record _ 0 0 0 0xFF 0xFF 0) = _ by decide

/-! ### Rows of the directive stream, edits and fetches of staged records -/

/-- Every code that the decoder collects or takes stands for a row with that many operand bytes, but for PART_RESET. -/
theorem test_rowOf_total : ∀ k < 256, k ≠ 1 → ∀ n, operandCount? (BitVec.ofNat 8 k) = some n →
    (rowOf (BitVec.ofNat 8 k) (List.replicate n 0)).isSome = true := by
  have h : ∀ k < 256, k = 1 ∨ ((operandCount? (BitVec.ofNat 8 k)).all fun n =>
      (rowOf (BitVec.ofNat 8 k) (List.replicate n 0)).isSome) = true := by decide
  intro k hk h1 n hn
  rcases h k hk with e | e
  · exact absurd e h1
  · rwa [hn] at e

/-- The operand order of LAMP_FADE, low byte first (10, section 10.6). -/
theorem test_rowOf_lampFade : rowOf 0x22 [0x20, 0x03, 4, 50] = some (.lampFade 0x20 0x03 4 50) := by decide

/-- A lead byte that stands for its row, and an operand byte that is the last of its directive, for
Obligations.DirectiveStream. -/
theorem witness_DirectiveStream_row :
    (∃ s : State, BusFree s ∧ Ram s ∧ s.pu.inReset = false ∧ rowOf 0x40 [] = some .tapePlay) ∧
    (∀ b : Byte, ∃ s : State, BusFree s ∧ Ram s ∧ s.pu.inReset = false ∧ s.dd.collecting = true ∧
      s.dd.received + 1 = s.dd.expected ∧
      rowOf s.dd.openCode (s.dd.buffer ++ [b]) = some (.lampFade 0x20 0x03 4 b)) :=
  ⟨⟨State.reset, ⟨rfl, rfl, by decide⟩, rfl, rfl, by decide⟩,
   fun b => ⟨{ State.reset with dd := ⟨true, 0x22, [0x20, 0x03, 4], 4, 3, 0, 0, 0⟩ }, ⟨rfl, rfl, by decide⟩, rfl, rfl, rfl,
    rfl, rfl⟩⟩

/-- A write to a staged record: entry 0 before it is due with others behind it, entry 0 due with and without a second entry of
the same record, and a later entry, with entries before it and behind it or without them, its copy valid or not, for
Obligations.SnoopedWrites. -/
theorem witness_SnoopedWrites_staged (behind : List StagedEntry) (request : Option WriteRequest) :
    (∀ phase ∈ [Phase.loading, .waiting], ∃ s : State, BusFree s ∧ Ram s ∧ s.pu.inReset = false ∧
      s.ce.queue = ⟨3, [], true, .next⟩ :: behind ∧ s.ce.phase = phase ∧ s.pu.rwRequest = request ∧
      s.pu.ceRequest = some 0x0830) ∧
    (∀ phase ∈ [Phase.held, .fired], ∀ stale : Bool, ∃ s : State, BusFree s ∧ Ram s ∧ s.pu.inReset = false ∧
      s.ce.queue = [⟨3, [], stale, .next⟩, ⟨4, [], true, .next⟩] ∧ s.ce.phase = phase) ∧
    (∀ phase ∈ [Phase.waiting, .fired], ∀ index ∈ [3, 7], ∀ valid : Bool, ∃ s : State, BusFree s ∧ Ram s ∧
      s.pu.inReset = false ∧ s.ce.phase = phase ∧ (index = 3 → phase = .fired ∨ phase = .waiting) ∧
      ∃ head rest, s.ce.queue = head :: rest ∧ head.index = index ∧
      ∃ pre e post, rest = pre ++ e :: post ∧ (∀ k ∈ pre, k.index ≠ 3) ∧ e.index = 3 ∧ e.valid = valid ∧ post = behind) :=
  ⟨fun phase _ => ⟨{ State.reset with
      pu := { Pu.reset with ceRequest := some 0x0830, rwRequest := request }
      ce := { Ce.reset with queue := ⟨3, [], true, .next⟩ :: behind, phase := phase } },
      ⟨rfl, rfl, .inl (show 0 < 8 by decide)⟩, rfl, rfl, rfl, rfl, rfl, rfl⟩,
   fun phase _ stale => ⟨{ State.reset with
      ce := { Ce.reset with queue := [⟨3, [], stale, .next⟩, ⟨4, [], true, .next⟩], phase := phase } },
      ⟨rfl, rfl, .inl (show 0 < 8 by decide)⟩, rfl, rfl, rfl, rfl⟩,
   fun phase h index _ valid => ⟨{ State.reset with
      ce := { Ce.reset with
        queue := ⟨index, [], true, .next⟩ :: ([⟨4, [], true, .next⟩] ++ ⟨3, [], valid, .alt⟩ :: behind), phase := phase } },
      ⟨rfl, rfl, .inl (show 0 < 8 by decide)⟩, rfl, rfl, rfl, fun _ => by
        simp only [List.mem_cons, List.not_mem_nil, or_false] at h
        exact h.symm,
      _, _, rfl, rfl, _, _, _, rfl, by decide, rfl, rfl, rfl⟩⟩

/-- The part at the last byte of this record's fetch, in this show state and phase, with these entries before it. -/
def fetchingLast (showState : ShowState) (phase : Phase) (before : List StagedEntry) (slot : Option Request)
    (r : List Byte) : State :=
  { State.reset with
    pu := { Pu.reset with own := some ⟨.cueEngine, 0x083F, none, true⟩ }
    tmc := { Tmc.reset with state := .jammed }
    ca := { Ca.reset with slots := { Ca.reset.slots with cue := slot } }
    ce := { shown showState phase r with queue := before ++ [⟨3, r.take 15, false, .sequential⟩] } }

/-- The sixteenth byte of each record that enters WAITING and rests there, in a show RUNNING and PAUSED, of a DELAY past its
fire instant, with the CUE slot occupied and free, and of a record staged behind others, for
Obligations.OwnCycleCompletes. -/
theorem witness_OwnCycleCompletes_fetched (slot : Option Request) :
    (∀ showState ∈ [ShowState.running, .paused],
      ∀ r ∈ [record 1 0 2 0 0xFF 0xFF 0, record 1 0 2 3 0xFF 0xFF 0, await 2 1 0 false, await 3 1 2 true, await 4 1 0 false,
        await 5 0 2 false],
      ∃ s : State, s.notices = [] ∧ Ram s ∧ s.ce.queue = [⟨3, r.take 15, false, .sequential⟩] ∧
        s.ce.fetching? = some ⟨3, r.take 15, false, .sequential⟩ ∧ s.ce.showState = showState ∧
        s.pu.own = some ⟨.cueEngine, 0x083F, none, true⟩ ∧
        r.take 15 ++ [Memory.read s.mem (s.pu.base + 0x083F).toNat] = r ∧ recBad r = false ∧ recForm r ≠ 0 ∧ s.ca.slots.cue = slot ∧
        Rests s r) ∧
    (∃ r, ∃ s : State, s.notices = [] ∧ Ram s ∧ s.ce.fetching? = some ⟨3, r.take 15, false, .sequential⟩ ∧
      s.ce.queue.length = 1 ∧ s.ce.showState = .running ∧ r.take 15 ++ [Memory.read s.mem (s.pu.base + 0x083F).toNat] = r ∧
      recBad r = false ∧ recForm r = 1 ∧ recHasSlide r = true ∧
      reached s.ce.clock (firesAt s.ce s.tmc.outTime r) = true ∧ reached s.ce.clock (timeOf s.ce r) = false ∧
      s.ca.slots.cue = slot ∧ s.tmc.state = .jammed ∧ s.ca.inService = none ∧ s.ce.pendingMarker = none ∧
      recExtraOp r ≠ 4) ∧
    (∀ phase ∈ [Phase.waiting, .fired], ∀ before ∈ [[staged (2, .next) (record 1 0 2 3 0xFF 0xFF 0)],
      [staged (3, .next) (await 5 0 0 false), staged (3, .alt) (await 5 0 0 false), staged (3, .alt) (await 5 0 0 false)]],
      ∃ r, ∃ s : State, s.notices = [] ∧ Ram s ∧ s.ce.fetching? = some ⟨3, r.take 15, false, .sequential⟩ ∧
      s.ce.queue = before ++ [⟨3, r.take 15, false, .sequential⟩] ∧ s.ce.phase = phase ∧ s.ce.active = true ∧
      r.take 15 ++ [Memory.read s.mem (s.pu.base + 0x083F).toNat] = r) := by
  refine ⟨?_, ⟨record 0x11 0 2 0 0xFF 0xFF 0, fetchingLast .running .loading [] slot (record 0x11 0 2 0 0xFF 0xFF 0), rfl, rfl,
    rfl, rfl, rfl, rfl, by decide, by decide, by decide, show reached 10 0 = true by decide,
    show reached 10 20 = false by decide, rfl, rfl, rfl, rfl, by decide⟩, ?_⟩
  · intro showState _ r h
    refine ⟨fetchingLast showState .loading [] slot r, rfl, rfl, rfl, rfl, rfl, rfl, ?_⟩
    simp only [List.mem_cons, List.not_mem_nil, or_false] at h
    rcases h with rfl | rfl | rfl | rfl | rfl | rfl
    · exact ⟨rfl, by decide, by decide, rfl, .inr (.inl ⟨by decide, show reached 10 20 = false by decide⟩)⟩
    · exact ⟨rfl, by decide, by decide, rfl, .inr (.inl ⟨by decide, show reached 10 20 = false by decide⟩)⟩
    all_goals exact ⟨rfl, by decide, by decide, rfl, .inr (.inr ⟨by decide,
      by first | exact .inl (by decide) | exact .inr (show reached 10 20 = false by decide), fun _ => rfl, fun _ => rfl⟩)⟩
  · intro phase h before k
    refine ⟨await 5 0 0 false, fetchingLast .running phase before none (await 5 0 0 false), rfl, rfl, ?_, rfl, rfl, rfl, rfl⟩
    simp only [List.mem_cons, List.not_mem_nil, or_false] at h k
    rcases h with rfl | rfl <;> rcases k with rfl | rfl <;> rfl

end Sys2Proof.Tests
end

section
/-! The soundness of the mechanism: what each kind of state asks of it, and that every reaction of the Tray Mechanism
Controller keeps it (R1, R2, R4, R9, R21, R28). -/

namespace Sys2Proof.Safety

open Sys2Proof.Machine

/-- The part of a sound mechanism that no phase turns on: the tray size, the position on the ring and the display (R1, R2,
R21). -/
structure Placed (t : Tmc) : Prop where
  size : t.n = codeSize t.tcode
  present : t.homed = true → t.n ≠ 0
  ring : t.homed = true → t.p ≤ t.n
  display : t.display = if t.homed then bcd t.p else dashes

/-- The tray motor is not driven. -/
def AtRest (t : Tmc) : Prop := t.motor ≠ .forward ∧ t.motor ≠ .reverse

theorem Mechanism.placed {t : Tmc} (h : Mechanism t) : Placed t := ⟨h.size, h.present, h.ring, h.display⟩

theorem Mechanism.atRest {t : Tmc} (h : Mechanism t) (phase : t.state ≠ .turn) : AtRest t :=
  not_or.mp fun driven => phase (h.moving.mp driven)

theorem Mechanism.op_none {t : Tmc} (h : Mechanism t) (idle : t.inCycle = false) : t.op = none := by
  simpa [idle] using h.cycle.symm

theorem Mechanism.op_some {t : Tmc} (h : Mechanism t) (cycle : t.inCycle = true) : ∃ op, t.op = some op :=
  Option.isSome_iff_exists.mp (h.cycle.symm.trans cycle)

theorem Placed.unhomed {t : Tmc} (size : t.n = codeSize t.tcode) (homed : t.homed = false) (display : t.display = dashes) :
    Placed t := by
  constructor <;> simp [homed, size, display]

theorem Placed.homed {t : Tmc} (size : t.n = codeSize t.tcode) (present : t.n ≠ 0) (ring : t.p ≤ t.n)
    (homed : t.homed = true) (display : t.display = bcd t.p) : Placed t :=
  ⟨size, fun _ => present, fun _ => ring, by simp [homed, display]⟩

/-- Outside the phases of a cycle a mechanism is sound that is at rest, has no operation and is homed exactly in READY. -/
theorem mechanism_of_idle {t : Tmc} (placed : Placed t) (op : t.op = none) (idle : t.inCycle = false)
    (homing : t.homing = false) (rest : AtRest t) (homed : t.homed = true ↔ t.state = .ready)
    (tray : t.state ≠ .noTray → t.state ≠ .jammed → t.n ≠ 0) : Mechanism t := by
  obtain ⟨size, present, ring, display⟩ := placed
  simp only [Tmc.inCycle] at idle
  constructor <;> simp_all [Tmc.inCycle, Tmc.opKind, AtRest]
  grind

/-- What a sound mechanism is in DARKEN and LIFT. -/
structure Lifting (t : Tmc) (op : Operation) : Prop where
  placed : Placed t
  service : t.op = some op
  phase : t.state = .darken ∨ t.state = .lift
  tray : t.n ≠ 0
  rest : AtRest t
  homing : t.homing = true ↔ op.kind = .home
  seeks : t.homing = true → t.homed = false
  clears : t.homed = false → t.homing = true ∨ (op.kind = .clearGate ∧ t.fromUnhomed = true)
  unhomed : op.kind = .clearGate → t.fromUnhomed = true → t.homed = false

theorem Lifting.mechanism {t : Tmc} {op : Operation} (h : Lifting t op) : Mechanism t := by
  obtain ⟨⟨size, present, ring, display⟩, service, phase, tray, rest, homing, seeks, clears, unhomed⟩ := h
  constructor <;> simp_all [Tmc.inCycle, Tmc.opKind, AtRest] <;> grind

theorem Mechanism.lifting {t : Tmc} (h : Mechanism t) (phase : t.state = .darken ∨ t.state = .lift) :
    ∃ op, Lifting t op := by
  have cycle : t.inCycle = true := by rcases phase with p | p <;> simp [Tmc.inCycle, p]
  obtain ⟨op, service⟩ := h.op_some cycle
  have kind : ∀ k, t.opKind = some k ↔ op.kind = k := by simp [Tmc.opKind, service]
  refine ⟨op, h.placed, service, phase, h.tray ?_ ?_, h.atRest ?_, (h.seeking phase).trans (kind _), h.homing,
    fun unhomed => (h.known cycle unhomed).imp_right fun c => ⟨(kind _).mp c.1, c.2⟩,
    fun clear unhomed => (h.clearing ((kind _).mpr clear) unhomed).1⟩ <;>
  rcases phase with p | p <;> simp [p]

/-- What a sound mechanism is in TURN. -/
structure Turns (t : Tmc) (op : Operation) : Prop where
  placed : Placed t
  service : t.op = some op
  phase : t.state = .turn
  tray : t.n ≠ 0
  driven : t.motor = .forward ∨ t.motor = .reverse
  lifted : t.lifter = true
  gate : t.gate = .empty
  homing : t.homing = !t.homed
  clears : op.kind = .clearGate → t.fromUnhomed = false
  recorded : t.homing = false → changesSlide op.kind = false → t.redirect = true

theorem changesSlide_false_iff (kind : OpKind) : changesSlide kind = false ↔ kind = .home ∨ kind = .clearGate := by
  cases kind <;> simp [changesSlide]

theorem Turns.mechanism {t : Tmc} {op : Operation} (h : Turns t op) : Mechanism t := by
  obtain ⟨⟨size, present, ring, display⟩, service, phase, tray, driven, lifted, gate, homing, clears, recorded⟩ := h
  rw [changesSlide_false_iff] at recorded
  constructor <;> simp_all [Tmc.inCycle, Tmc.opKind]

theorem Mechanism.turns {t : Tmc} (h : Mechanism t) (phase : t.state = .turn) : ∃ op, Turns t op := by
  obtain ⟨op, service⟩ := h.op_some (by simp [Tmc.inCycle, phase])
  have kind : ∀ k, t.opKind = some k ↔ op.kind = k := by simp [Tmc.opKind, service]
  refine ⟨op, h.placed, service, phase, h.tray (by simp [phase]) (by simp [phase]), h.moving.mpr phase,
    (h.lifted phase).1, (h.lifted phase).2, ?_, fun clear => ?_, fun counting other => ?_⟩
  · cases seeks : t.homing with
    | false => simp [h.counting phase seeks]
    | true => simp [h.homing seeks]
  · by_contra unhomed
    have := (h.clearing ((kind _).mpr clear) (by simpa using unhomed)).2.2
    simp [phase] at this
  · exact h.turning phase counting (((changesSlide_false_iff _).mp other).imp (kind _).mpr (kind _).mpr)

/-- What a sound mechanism is in DROP and SETTLE. -/
structure Drops (t : Tmc) (op : Operation) : Prop where
  placed : Placed t
  service : t.op = some op
  phase : t.state = .drop ∨ t.state = .settle
  rest : AtRest t
  homing : t.homing = false
  homed : t.homed = true
  change : changesSlide op.kind = true

theorem Drops.mechanism {t : Tmc} {op : Operation} (h : Drops t op) : Mechanism t := by
  obtain ⟨⟨size, present, ring, display⟩, service, phase, rest, homing, homed, change⟩ := h
  have other : op.kind ≠ .home ∧ op.kind ≠ .clearGate := by
    rw [← not_or, ← changesSlide_false_iff, change]; simp
  constructor <;> simp_all [Tmc.inCycle, Tmc.opKind, AtRest] <;> grind

theorem Mechanism.drops {t : Tmc} (h : Mechanism t) (phase : t.state = .drop ∨ t.state = .settle) :
    ∃ op, Drops t op := by
  have cycle : t.inCycle = true := by rcases phase with p | p <;> simp [Tmc.inCycle, p]
  obtain ⟨op, service⟩ := h.op_some cycle
  have kind : ∀ k, t.opKind = some k ↔ op.kind = k := by simp [Tmc.opKind, service]
  have change : changesSlide op.kind = true := by
    by_contra other
    rw [Bool.not_eq_true, changesSlide_false_iff] at other
    exact other.elim ((kind _).not.mp (h.changing phase).1) ((kind _).not.mp (h.changing phase).2)
  have counting : t.homing = false := by
    by_contra seeks
    have := h.phase (by simpa using seeks)
    rcases phase with p | p <;> simp [p] at this
  refine ⟨op, h.placed, service, phase, h.atRest ?_, counting, ?_, change⟩
  · rcases phase with p | p <;> simp [p]
  · by_contra unhomed
    rcases h.known cycle (by simpa using unhomed) with seeks | clear
    · simp [counting] at seeks
    · exact (h.changing phase).2 clear.1

/-! ### The fields that soundness reads -/

/-- The fields that the soundness of every phase reads, but for those of the phase itself. -/
def stem (t : Tmc) : BitVec 2 × Nat × Nat × Bool × BitVec 12 × Option Operation × Motor × Bool × Bool :=
  (t.tcode, t.n, t.p, t.homed, t.display, t.op, t.motor, t.homing, t.fromUnhomed)

/-- A mechanism that reads as a sound one in these fields is sound: its timers, sensors, target, counts, profile and
imposition are no part of it. -/
theorem Mechanism.of_same {t u : Tmc} (h : Mechanism t) (same : stem u = stem t)
    (phase : (u.state, u.lifter, u.gate, u.redirect) = (t.state, t.lifter, t.gate, t.redirect)) : Mechanism u := by
  obtain ⟨⟩ := t
  obtain ⟨⟩ := u
  simp only [stem, Prod.mk.injEq] at same phase
  obtain ⟨rfl, rfl, rfl, rfl, rfl, rfl, rfl, rfl, rfl⟩ := same
  obtain ⟨rfl, rfl, rfl, rfl⟩ := phase
  obtain ⟨⟩ := h
  constructor <;> assumption

/-- The gate, the lifter and the timers are no part of what DARKEN and LIFT ask. -/
theorem Lifting.of_same {t u : Tmc} {op : Operation} (h : Lifting t op) (same : stem u = stem t)
    (phase : u.state = .darken ∨ u.state = .lift) : Lifting u op := by
  obtain ⟨⟩ := t
  obtain ⟨⟩ := u
  simp only [stem, Prod.mk.injEq] at same
  obtain ⟨rfl, rfl, rfl, rfl, rfl, rfl, rfl, rfl, rfl⟩ := same
  obtain ⟨⟨size, present, ring, display⟩, service, -, tray, rest, homing, seeks, clears, unhomed⟩ := h
  exact ⟨⟨size, present, ring, display⟩, service, phase, tray, rest, homing, seeks, clears, unhomed⟩

end Sys2Proof.Safety
end
section

namespace Sys2Proof.Machine

open Sys2Proof.Safety

/-! ## The display follows the position (R21) -/

theorem bcdUp_bcd : ∀ p < 120, bcdUp (bcd p) = bcd (p + 1) := by decide

theorem bcdDown_bcd : ∀ p < 120, bcdDown (bcd (p + 1)) = bcd p := by decide

theorem codeSize_le (c : BitVec 2) : codeSize c ≤ 120 := by
  unfold codeSize; split <;> (try split) <;> omega

/-- The count steps the position on the ring (R2). -/
theorem Tmc.stepP_eq {t : Tmc} (ring : t.p ≤ t.n) : t.stepP = ringStep t.motor t.p t.n := by
  unfold Tmc.stepP ringStep
  by_cases back : t.motor = .reverse
  · rw [if_pos back, if_pos back]
    by_cases zero : t.p = 0
    · rw [if_pos zero, zero, Nat.zero_add, Nat.mod_eq_of_lt (by omega)]
    · rw [if_neg zero, show t.p + t.n = t.p - 1 + (t.n + 1) by omega, Nat.add_mod_right, Nat.mod_eq_of_lt (by omega)]
  · rw [if_neg back, if_neg back]
    by_cases last : t.p = t.n
    · rw [if_pos last, last, Nat.mod_self]
    · rw [if_neg last, Nat.mod_eq_of_lt (by omega)]

theorem ringStep_le (m : Motor) (p n : Nat) : ringStep m p n ≤ n := by
  unfold ringStep
  split <;> exact Nat.lt_succ_iff.mp (Nat.mod_lt _ (Nat.succ_pos n))

/-- A display that shows the position goes on showing it (R21). -/
theorem Tmc.stepDisplay_eq {t : Tmc} (ring : t.p ≤ t.n) (small : t.n ≤ 120) (shown : t.display = bcd t.p) :
    t.stepDisplay = bcd t.stepP := by
  unfold Tmc.stepDisplay Tmc.stepP
  by_cases back : t.motor = .reverse
  · simp only [if_pos back]
    by_cases zero : t.p = 0
    · rw [if_pos zero, if_pos zero]
    · rw [if_neg zero, if_neg zero, shown, show t.p = t.p - 1 + 1 by omega, bcdDown_bcd _ (by omega)]
      rfl
  · simp only [if_neg back]
    by_cases last : t.p = t.n
    · rw [if_pos last, if_pos last]
      rfl
    · rw [if_neg last, if_neg last, shown, bcdUp_bcd _ (by omega)]

/-- Counting in a homed mechanism is one step on the ring, shown (R2, R21). -/
theorem Tmc.count_homed {t : Tmc} (placed : Placed t) (homed : t.homed = true) :
    t.count = { t with p := ringStep t.motor t.p t.n, display := bcd (ringStep t.motor t.p t.n) } := by
  have ring := placed.ring homed
  have shown : t.display = bcd t.p := by simpa [homed] using placed.display
  rw [Tmc.count, if_pos homed, Tmc.stepDisplay_eq ring (placed.size ▸ codeSize_le _) shown, Tmc.stepP_eq ring]

end Sys2Proof.Machine
end
section

namespace Sys2Proof.Machine

open Sys2Proof.Safety

/-! ## Each reaction of the mechanism keeps it sound -/

/-- The operation in service is over and is handed over with its outcome (R28). -/
theorem Tmc.conclude_some {t : Tmc} {op : Operation} (service : t.op = some op) (result : OpOutcome)
    (events : List Notice) :
    t.conclude result events = ({ t with op := none, redirect := false }, events ++ [.outcome op result]) := by
  simp [Tmc.conclude, service]

/-- An end without a DROP leaves a sound mechanism: a CLEAR_GATE of UNHOMED ends there, any other operation in READY (R12). -/
theorem Tmc.endNoDrop_sound {t : Tmc} {op : Operation} (placed : Placed t) (service : t.op = some op) (tray : t.n ≠ 0)
    (homing : t.homing = false) (homed : t.homed = true ↔ ¬ (op.kind = .clearGate ∧ t.fromUnhomed = true)) :
    Mechanism t.endNoDrop.1 := by
  rw [Tmc.endNoDrop_eq service]
  refine mechanism_of_idle ⟨placed.size, placed.present, placed.ring, placed.display⟩ rfl ?_ homing ⟨nofun, nofun⟩ ?_
    fun _ _ => tray <;>
  by_cases clear : op.kind = .clearGate ∧ t.fromUnhomed = true <;> simp [endedWithoutDrop, Tmc.inCycle, clear, homed]

/-- DROP is entered by a homed mechanism with a change in service (R9, R10). -/
theorem dropping_sound {t : Tmc} {op : Operation} (placed : Placed t) (service : t.op = some op)
    (homing : t.homing = false) (homed : t.homed = true) (change : changesSlide op.kind = true) :
    Mechanism (dropping t) := by
  unfold dropping
  split <;>
  exact Drops.mechanism ⟨⟨placed.size, placed.present, placed.ring, placed.display⟩, service, by simp,
    ⟨nofun, nofun⟩, homing, homed, change⟩

/-- The end of TURN leaves a sound mechanism (R9, R12). -/
theorem Tmc.turnEnd_sound {t : Tmc} {op : Operation} (placed : Placed t) (service : t.op = some op)
    (homing : t.homing = false) (homed : t.homed = true) (change : changesSlide op.kind = true) :
    Mechanism t.turnEnd.1 := by
  by_cases zero : t.target = some 0
  · rw [Tmc.turnEnd, if_pos zero]
    exact Tmc.endNoDrop_sound (op := op) ⟨placed.size, placed.present, placed.ring, placed.display⟩ service
      (placed.present homed) homing
      (iff_of_true homed fun clear => by rw [clear.1] at change; exact Bool.false_ne_true change)
  · rw [Tmc.turnEnd_drop zero]
    exact dropping_sound placed service homing homed change

theorem turnDirection_driven (p target n : Nat) :
    turnDirection p target n = .forward ∨ turnDirection p target n = .reverse := by
  unfold turnDirection; dsimp only; split <;> simp

/-- TURN is entered by a homed mechanism with the gate EMPTY and a change in service (R9). -/
theorem Tmc.enterTurn_sound {t : Tmc} {op : Operation} (placed : Placed t) (service : t.op = some op)
    (gate : t.gate = .empty) (homing : t.homing = false) (homed : t.homed = true) (change : changesSlide op.kind = true) :
    Mechanism t.enterTurn :=
  Turns.mechanism (op := op) ⟨⟨placed.size, placed.present, placed.ring, placed.display⟩, service, rfl,
    placed.present homed, turnDirection_driven _ _ _, rfl, gate, by simp [Tmc.enterTurn, homing, homed],
    fun clear => by rw [clear] at change; exact absurd change Bool.false_ne_true,
    fun _ other => by rw [other] at change; exact absurd change Bool.false_ne_true⟩

/-- A homing turn is entered with the gate EMPTY (R14). -/
theorem Tmc.turnHoming_sound {t : Tmc} {op : Operation} (placed : Placed t) (service : t.op = some op) (tray : t.n ≠ 0)
    (gate : t.gate = .empty) (homing : t.homing = true) (homed : t.homed = false)
    (clears : op.kind = .clearGate → t.fromUnhomed = false) : Mechanism t.turnHoming :=
  Turns.mechanism (op := op) ⟨⟨placed.size, placed.present, placed.ring, placed.display⟩, service, rfl, tray, .inl rfl,
    rfl, gate, by simp [Tmc.turnHoming, homing, homed], clears, fun counting => by simp [Tmc.turnHoming, homing] at counting⟩

/-- THOME found leaves a sound mechanism, homed at position 0 (R14, R17). -/
theorem Tmc.homingFound_sound {t : Tmc} {op : Operation} (size : t.n = codeSize t.tcode) (service : t.op = some op)
    (tray : t.n ≠ 0) (gate : t.gate = .empty) (clears : op.kind = .clearGate → t.fromUnhomed = false) :
    Mechanism t.homingFound.1 := by
  have found : Placed (foundHome t) := .homed size tray (Nat.zero_le _) rfl (show (0 : BitVec 12) = bcd 0 by decide)
  cases kind : op.kind with
  | home =>
    rw [Tmc.homingFound_home service kind]
    exact mechanism_of_idle ⟨found.size, found.present, found.ring, found.display⟩ rfl rfl rfl ⟨nofun, nofun⟩
      (by simp [endedHome, foundHome]) fun _ _ => tray
  | clearGate =>
    have e : t.homingFound.1 = (foundHome t).endNoDrop.1 := by
      simp [Tmc.homingFound, Tmc.opKind, service, kind, foundHome]
    rw [e]
    exact Tmc.endNoDrop_sound found service tray rfl
      (iff_of_true rfl fun c => absurd (show t.fromUnhomed = true from c.2) (by simp [clears kind]))
  | changeTo slot | moveBy step =>
    have change : changesSlide op.kind = true := by rw [kind]; rfl
    have e : t.homingFound.1 =
        if t.target = some 0 then (foundHome t).turnEnd.1 else (foundHome t).enterTurn := by
      by_cases zero : t.target = some 0 <;>
      simp [Tmc.homingFound, Tmc.opKind, service, kind, foundHome, zero]
    rw [e]
    split
    · exact Tmc.turnEnd_sound found service rfl rfl change
    · exact Tmc.enterTurn_sound found service gate rfl rfl change

/-- With the gate EMPTY after DARKEN or LIFT the plan goes on soundly (R5, R12, R14). -/
theorem Tmc.afterLift_sound {t : Tmc} {op : Operation} (h : Lifting t op) (gate : t.gate = .empty) :
    Mechanism t.afterLift.1 := by
  have homing (other : op.kind ≠ .home) : t.homing = false := by
    simpa using h.homing.not.mpr other
  cases kind : op.kind with
  | home =>
    have seeks : t.homing = true := h.homing.mpr kind
    have clears : op.kind = .clearGate → t.fromUnhomed = false := by simp [kind]
    have e : t.afterLift.1 = if t.sensors.thome then t.homingFound.1 else t.turnHoming := by
      by_cases thome : t.sensors.thome = true <;>
      simp [Tmc.afterLift, Tmc.opKind, h.service, kind, Tmc.startHoming, thome]
    rw [e]
    split
    · exact Tmc.homingFound_sound h.placed.size h.service h.tray gate clears
    · exact Tmc.turnHoming_sound h.placed h.service h.tray gate seeks (h.seeks seeks) clears
  | clearGate =>
    have e : t.afterLift = t.endNoDrop := by simp [Tmc.afterLift, Tmc.opKind, h.service, kind]
    have still : t.homing = false := homing (by simp [kind])
    rw [e]
    refine Tmc.endNoDrop_sound h.placed h.service h.tray still ⟨fun homed c => ?_, fun away => ?_⟩
    · simp [h.unhomed c.1 c.2] at homed
    · by_contra unhomed
      rcases h.clears (by simpa using unhomed) with seeks | c
      · simp [still] at seeks
      · exact away c
  | changeTo slot | moveBy step =>
    have change : changesSlide op.kind = true := by rw [kind]; rfl
    have still : t.homing = false := homing (by simp [kind])
    have homed : t.homed = true := by
      by_contra unhomed
      have := h.clears (by simpa using unhomed)
      simp [still, kind] at this
    have e : t.afterLift.1 = if t.target = some t.p then t.turnEnd.1 else t.enterTurn := by
      by_cases there : t.target = some t.p <;> simp [Tmc.afterLift, Tmc.opKind, h.service, kind, there]
    rw [e]
    split
    · exact Tmc.turnEnd_sound h.placed h.service still homed change
    · exact Tmc.enterTurn_sound h.placed h.service gate still homed change

theorem Tmc.liftDone_sound {t : Tmc} {op : Operation} (h : Lifting t op) : Mechanism t.liftDone.1 :=
  Tmc.afterLift_sound (h.of_same rfl h.phase) rfl

theorem Tmc.enterLift_sound {t : Tmc} {op : Operation} (h : Lifting { t with state := .lift } op) :
    Mechanism t.enterLift.1 := by
  unfold Tmc.enterLift
  dsimp only
  split
  · exact Tmc.liftDone_sound (h.of_same rfl (.inr rfl))
  · exact Lifting.mechanism (h.of_same rfl (.inr rfl))

/-- The blackout report leaves a sound mechanism (R7). -/
theorem Tmc.takeReport_sound {t : Tmc} (h : Mechanism t) : Mechanism t.takeReport.1 := by
  unfold Tmc.takeReport
  split
  · next phase =>
    obtain ⟨op, lifting⟩ := h.lifting (.inl phase)
    unfold Tmc.endDarken
    dsimp only
    split
    · exact Tmc.enterLift_sound (lifting.of_same rfl (.inr rfl))
    · next gate =>
      refine Tmc.afterLift_sound (lifting.of_same rfl (.inl phase)) ?_
      dsimp only at gate ⊢
      cases empty : t.gate <;> simp_all
  · exact h

theorem Tmc.darkenLate_sound {t : Tmc} (h : Mechanism t) : Mechanism t.darkenLate.1 := by
  unfold Tmc.darkenLate
  split
  · exact h.of_same rfl rfl
  · exact h

theorem Tmc.ltopActive_sound {t : Tmc} (h : Mechanism t) : Mechanism t.ltopActive.1 := by
  unfold Tmc.ltopActive
  dsimp only
  split
  · next c =>
    obtain ⟨op, lifting⟩ := h.lifting (.inr c.1)
    exact Tmc.liftDone_sound (lifting.of_same rfl (.inr c.1))
  · exact h.of_same rfl rfl

/-- The drive of a motor at rest is none. -/
theorem Tmc.rest_atRest (t : Tmc) : t.rest ≠ .forward ∧ t.rest ≠ .reverse := by
  unfold Tmc.rest; split <;> exact ⟨nofun, nofun⟩

/-- A jam leaves a sound mechanism (R13). -/
theorem Tmc.jam_sound {t : Tmc} {op : Operation} (size : t.n = codeSize t.tcode) (service : t.op = some op) :
    Mechanism t.jam.1 := by
  have e : t.jam.1 = { Tmc.unhome { t.stopTimers with state := .jammed, motor := t.rest, lifter := false, homing := false }
      with op := none, redirect := false } := by
    simp [Tmc.jam, Tmc.conclude, Tmc.unhome, Tmc.stopTimers, service]
  rw [e]
  exact mechanism_of_idle (.unhomed size rfl rfl) rfl rfl rfl t.rest_atRest (by simp [Tmc.unhome])
    fun _ jammed => absurd rfl jammed

theorem Tmc.liftExpiry_sound {t : Tmc} (h : Mechanism t) : Mechanism t.liftExpiry.1 := by
  unfold Tmc.liftExpiry
  split
  · next c =>
    obtain ⟨op, lifting⟩ := h.lifting (.inr c.1)
    split
    · exact Tmc.jam_sound h.size lifting.service
    · exact Lifting.mechanism (lifting.of_same rfl (.inr c.1))
  · exact h

theorem Tmc.loweringEnd_sound {t : Tmc} (h : Mechanism t) : Mechanism t.loweringEnd.1 := by
  unfold Tmc.loweringEnd
  split
  · next c =>
    obtain ⟨op, lifting⟩ := h.lifting (.inr c.1)
    exact Tmc.enterLift_sound (lifting.of_same rfl (.inr rfl))
  · exact h

/-! ### Arrivals -/

theorem Tmc.arriveHoming_sound {t : Tmc} {op : Operation} (h : Turns t op) : Mechanism t.arriveHoming.1 := by
  unfold Tmc.arriveHoming
  dsimp only
  split
  · exact Tmc.homingFound_sound h.placed.size h.service h.tray h.gate h.clears
  · split
    · exact Tmc.jam_sound h.placed.size h.service
    · exact h.mechanism.of_same rfl rfl

/-- A recorded operation acted on leaves a sound mechanism (R23). -/
theorem Tmc.actRedirect_sound {t : Tmc} {op : Operation} (h : Turns t op) (homed : t.homed = true) :
    Mechanism t.actRedirect.1 := by
  have still : t.homing = false := by simp [h.homing, homed]
  have placed : Placed { t with redirect := false } := ⟨h.placed.size, h.placed.present, h.placed.ring, h.placed.display⟩
  cases kind : op.kind with
  | clearGate =>
    have e : t.actRedirect = Tmc.endNoDrop { t with redirect := false } := by
      simp [Tmc.actRedirect, Tmc.opKind, h.service, kind]
    rw [e]
    exact Tmc.endNoDrop_sound placed h.service h.tray still (iff_of_true homed fun c => by simp [h.clears kind] at c)
  | home =>
    have clears : op.kind = .clearGate → t.fromUnhomed = false := by simp [kind]
    have seeking : Tmc.opKind { t with redirect := false } = some .home := by simp [Tmc.opKind, h.service, kind]
    simp only [Tmc.actRedirect, seeking]
    split
    · exact Tmc.homingFound_sound h.placed.size h.service h.tray h.gate clears
    · exact Tmc.turnHoming_sound (.unhomed h.placed.size rfl rfl) h.service h.tray h.gate rfl rfl clears
  | changeTo slot | moveBy step =>
    have change : changesSlide op.kind = true := by rw [kind]; rfl
    have moving : Tmc.opKind { t with redirect := false } = some op.kind := by simp [Tmc.opKind, h.service]
    simp only [Tmc.actRedirect, moving, kind]
    split
    · exact Tmc.turnEnd_sound placed h.service still homed change
    · exact Turns.mechanism ⟨⟨h.placed.size, h.placed.present, h.placed.ring, h.placed.display⟩, h.service, h.phase, h.tray,
        turnDirection_driven _ _ _, h.lifted, h.gate, h.homing, h.clears,
        fun _ other => by rw [change] at other; exact absurd other Bool.noConfusion⟩

/-- An arrival in a counting turn leaves a sound mechanism (R2, R9, R16, R17, R23). -/
theorem Tmc.arriveCounting_sound {t : Tmc} {op : Operation} (h : Turns t op) (counting : t.homing = false) :
    Mechanism t.arriveCounting.1 := by
  have homed : t.homed = true := by simpa [counting] using h.homing
  have change (plain : t.redirect ≠ true) : changesSlide op.kind = true := by
    by_contra other
    exact plain (h.recorded counting (by simpa using other))
  unfold Tmc.arriveCounting
  rw [Tmc.count_homed h.placed homed]
  have at_ (q : Nat) (ring : q ≤ t.n) :
      Turns { t with p := q, display := bcd q, positionTimer := some 250 } op :=
    ⟨.homed h.placed.size h.tray ring homed rfl, h.service, h.phase, h.tray, h.driven, h.lifted, h.gate, h.homing, h.clears,
      h.recorded⟩
  have stepped := at_ _ (ringStep_le t.motor t.p t.n)
  have corrected := at_ 0 (Nat.zero_le _)
  dsimp only
  split
  · split
    · exact Tmc.actRedirect_sound corrected homed
    · next plain =>
      split
      · exact Tmc.turnEnd_sound corrected.placed h.service counting homed (change plain)
      · exact Turns.mechanism ⟨⟨corrected.placed.size, corrected.placed.present, corrected.placed.ring,
          corrected.placed.display⟩, h.service, h.phase, h.tray, turnDirection_driven _ _ _, h.lifted, h.gate, h.homing,
          h.clears, h.recorded⟩
  · split
    · exact Tmc.turnHoming_sound (.unhomed h.placed.size rfl rfl) h.service h.tray h.gate rfl rfl h.clears
    · split
      · exact Tmc.actRedirect_sound stepped homed
      · next plain =>
        split
        · exact Tmc.turnEnd_sound stepped.placed h.service counting homed (change plain)
        · exact stepped.mechanism

theorem Tmc.arrive_sound {t : Tmc} (h : Mechanism t) (thome : Bool) : Mechanism (t.arrive thome).1 := by
  unfold Tmc.arrive
  have sensed : Mechanism { t with sensors := { t.sensors with thome := thome } } := h.of_same rfl rfl
  dsimp only
  split
  · next c =>
    obtain ⟨op, turns⟩ := sensed.turns c.1
    split
    · exact Tmc.arriveHoming_sound turns
    · next counting => exact Tmc.arriveCounting_sound turns (by simpa using counting)
  · exact sensed

theorem Tmc.positionExpiry_sound {t : Tmc} (h : Mechanism t) : Mechanism t.positionExpiry.1 := by
  unfold Tmc.positionExpiry
  split
  · next c =>
    obtain ⟨op, turns⟩ := h.turns c.1
    exact Tmc.jam_sound h.size turns.service
  · exact h

/-! ### DROP and SETTLE -/

/-- SETTLE is entered soundly from DROP (R10, R11). -/
theorem Tmc.enterSettle_sound {t : Tmc} {op : Operation} (h : Drops t op) (g : Gate) : Mechanism (t.enterSettle g) :=
  Drops.mechanism ⟨⟨h.placed.size, h.placed.present, h.placed.ring, h.placed.display⟩, h.service, .inr rfl, h.rest,
    h.homing, h.homed, h.change⟩

theorem Tmc.gseatActive_sound {t : Tmc} (h : Mechanism t) : Mechanism t.gseatActive.1 := by
  unfold Tmc.gseatActive
  have sensed : Mechanism { t with sensors := { t.sensors with gseat := true } } := h.of_same rfl rfl
  dsimp only
  split
  · next phase =>
    obtain ⟨op, drops⟩ := sensed.drops (.inl phase)
    exact Tmc.enterSettle_sound drops _
  · exact sensed

theorem Tmc.dropExpiry_sound {t : Tmc} (h : Mechanism t) (gslide : Bool) : Mechanism (t.dropExpiry gslide).1 := by
  unfold Tmc.dropExpiry
  have sensed : Mechanism { t with sensors := { t.sensors with gslide := gslide } } := h.of_same rfl rfl
  dsimp only
  split
  · next c =>
    obtain ⟨op, drops⟩ := sensed.drops (.inl c.1)
    split
    · exact Tmc.enterSettle_sound drops _
    · split
      · exact Tmc.jam_sound h.size drops.service
      · have other : op.kind ≠ .home ∧ op.kind ≠ .clearGate := by
          rw [← not_or, ← changesSlide_false_iff, drops.change]; simp
        refine Tmc.enterLift_sound (op := op) ⟨⟨h.size, h.present, h.ring, h.display⟩, drops.service, .inr rfl,
          drops.placed.present drops.homed, drops.rest, ?_, ?_, ?_, ?_⟩
        · exact iff_of_false (ne_true_of_eq_false drops.homing) other.1
        · exact fun seeks => absurd seeks (ne_true_of_eq_false drops.homing)
        · exact fun unhomed => absurd drops.homed (ne_true_of_eq_false unhomed)
        · exact fun clear => absurd clear other.2
  · exact sensed

theorem Tmc.settleEnd_sound {t : Tmc} (h : Mechanism t) : Mechanism t.settleEnd.1 := by
  unfold Tmc.settleEnd
  split
  · next c =>
    obtain ⟨op, drops⟩ := h.drops (.inr c.1)
    dsimp only
    rw [Tmc.conclude_some (t := { t with state := .ready, settleTimer := none, darkenStanding := false }) drops.service]
    exact mechanism_of_idle ⟨h.size, h.present, h.ring, h.display⟩ rfl rfl drops.homing drops.rest
      (iff_of_true drops.homed rfl) fun _ _ => drops.placed.present drops.homed
  · exact h

/-! ### Grant and preemption -/

/-- A HOME begun stands soundly in DARKEN (R14). -/
theorem beginHome_lifting {t : Tmc} {op : Operation} (service : t.op = some op) (kind : op.kind = .home)
    (size : t.n = codeSize t.tcode) (tray : t.n ≠ 0) (phase : t.state = .darken) (rest : AtRest t) :
    Lifting t.beginHome op :=
  ⟨.unhomed size rfl rfl, service, .inl phase, tray, rest, iff_of_true rfl kind, fun _ => rfl, fun _ => .inl rfl,
    fun _ _ => rfl⟩

/-- A record that a selection does not refuse begins soundly (R4, R136, R137). -/
theorem Tmc.begin_sound {t : Tmc} (h : Mechanism t) (op : Operation) (free : t.available = true)
    (granted : t.refusal? op.kind = none) : Mechanism (t.begin op).1 := by
  have phase : t.state = .ready ∨ t.state = .unhomed := by
    have : t.state = .ready ∨ t.state = .unhomed ∨ t.state = .noTray := by simpa [Tmc.available, or_assoc] using free
    rcases this with p | p | p
    · exact .inl p
    · exact .inr p
    · simp [Tmc.refusal?, p] at granted
  have tray : t.n ≠ 0 := by rcases phase with p | p <;> exact h.tray (by simp [p]) (by simp [p])
  have rest : AtRest t := h.atRest (by rcases phase with p | p <;> simp [p])
  have ready (change : changesSlide op.kind = true) : t.state = .ready := by
    refine phase.resolve_right fun p => ?_
    cases kind : op.kind <;> simp [Tmc.refusal?, p, kind, changesSlide] at granted change
  have unhomed : t.state = .unhomed ↔ t.homed = false := by
    rcases phase with p | p
    · simp [p, h.ready p]
    · simp [p, h.unhomed (.inl p)]
  cases kind : op.kind with
  | home =>
    simp only [Tmc.begin, kind]
    exact Lifting.mechanism (op := op) ⟨.unhomed h.size rfl rfl, rfl, .inl rfl, tray, rest, iff_of_true rfl kind,
      fun _ => rfl, fun _ => .inl rfl, fun _ _ => rfl⟩
  | clearGate =>
    simp only [Tmc.begin, kind]
    exact Lifting.mechanism (op := op) ⟨⟨h.size, h.present, h.ring, h.display⟩, rfl, .inl rfl, tray, rest,
      iff_of_false Bool.false_ne_true (by simp [kind]), fun seeks => absurd seeks Bool.false_ne_true,
      fun away => .inr ⟨kind, by simpa [Tmc.enterDarken] using unhomed.mpr away⟩,
      fun _ from_ => unhomed.mp (by simpa [Tmc.enterDarken] using from_)⟩
  | changeTo slot | moveBy step =>
    have change : changesSlide op.kind = true := by rw [kind]; rfl
    have homed : t.homed = true := h.ready (ready change)
    simp only [Tmc.begin, kind]
    split
    · unfold Tmc.shortPath
      rw [Tmc.conclude_some (op := op) rfl]
      exact mechanism_of_idle ⟨h.size, h.present, h.ring, h.display⟩ rfl rfl rfl rest (iff_of_true homed rfl)
        fun _ _ => tray
    · exact Lifting.mechanism (op := op) ⟨⟨h.size, h.present, h.ring, h.display⟩, rfl, .inl rfl, tray, rest,
        iff_of_false Bool.false_ne_true (by simp [kind]), fun seeks => absurd seeks Bool.false_ne_true,
        fun away => absurd homed (ne_true_of_eq_false away), fun clear => by simp [kind] at clear⟩

/-- A preemption in DARKEN is planned again soundly (R22). -/
theorem Tmc.preemptDarken_sound {t : Tmc} (h : Mechanism t) (op : Operation) (phase : t.state = .darken)
    (homed : t.homed = true) : Mechanism (t.preemptDarken op).1 := by
  have tray := h.present homed
  have rest : AtRest t := h.atRest (by simp [phase])
  have homing : t.homing = false := by
    by_contra seeks
    simp [h.homing (by simpa using seeks)] at homed
  cases kind : op.kind with
  | home =>
    simp only [Tmc.preemptDarken, kind]
    exact (beginHome_lifting (t := { t with op := some op, fromUnhomed := false, liftRetried := false, seatRetried := false })
      rfl kind h.size tray phase rest).mechanism
  | clearGate =>
    simp only [Tmc.preemptDarken, kind]
    exact Lifting.mechanism (op := op) ⟨⟨h.size, h.present, h.ring, h.display⟩, rfl, .inl phase, tray, rest,
      iff_of_false (ne_true_of_eq_false homing) (by simp [kind]), fun seeks => absurd seeks (ne_true_of_eq_false homing),
      fun away => absurd homed (ne_true_of_eq_false away), fun _ from_ => absurd from_ Bool.false_ne_true⟩
  | changeTo slot | moveBy step =>
    simp only [Tmc.preemptDarken, kind]
    split
    · simp only [Tmc.shortPath]
      rw [Tmc.conclude_some (op := op) rfl]
      exact mechanism_of_idle ⟨h.size, h.present, h.ring, h.display⟩ rfl rfl homing rest (iff_of_true homed rfl)
        fun _ _ => tray
    · exact Lifting.mechanism (op := op) ⟨⟨h.size, h.present, h.ring, h.display⟩, rfl, .inl phase, tray, rest,
        iff_of_false (ne_true_of_eq_false homing) (by simp [kind]), fun seeks => absurd seeks (ne_true_of_eq_false homing),
        fun away => absurd homed (ne_true_of_eq_false away), fun clear => by simp [kind] at clear⟩

/-- An accepted preemption leaves a sound mechanism (R22, R23). -/
theorem Tmc.preempt_sound {t : Tmc} (h : Mechanism t) (op : Operation) (accepts : t.preemptible = true)
    (homed : t.homed = true) : Mechanism (t.preempt op).1 := by
  unfold Tmc.preempt
  split
  · next phase => exact Tmc.preemptDarken_sound h op phase homed
  · next other =>
    have phase : t.state = .turn ∧ t.homing = false := by simpa [Tmc.preemptible, other] using accepts
    obtain ⟨old, turns⟩ := h.turns phase.1
    exact Turns.mechanism (op := op) ⟨⟨h.size, h.present, h.ring, h.display⟩, rfl, phase.1, turns.tray, turns.driven,
      turns.lifted, turns.gate, turns.homing, fun _ => rfl, fun _ _ => rfl⟩

/-! ### The tray, cutoff, the profile and time -/

/-- A valid tray inserted into an empty well leaves a sound mechanism (R18). -/
theorem Tmc.insert_sound {t : Tmc} (op : t.op = none) (tray : codeSize t.tcode ≠ 0) (rest : AtRest t)
    (homing : t.homing = false) : Mechanism t.insert.1 := by
  by_cases jammed : t.state = .jammed <;>
  exact mechanism_of_idle (.unhomed rfl rfl rfl) op (by simp [Tmc.insert, Tmc.unhome, Tmc.inCycle, jammed]) homing rest
    (by simp [Tmc.insert, Tmc.unhome, jammed]) fun _ _ => tray

/-- The tray lost leaves no operation, no drive and no size (R19). -/
theorem Tmc.lose_fields (t : Tmc) (enabled : Bool) :
    (t.lose enabled).1.op = none ∧ AtRest (t.lose enabled).1 ∧ (t.lose enabled).1.homing = false ∧
      (t.lose enabled).1.tcode = t.tcode ∧ (t.lose enabled).1.n = 0 ∧ (t.lose enabled).1.homed = false ∧
      (t.lose enabled).1.display = dashes ∧
      ((t.lose enabled).1.state = .noTray ∨ (t.lose enabled).1.state = .jammed) := by
  have drive := t.rest_atRest
  cases service : t.op with
  | none | some op =>
    refine ⟨?_, ?_, ?_, ?_, ?_, ?_, ?_, ?_⟩ <;>
    simp only [Tmc.lose, Tmc.conclude, Tmc.unhome, Tmc.stopTimers, service] <;>
    first | rfl | exact drive | (split <;> simp)

/-- Every change of the tray code leaves a sound mechanism (R1, R18 to R20). -/
theorem Tmc.codeChange_sound {t : Tmc} (h : Mechanism t) (enabled : Bool) (code : BitVec 2) :
    Mechanism (t.codeChange enabled code).1 := by
  have inserted {u : Tmc} (op : u.op = none) (rest : AtRest u) (homing : u.homing = false)
      (tray : codeSize u.tcode ≠ 0) : Mechanism u.insert.1 := Tmc.insert_sound op tray rest homing
  unfold Tmc.codeChange
  split
  · exact h
  · dsimp only
    by_cases had : codeSize t.tcode = 0
    · simp only [had, ne_eq, not_true_eq_false, if_false]
      have none_ : t.n = 0 := h.size.trans had
      have away : t.homed = false := by
        by_contra homed
        exact h.present (by simpa using homed) none_
      have phase : t.state = .noTray ∨ t.state = .jammed := by
        by_contra other
        obtain ⟨a, b⟩ := not_or.mp other
        exact h.tray a b none_
      have idle : t.inCycle = false := by rcases phase with p | p <;> simp [Tmc.inCycle, p]
      have rest : AtRest t := h.atRest (by rcases phase with p | p <;> simp [p])
      have homing : t.homing = false := by
        by_contra seeks
        have := h.phase (by simpa using seeks)
        rcases phase with p | p <;> simp [p] at this
      have still (empty : codeSize code = 0) : Mechanism { t with tcode := code } :=
        mechanism_of_idle (.unhomed (none_.trans empty.symm) away (by simpa [away] using h.display)) (h.op_none idle) idle
          homing rest (iff_of_false (ne_true_of_eq_false away) (by rcases phase with p | p <;> simp [p]))
          fun a b => absurd phase (not_or.mpr ⟨a, b⟩)
      split
      · next tray => exact inserted (h.op_none idle) rest homing tray
      · next empty => split <;> exact still (by simpa using empty)
    · simp only [had, ne_eq, not_false_eq_true, if_true]
      obtain ⟨op, rest, homing, tcode, n, homed, display, phase⟩ := Tmc.lose_fields { t with tcode := code } enabled
      have gone (empty : codeSize code = 0) : Mechanism (Tmc.lose { t with tcode := code } enabled).1 :=
        mechanism_of_idle (.unhomed (by rw [n, tcode]; exact empty.symm) homed display) op
          (by rcases phase with p | p <;> simp [Tmc.inCycle, p]) homing rest
          (by rw [homed]; rcases phase with p | p <;> simp [p]) fun a b => absurd phase (not_or.mpr ⟨a, b⟩)
      split
      · next tray => exact inserted op rest homing (by rw [tcode]; exact tray)
      · next empty => split <;> exact gone (by simpa using empty)

/-- The drive that a cutoff entry gives the tray motor (R24, R25). -/
def cutoffDrive (sel : TraySelection) : Motor := if sel = .brake then .braked else .unpowered

theorem cutoffDrive_atRest (sel : TraySelection) : cutoffDrive sel ≠ .forward ∧ cutoffDrive sel ≠ .reverse := by
  cases sel <;> exact ⟨nofun, nofun⟩

/-- The mechanism with its operation cut short, before the state that the phase gives it (R24). -/
def cutShort (t : Tmc) (sel : TraySelection) : Tmc :=
  { t.stopTimers with imposition := some sel, motor := cutoffDrive sel, op := none, redirect := false }

/-- The JAM entry and the outcome of an operation that cutoff ends (R24). -/
def cutNotices (t : Tmc) (op : Operation) : List Notice :=
  [.log .jam (argPair (op.source.number + 0x80) t.reportedP), .outcome op .abortedCutoff]

theorem Tmc.cutoff_idle {t : Tmc} (op : t.op = none) (sel : TraySelection) :
    t.cutoff sel = ({ t with imposition := some sel, motor := cutoffDrive sel }, []) := by
  simp [Tmc.cutoff, op, Tmc.rest, cutoffDrive]

/-- A cutoff in DARKEN returns to the state before the cycle (R24). -/
theorem Tmc.cutoff_darken {t : Tmc} {op : Operation} (service : t.op = some op) (phase : t.state = .darken)
    (sel : TraySelection) : t.cutoff sel =
      ({ cutShort t sel with
          state := if op.kind = .home ∨ op.kind = .clearGate ∧ t.fromUnhomed = true then .unhomed else .ready,
          homing := false, darkenStanding := t.fromDark },
        (if t.fromDark then [] else [.release t.inTime]) ++ cutNotices t op) := by
  simp [Tmc.cutoff, service, Tmc.rest, cutoffDrive, Tmc.abort, phase, Tmc.conclude, Tmc.stopTimers, cutShort, cutNotices,
    Tmc.opKind, Tmc.reportedSource, Tmc.reportedP]

/-- A cutoff in SETTLE ends the cycle with the gate LOADED (R24; assumption log 9). -/
theorem Tmc.cutoff_settle {t : Tmc} {op : Operation} (service : t.op = some op) (phase : t.state = .settle)
    (sel : TraySelection) : t.cutoff sel =
      ({ cutShort t sel with state := .ready, gate := .loaded, darkenStanding := false },
        .release t.inTime :: cutNotices t op) := by
  simp [Tmc.cutoff, service, Tmc.rest, cutoffDrive, Tmc.abort, phase, Tmc.conclude, Tmc.stopTimers, cutShort, cutNotices,
    Tmc.reportedSource, Tmc.reportedP]

/-- A cutoff in the other phases jams the mechanism (R24). -/
theorem Tmc.cutoff_moving {t : Tmc} {op : Operation} (service : t.op = some op) (darken : t.state ≠ .darken)
    (settle : t.state ≠ .settle) (sel : TraySelection) : t.cutoff sel =
      ({ cutShort t sel with state := .jammed, homed := false, display := dashes, lifter := false, homing := false },
        cutNotices t op) := by
  simp [Tmc.cutoff, service, Tmc.rest, cutoffDrive, Tmc.abort, darken, settle, Tmc.conclude, Tmc.stopTimers, Tmc.unhome,
    cutShort, cutNotices, Tmc.reportedSource, Tmc.reportedP]

/-- A cutoff entry leaves a sound mechanism (R24, R25). -/
theorem Tmc.cutoff_sound {t : Tmc} (h : Mechanism t) (sel : TraySelection) : Mechanism (t.cutoff sel).1 := by
  have drive := cutoffDrive_atRest sel
  cases service : t.op with
  | none =>
    have idle : t.inCycle = false := h.cycle.trans (by simp [service])
    have homing : t.homing = false := by
      by_contra seeks
      rcases h.phase (by simpa using seeks) with p | p | p <;> simp [Tmc.inCycle, p] at idle
    have homed : t.homed = true ↔ t.state = .ready := by
      refine ⟨fun homed => ?_, h.ready⟩
      have := h.unhomed
      cases p : t.state <;> simp_all [Tmc.inCycle]
    rw [Tmc.cutoff_idle service]
    exact mechanism_of_idle ⟨h.size, h.present, h.ring, h.display⟩ service idle homing drive homed h.tray
  | some op =>
    have cycle : t.inCycle = true := h.cycle.trans (by simp [service])
    by_cases darken : t.state = .darken
    · obtain ⟨op', l⟩ := h.lifting (.inl darken)
      obtain rfl : op = op' := Option.some.inj (service.symm.trans l.service)
      rw [Tmc.cutoff_darken service darken]
      have homed : t.homed = true ↔ ¬ (op.kind = .home ∨ op.kind = .clearGate ∧ t.fromUnhomed = true) := by
        rw [← l.homing, ← not_iff_not, Bool.not_eq_true, not_not]
        exact ⟨l.clears, fun c => c.elim l.seeks fun c => l.unhomed c.1 c.2⟩
      refine mechanism_of_idle ⟨h.size, h.present, h.ring, h.display⟩ rfl ?_ rfl drive ?_ fun _ _ => l.tray <;>
      by_cases away : op.kind = .home ∨ op.kind = .clearGate ∧ t.fromUnhomed = true <;>
      simp [Tmc.inCycle, away, cutShort, Tmc.stopTimers, homed]
    · by_cases settle : t.state = .settle
      · obtain ⟨op', d⟩ := h.drops (.inr settle)
        rw [Tmc.cutoff_settle service settle]
        exact mechanism_of_idle ⟨h.size, h.present, h.ring, h.display⟩ rfl rfl d.homing drive (iff_of_true d.homed rfl)
          fun _ _ => d.placed.present d.homed
      · rw [Tmc.cutoff_moving service darken settle]
        exact mechanism_of_idle (.unhomed h.size rfl rfl) rfl rfl rfl drive (iff_of_false Bool.false_ne_true nofun)
          fun _ jammed => absurd rfl jammed

/-- What the clear makes of the mechanism (R13, R25). -/
theorem Tmc.clear_eq (t : Tmc) : t.clear = ({ t with
    imposition := none, motor := if t.motor = .braked then .unpowered else t.motor,
    state := if t.state = .jammed then (if t.n = 0 then .noTray else .unhomed) else t.state }, []) := by
  unfold Tmc.clear
  by_cases jammed : t.state = .jammed <;> simp [jammed]

theorem Tmc.clear_sound {t : Tmc} (h : Mechanism t) : Mechanism t.clear.1 := by
  rw [Tmc.clear_eq]
  have driven (m : Motor) (k : m = .forward ∨ m = .reverse) :
      (if t.motor = .braked then Motor.unpowered else t.motor) = m ↔ t.motor = m := by
    rcases k with rfl | rfl <;> by_cases b : t.motor = .braked <;> simp [b]
  by_cases jammed : t.state = .jammed
  · have idle : t.inCycle = false := by simp [Tmc.inCycle, jammed]
    have away := h.unhomed (.inr (.inr jammed))
    have homing : t.homing = false := by
      by_contra seeks
      have := h.phase (by simpa using seeks)
      simp [jammed] at this
    have rest := h.atRest (by simp [jammed])
    by_cases none_ : t.n = 0 <;>
    exact mechanism_of_idle ⟨h.size, h.present, h.ring, h.display⟩ (h.op_none idle) (by simp [Tmc.inCycle, jammed, none_])
      homing ⟨(driven _ (.inl rfl)).not.mpr rest.1, (driven _ (.inr rfl)).not.mpr rest.2⟩
      (by simp [away, jammed, none_]) (by simp [jammed, none_])
  · simp only [jammed, if_false]
    obtain ⟨⟩ := h
    constructor <;> first | assumption | simpa only [driven _ (.inl rfl), driven _ (.inr rfl)]

theorem Tmc.changeProfile_sound {t : Tmc} (h : Mechanism t) (outTime inTime blackout : Byte) :
    Mechanism (t.changeProfile outTime inTime blackout).1.1 := by
  unfold Tmc.changeProfile
  split
  · exact h
  · exact h.of_same rfl rfl

theorem Tmc.tick_sound {t : Tmc} (h : Mechanism t) (sensors : Sensors) : Mechanism (t.tick sensors) :=
  h.of_same rfl rfl

theorem Tmc.fresh_sound (tcode : BitVec 2) (sensors : Sensors) : Mechanism (Tmc.fresh tcode sensors).1 := by
  by_cases none_ : codeSize tcode = 0 <;>
  exact mechanism_of_idle (.unhomed rfl rfl rfl) rfl (by simp [Tmc.fresh, Tmc.inCycle, none_]) rfl ⟨nofun, nofun⟩
    (by simp [Tmc.fresh, Tmc.reset, none_]) (by simp [Tmc.fresh, none_])

end Sys2Proof.Machine
end
section
/-! ## The rows of the directive code table -/

namespace Sys2Proof.Machine

open Sys2Proof.Safety

/-- The owner's act of a row of the directive code table (R206), but for PART_RESET, which has its own (R209). -/
def rowAct : Instr → Option (State → State × Result)
  | .remoteSetup unit enable => some (dirRemoteSetup unit enable)
  | .home => some dirHome
  | .gotoSlot slot => some (dirGotoSlot slot)
  | .moveBy step => some (dirMoveBy step)
  | .clearGate => some dirClearGate
  | .changeProfile outTime inTime blackout => some (dirChangeProfile outTime inTime blackout)
  | .lampOn => some dirLampOn
  | .lampOff => some dirLampOff
  | .lampFade levelLo levelHi curve time => some (dirLampFade levelLo levelHi curve time)
  | .lampCeiling levelLo levelHi => some (dirLampCeiling levelLo levelHi)
  | .lampSpare lamps => some (dirLampSpare lamps)
  | .heatProfile lampGain fanGain ds oh rm => some (dirHeatProfile lampGain fanGain ds oh rm)
  | .fanProfile minimum coolDone => some (dirFanProfile minimum coolDone)
  | .cutoffSelect selection0 selection1 => some (dirCutoffSelect selection0 selection1)
  | .cutoffEnable causes => some (dirCutoffEnable causes)
  | .cutoffForce => some dirCutoffForce
  | .cutoffClear => some dirCutoffClear
  | .tapePlay => some dirTapePlay
  | .tapeStop => some dirTapeStop
  | .tapeWind direction => some (dirTapeWind direction)
  | .tapeLocate targetLo targetHi => some (dirTapeLocate targetLo targetHi)
  | .tapeRecord => some dirTapeRecord
  | .tapeZero => some dirTapeZero
  | .cueWrite cueClass => some (dirCueWrite cueClass)
  | .cueRoute mode markChannel => some (dirCueRoute mode markChannel)
  | .audioLevel level ramp => some (dirAudioLevel level ramp)
  | .arbLevels level0 level1 => some (dirArbLevels level0 level1)
  | .arbMask sources => some (dirArbMask sources)
  | .runLoad channel baseSlot baseCount mode dwell => some (dirRunLoad channel baseSlot baseCount mode dwell)
  | .runMask select values => some (dirRunMask select values)
  | .runTrigger channel => some (dirRunTrigger channel)
  | .runClearAll => some dirRunClearAll
  | .runOrder order => some (dirRunOrder order)
  | .showStart indexLo indexHi => some (dirShowStart indexLo indexHi)
  | .showPause => some dirShowPause
  | .showResume => some dirShowResume
  | .showStop => some dirShowStop
  | .cueGo => some dirCueGo
  | .showLead enable extra => some (dirShowLead enable extra)
  | _ => none

/-- A directive taken by its bytes is the act of the row that they stand for, and UNKNOWN_CODE where they stand for none
(R206, R208). -/
theorem State.directive_eq (s : State) (code : Byte) (operands : List Byte) :
    s.directive code operands =
      ((rowOf code operands).bind rowAct).elim (s, .unknownCode) fun owner => owner s := by
  obtain ⟨n, small, rfl⟩ : ∃ n < 256, code = BitVec.ofNat 8 n := ⟨code.toNat, code.isLt, by simp⟩
  interval_cases n
  any_goals rfl
  all_goals rcases operands with _ | ⟨a, _ | ⟨b, _ | ⟨c, _ | ⟨d, _ | ⟨e, _ | ⟨f, rest⟩⟩⟩⟩⟩⟩ <;> rfl

/-- What every row of the table and an unknown code do, a directive taken by its bytes does. -/
theorem State.directive_induction {P : State × Result → Prop} (s : State) (unknown : P (s, .unknownCode))
    (row : ∀ c owner, rowAct c = some owner → P (owner s)) (code : Byte) (operands : List Byte) :
    P (s.directive code operands) := by
  rw [State.directive_eq]
  cases found : (rowOf code operands).bind rowAct with
  | none => exact unknown
  | some owner =>
    obtain ⟨c, -, act⟩ := Option.bind_eq_some_iff.mp found
    exact row c owner act

/-- A row of the table is carried out as its owner's act under its code. -/
theorem exec_row {c : Instr} {owner : State → State × Result} (act : rowAct c = some owner) :
    ∃ code, directiveCode c = some code ∧ ∀ s, exec c s = perform (State.takeRow code owner) s := by
  cases c <;> first
    | exact (Option.some_ne_none _ act.symm).elim
    | (obtain rfl := Option.some.inj act; exact ⟨_, rfl, fun _ => rfl⟩)

end Sys2Proof.Machine
end
section
/-! ## Every step keeps the mechanism sound -/

namespace Sys2Proof.Machine

open Sys2Proof.Safety

/-! ### What leaves the mechanism alone -/

@[simp] theorem State.lookTape_tmc (s : State) : s.lookTape.tmc = s.tmc := by
  unfold State.lookTape
  split
  · rfl
  · dsimp only; split <;> simp

@[simp] theorem State.consumeRun_tmc (s : State) : s.consumeRun.tmc = s.tmc := by
  unfold State.consumeRun
  split
  · rfl
  · split <;> simp

@[simp] theorem State.terminalCount_tmc (s : State) (c : BitVec 2) : (s.terminalCount c).tmc = s.tmc := by
  unfold State.terminalCount
  split
  · split <;> simp
  · rfl

@[simp] theorem State.progress_tmc (s : State) : s.progress.tmc = s.tmc := by
  unfold State.progress
  (repeat' split) <;> simp

@[simp] theorem State.deliver_tmc (s : State) (source : Source) (result : OpOutcome) :
    (s.deliver source result).tmc = s.tmc := by
  cases source <;> simp [State.deliver]

@[simp] theorem State.slotEmptied_tmc (s : State) (source : Source) : (s.slotEmptied source).tmc = s.tmc := by
  cases source <;> simp [State.slotEmptied]

@[simp] theorem State.takeOutcome_tmc (s : State) (op : Operation) (result : OpOutcome) :
    (s.takeOutcome op result).tmc = s.tmc := by
  unfold State.takeOutcome; split <;> simp

@[simp] theorem State.performAction_tmc (s : State) (e : KeyEntry) (key : BitVec 5) :
    (s.performAction e key).tmc = s.tmc := by
  unfold State.performAction State.toggleLamp State.togglePause
  (repeat' split) <;> simp

@[simp] theorem State.press_tmc (s : State) (key : BitVec 5) (toggle : Bool) : (s.press key toggle).tmc = s.tmc := by
  unfold State.press State.actOnPress
  dsimp only
  (repeat' split) <;> simp

@[simp] theorem State.releaseKey_tmc (s : State) : s.releaseKey.tmc = s.tmc := by
  unfold State.releaseKey
  split
  · rfl
  · dsimp only; split <;> simp

@[simp] theorem State.releaseExpiry_tmc (s : State) : s.releaseExpiry.tmc = s.tmc := by
  unfold State.releaseExpiry; split <;> simp

@[simp] theorem State.repeatExpiry_tmc (s : State) : s.repeatExpiry.tmc = s.tmc := by
  unfold State.repeatExpiry
  (repeat' (first | split | dsimp only)) <;> simp

@[simp] theorem State.abandon_tmc (s : State) : s.abandon.tmc = s.tmc := by
  unfold State.abandon; split <;> simp

@[simp] theorem State.answer_tmc (s : State) (code : Byte) (result : Result) : (s.answer code result).tmc = s.tmc := by
  simp [State.answer]

@[simp] theorem State.byteWritten_tmc (s : State) : s.byteWritten.tmc = s.tmc := by
  unfold State.byteWritten State.askByte
  (repeat' split) <;> rfl

@[simp] theorem State.completeOwn_tmc (s : State) : s.completeOwn.tmc = s.tmc := by
  unfold State.completeOwn
  (repeat' (first | split | dsimp only)) <;> simp

@[simp] theorem State.kickReports_tmc (s : State) : s.kickReports.tmc = s.tmc := by
  obtain ⟨_, _, h, _⟩ := s.kickReports_eq; rw [h]

/-! ### The notices -/

/-- A grant of a record that is not refused leaves a sound mechanism (R136, R137). -/
theorem State.selectLoop_sound (fuel : Nat) {s : State} (h : Mechanism s.tmc) (free : s.tmc.available = true) :
    Mechanism (s.selectLoop fuel).tmc := by
  induction fuel generalizing s with
  | zero => exact h
  | succ fuel ih =>
    unfold State.selectLoop
    split
    · exact h
    · split
      · exact ih (by simpa [State.refuse] using h) (by simpa [State.refuse] using free)
      · next granted =>
        simp only [State.grant, State.putTmc_tmc, State.putCa_tmc]
        exact Tmc.begin_sound h _ free granted

theorem State.select_sound {s : State} (h : Mechanism s.tmc) : Mechanism s.select.tmc := by
  unfold State.select
  split
  · next open_ =>
    have free : s.tmc.available = true := by
      simp only [State.mechanismFree, Bool.and_eq_true] at open_
      exact open_.1.1
    exact State.selectLoop_sound 5 h free
  · exact h

/-- A preemption is made only where the mechanism accepts it, homed (R141). -/
theorem State.preempts_accepts {s : State} {source : Source} {r : Request} (h : s.preempts source r = true) :
    s.tmc.preemptible = true ∧ s.tmc.homed = true := by
  unfold State.preempts at h
  split at h
  · exact absurd h Bool.false_ne_true
  · simp only [Bool.and_eq_true] at h
    exact ⟨h.1.1.1.2, h.1.1.2⟩

theorem State.deposit_sound {s : State} (h : Mechanism s.tmc) (source : Source) (kind : OpKind) :
    Mechanism (s.deposit source kind).tmc := by
  unfold State.deposit
  split
  · next ca _ =>
    generalize filled : s.putCa (ca, if (s.ca.slot source).isNone then [.dirty 6] else []) = u
    have sound : Mechanism u.tmc := by rw [← filled]; simpa using h
    unfold State.afterDeposit
    split
    · exact State.select_sound sound
    · split
      · split
        · next accepts =>
          obtain ⟨accepts, homed⟩ := State.preempts_accepts accepts
          unfold State.preemptWith
          split
          · exact sound
          · simp only [State.putTmc_tmc, State.putCa_tmc]
            exact Tmc.preempt_sound sound _ accepts homed
        · exact sound
      · exact sound
  · exact h

/-- Every notice taken leaves a sound mechanism. -/
theorem State.handle_sound {s : State} (h : Mechanism s.tmc) (n : Notice) : Mechanism (State.handle n s).tmc := by
  cases n with
  | deposit source kind => exact State.deposit_sound h source kind
  | select => exact State.select_sound h
  | trayCutoff sel => simpa [State.handle] using Tmc.cutoff_sound h sel
  | trayClear => simpa [State.handle] using Tmc.clear_sound h
  | _ => simpa [State.handle] using h

theorem State.carry_sound {s : State} {f : State → State} (h : Mechanism (f s).tmc) : Mechanism (s.carry f).tmc := by
  refine State.drain_keeps (P := fun t => Mechanism t.tmc) (fun _ _ k => k) ?_ _ _ (by simpa using h)
  exact fun t n k => by simpa using State.handle_sound k n

theorem State.run_sound {s : State} {f : State → State} (h : Mechanism (f s).tmc) : Mechanism (s.run f).tmc := by
  simpa [State.run] using State.carry_sound h

/-! ### Directives -/

@[simp] theorem State.depositDirective_tmc (s : State) (kind : OpKind) (result : Result) :
    (s.depositDirective kind result).1.tmc = s.tmc := by
  unfold State.depositDirective; split <;> simp

@[simp] theorem dirTapeRequest_tmc (req : TapeRequest) (s : State) : (dirTapeRequest req s).1.tmc = s.tmc := by
  simp [dirTapeRequest]

/-- The owner of a directive leaves the mechanism alone, but for CHANGE_PROFILE, which sets its profile (R27). -/
theorem rowAct_sound {c : Instr} {owner : State → State × Result} (act : rowAct c = some owner) {s : State}
    (h : Mechanism s.tmc) : Mechanism (owner s).1.tmc := by
  have alone {r : State × Result} (same : r.1.tmc = s.tmc) : Mechanism r.1.tmc := same ▸ h
  cases c
  case changeProfile outTime inTime blackout =>
    obtain rfl := Option.some.inj act
    simpa [dirChangeProfile] using Tmc.changeProfile_sound h outTime inTime blackout
  case gotoSlot => obtain rfl := Option.some.inj act; exact alone (by unfold dirGotoSlot; split <;> simp)
  case tapeWind => obtain rfl := Option.some.inj act; exact alone (by unfold dirTapeWind; split <;> simp)
  case cueWrite => obtain rfl := Option.some.inj act; exact alone (by unfold dirCueWrite; split <;> simp)
  all_goals first
    | exact (Option.some_ne_none _ act.symm).elim
    | obtain rfl := Option.some.inj act
      refine alone ?_
      simp only [dirRemoteSetup, dirHome, dirMoveBy, dirClearGate, dirLampOn, dirLampOff, dirLampFade, dirLampCeiling,
        dirLampSpare, dirHeatProfile, dirFanProfile, dirCutoffSelect, dirCutoffEnable, dirCutoffForce, dirCutoffClear,
        dirTapePlay, dirTapeStop, dirTapeLocate, dirTapeRecord, dirTapeZero, dirCueRoute, dirAudioLevel, dirArbLevels,
        dirArbMask, dirRunLoad, dirRunMask, dirRunTrigger, dirRunClearAll, dirRunOrder, dirShowStart, dirShowPause,
        dirShowResume, dirShowStop, dirCueGo, dirShowLead, State.depositDirective_tmc, State.putRr_tmc, State.putLc_tmc,
        State.putFc_tmc, State.putCu_tmc, State.putTtc_tmc, State.putCa_tmc, State.putRcu_tmc, State.putCe_tmc,
        dirTapeRequest_tmc]

theorem State.take_sound {s : State} {owner : State → State × Result} (code : Byte)
    (h : Mechanism (owner s).1.tmc) : Mechanism (s.take owner code).tmc := by
  simpa [State.take] using h

theorem State.directive_sound {s : State} (h : Mechanism s.tmc) (code : Byte) (operands : List Byte) :
    Mechanism (s.directive code operands).1.tmc :=
  State.directive_induction (P := fun r => Mechanism r.1.tmc) s h (fun _ _ act => rowAct_sound act h) code operands

theorem State.takeRow_sound {s : State} {owner : State → State × Result} (code : Byte)
    (act : ∀ k : State, Mechanism k.tmc → Mechanism (owner k).1.tmc) (h : Mechanism s.tmc) :
    Mechanism (State.takeRow code owner s).tmc := by
  unfold State.takeRow
  split
  · exact h
  · dsimp only
    split
    · exact State.take_sound code (act s h)
    · exact State.take_sound code (act _ (by simpa using h))

@[simp] theorem State.partReset_tmc (s : State) : s.partReset.tmc = (Tmc.fresh s.tmc.tcode s.tmc.sensors).1 := by
  simp [State.partReset]

/-! ### The bus -/

theorem State.leadByte_sound {s : State} (h : Mechanism s.tmc) (code : Byte) : Mechanism (s.leadByte code).tmc := by
  unfold State.leadByte
  have closed : Mechanism s.abandon.tmc := by simpa using h
  dsimp only
  split
  · simpa using Tmc.fresh_sound _ _
  · split
    · simpa using h
    · exact State.take_sound code (State.directive_sound closed _ _)
    · exact closed

theorem State.operandByte_sound {s : State} (h : Mechanism s.tmc) (b : Byte) : Mechanism (s.operandByte b).tmc := by
  unfold State.operandByte
  split
  · dsimp only
    split
    · exact State.take_sound _ (State.directive_sound h _ _)
    · exact h
  · simpa using h

theorem State.snoop_sound {s : State} (h : Mechanism s.tmc) (a : Address) (b : Byte) : Mechanism (s.snoop a b).tmc := by
  unfold State.snoop
  split
  · exact h
  · unfold State.route
    split
    · exact State.leadByte_sound h b
    · split
      · exact State.operandByte_sound h b
      · (repeat' split) <;> first | exact h | simpa using h

theorem State.beforeHost_sound {s : State} (h : Mechanism s.tmc) : Mechanism s.beforeHost.tmc := by
  unfold State.beforeHost
  dsimp only
  split
  · rw [State.kickReports_tmc]
    unfold State.holdHost
    split
    · exact State.carry_sound (by simpa using h)
    · split
      · exact State.carry_sound (by simpa using h)
      · exact h
  · exact h

theorem State.hostWrite_sound {s : State} (h : Mechanism s.tmc) (a : Address) (b : Byte) (gap : Bool) :
    Mechanism (s.hostWrite a b gap).tmc := by
  unfold State.hostWrite
  refine State.run_sound (State.snoop_sound ?_ a b)
  exact State.beforeHost_sound h

theorem State.acceptFrame_sound {s : State} (h : Mechanism s.tmc) (key : BitVec 5) (toggle : Bool) :
    Mechanism (s.acceptFrame key toggle).tmc := by
  rcases s.acceptFrame_cases key toggle with ⟨-, e⟩ | ⟨_, -, ⟨-, -, e⟩ | ⟨-, e⟩⟩ <;> rw [e]
  · simpa using h
  · simpa using h
  · rw [State.press_tmc]
    exact State.carry_sound (by simpa using h)

theorem State.completeFrame_sound {s : State} (h : Mechanism s.tmc) : Mechanism s.completeFrame.tmc := by
  unfold State.completeFrame
  split
  · exact h
  · split
    · dsimp only
      split
      · exact State.acceptFrame_sound (by simpa using h) _ _
      · simpa using h
    · simpa using h

theorem State.takeReport_sound {s : State} (h : Mechanism s.tmc) : Mechanism s.takeReport.tmc := by
  unfold State.takeReport
  split
  · simpa using Tmc.takeReport_sound h
  · exact h

/-! ### Every command -/

/-- A command of one act that leaves the mechanism sound. -/
theorem perform_sound {f : State → State} {s t : State} (act : Mechanism (f s).tmc) (h : perform f s = .next t) :
    Mechanism t.tmc := by
  obtain rfl : s.run f = t := Host.Outcome.next.inj h
  exact State.run_sound act

theorem performReset_sound {f : State → State} {s t : State} (act : Mechanism (f s).tmc)
    (h : performReset f s = .next t) : Mechanism t.tmc := by
  obtain rfl : s.carry f = t := Host.Outcome.next.inj h
  exact State.carry_sound act

theorem hostWriteAt_sound {s t : State} (sound : Mechanism s.tmc) {offset : Nat} {b : Byte} {gap : Bool}
    (h : (.next (s.hostWriteAt offset b gap) : Host.Outcome State Fault Refusal) = .next t) : Mechanism t.tmc := by
  obtain rfl := Host.Outcome.next.inj h
  exact State.hostWrite_sound sound _ _ _

/-- Every command leaves a sound mechanism. -/
theorem exec_sound {s : State} (sound : Mechanism s.tmc) {c : Instr} {t : State} (h : exec c s = .next t) :
    Mechanism t.tmc := by
  cases row : rowAct c with
  | some owner =>
    obtain ⟨code, -, e⟩ := exec_row row
    rw [e] at h
    exact perform_sound (State.takeRow_sound code (fun _ => rowAct_sound row) sound) h
  | none =>
    cases c
    case powerOnReset pins =>
      refine performReset_sound ?_ h
      simpa [State.powerOn, State.porBlocks] using Tmc.fresh_sound pins.tcode pins.sensors
    case hostWrite => exact Host.Outcome.next.inj h ▸ State.hostWrite_sound sound _ _ _
    case hostRead =>
      obtain rfl := Host.Outcome.next.inj h
      simpa [State.hostRead, State.afterHost] using State.beforeHost_sound sound
    case leadByte | unknownCode | operandByte | ridxWrite | curveWrite | keyMapWrite => exact hostWriteAt_sound sound h
    case cueStoreWrite =>
      simp only [exec, execCueStoreWrite] at h
      split at h
      · exact hostWriteAt_sound sound h
      · exact absurd h nofun
    case partReset =>
      refine performReset_sound ?_ h
      unfold State.resetRow
      split
      · exact sound
      · simpa using Tmc.fresh_sound _ _
    case resetAsserted => exact performReset_sound sound h
    case trayCodeChange => exact perform_sound (by simpa using Tmc.codeChange_sound sound _ _) h
    case blackoutReport => exact perform_sound (State.takeReport_sound sound) h
    case darkenLate => exact perform_sound (by simpa using Tmc.darkenLate_sound sound) h
    case ltopActive => exact perform_sound (by simpa using Tmc.ltopActive_sound sound) h
    case liftTimerExpiry => exact perform_sound (by simpa using Tmc.liftExpiry_sound sound) h
    case liftLoweringEnd => exact perform_sound (by simpa using Tmc.loweringEnd_sound sound) h
    case arrival => exact perform_sound (by simpa using Tmc.arrive_sound sound _) h
    case positionTimerExpiry => exact perform_sound (by simpa using Tmc.positionExpiry_sound sound) h
    case gseatActive => exact perform_sound (by simpa using Tmc.gseatActive_sound sound) h
    case dropTimerExpiry => exact perform_sound (by simpa using Tmc.dropExpiry_sound sound _) h
    case settleEnd => exact perform_sound (by simpa using Tmc.settleEnd_sound sound) h
    case uptimeTick => exact perform_sound (Tmc.tick_sound sound _) h
    case remoteFrame => exact perform_sound (State.completeFrame_sound sound) h
    case heatUpdate | measurementWindowEnd | leaderAllowanceEnd =>
      refine perform_sound ?_ h
      split
      · simpa using sound
      · exact sound
    all_goals first
      | exact absurd row (Option.some_ne_none _)
      | exact perform_sound (by simpa using sound) h

/-- Settles O54: every command of the queue keeps the mechanism sound, through the notices that it leads to. -/
theorem mechanismKept : Obligations.MechanismKept := by
  intro s _ sound t h
  unfold step at h
  split at h
  · exact Host.Outcome.next.inj h ▸ sound
  · next c rest _ => exact exec_sound (s := { s with pending := rest }) sound h

/-! ## The reset state -/

theorem reset_lamphouse : Lamphouse State.reset.lc where
  output := rfl
  ceiling := by decide
  limit := by decide
  thresholds := by decide
  units := ⟨78, 110, rfl, rfl, by decide⟩
  heat := by decide
  gain := by decide
  report := nofun

theorem reset_fan : Fan State.reset.fc where
  stopped := by decide
  spinup := by decide
  demand := by decide
  speed := by decide
  pulses := by decide
  grace := by decide
  stalls := by decide
  minimum := by decide

theorem reset_cutoff : Cutoff State.reset.cu where
  flag := by decide
  law := by intro c _ present; cases c <;> exact absurd present Bool.false_ne_true
  handed := by decide

theorem reset_deck : Deck State.reset.ttc where
  fifo := by decide
  latched := by decide
  direction := by decide
  decoder := by decide
  writer := by decide
  watch := by decide
  leader := by decide

theorem reset_remote : Remote State.reset.rr where
  bits := trivial
  errors := by decide
  drive := by decide

theorem reset_runChannels : RunChannels State.reset where
  size := rfl
  channel := by
    have cleared : RunChannel Channel.cleared := by constructor <;> decide
    intro c
    have e : State.reset.rcu.channels.get c = Channel.cleared := by revert c; decide
    exact e ▸ cleared

theorem reset_engine : Engine State.reset.ce := by constructor <;> decide

theorem reset_reports : Reports State.reset := by
  constructor <;> first | decide | nofun

theorem reset_decoder : Decoder State.reset.dd := by constructor <;> decide

/-- Settles O60: the mechanism after reset is that of POR with an empty well, and each other block's record is read off. -/
theorem resetSound : Obligations.ResetSound :=
  ⟨rfl, rfl, Tmc.fresh_sound 0 Sensors.quiet, reset_lamphouse, reset_fan, by unfold CoolDone; decide, reset_cutoff, reset_deck,
    reset_remote, reset_runChannels, reset_engine, reset_reports, reset_decoder, rfl, rfl⟩

end Sys2Proof.Machine
end

section
/-! ## Where a command stands: a calculus of runs

A command is its act and the notices that the act leads to. `StandsAt u events queue s` says of a state within a command
that it reads as `u`, with these entries handed to the Report Writer and these notices waiting. `Handled` says what one
notice does to such a state, `Leads` what all that wait lead to, and `Ran` where the command ends. -/

namespace Sys2Proof.Machine

open Sys2Proof.Safety

/-! ### The Report Writer's inlets where nothing more can change -/

/-- Every line is marked dirty already. -/
def Rw.Marked (rw : Rw) : Prop := ∀ l ∈ rw.lines, l.dirty = true

/-- A mark changes nothing where every line is dirty. -/
theorem Rw.markDirty_marked {rw : Rw} (marked : rw.Marked) (line : Nat) : rw.markDirty line = rw := by
  have same : rw.lines.modify line (fun l => { l with dirty := true }) = rw.lines := by
    refine List.ext_getElem (by simp) fun k _ here => ?_
    rw [List.getElem_modify]
    split
    · have dirty := marked _ (List.getElem_mem here)
      generalize rw.lines[k] = l at dirty
      obtain ⟨_, _, _, _⟩ := l
      cases dirty
      rfl
    · rfl
  rw [Rw.markDirty, same]

theorem State.post_rw_lines {s : State} (marked : s.rw.Marked) (ns : List Notice) :
    (s.post ns).rw.lines = s.rw.lines := by
  induction ns generalizing s with
  | nil => rfl
  | cons n ns ih =>
    have first : (s.post1 n).rw.lines = s.rw.lines := by
      cases n with
      | log e arg => simp only [State.post1, Rw.handOver]; split <;> rfl
      | dirty line => simp only [State.post1, Rw.markDirty_marked marked]
      | _ => rfl
    rw [State.post_cons, ih (by simpa only [Rw.Marked, first] using marked), first]

/-- Entries with room for them are not dropped (R213). -/
theorem State.post_rw_dropped (s : State) (ns : List Notice) (room : s.rw.buffer.length + (loggedOf ns).length ≤ 8) :
    (s.post ns).rw.dropped = s.rw.dropped := by
  induction ns generalizing s with
  | nil => rfl
  | cons n ns ih =>
    rw [State.post_cons]
    cases n with
    | log e arg =>
      have here : s.rw.buffer.length < 8 := by simp at room; omega
      rw [ih]
      · simp [State.post1, Rw.handOver, here]
      · simp [State.post1, Rw.handOver, here] at room ⊢; omega
    | _ => rw [ih] <;> first | rfl | exact room

theorem State.act_rw_lines {s : State} {f : State → State} (marked : (f s).rw.Marked) :
    (s.act f).rw.lines = (f s).rw.lines := by
  have marks (ns : List Nat) {g : Rw → Nat → Rw} (same : ∀ n, g (f s).rw n = (f s).rw) :
      ns.foldl g (f s).rw = (f s).rw := by
    induction ns with
    | nil => rfl
    | cons n ns ih => rw [List.foldl_cons, same, ih]
  refine congrArg Rw.lines (marks (List.range 11)
    (g := fun rw n => if s.lineData n = (f s).lineData n then rw else rw.markDirty n) fun n => ?_)
  by_cases same : s.lineData n = (f s).lineData n
  · exact if_pos same
  · exact (if_neg same).trans (Rw.markDirty_marked marked n)

/-! ### Standing -/

/-- `s` reads as `u`, but for the Report Writer's inlets and the notices: beside what `u` holds these entries have been
handed over, which join the buffer where there is room for them, and these notices wait (R211, R213). -/
def StandsAt (u : State) (events : List (Event × Half)) (queue : List Notice) (s : State) : Prop :=
  ∃ buffer dropped lines,
    s = { u with rw := { u.rw with buffer := buffer, dropped := dropped, lines := lines }, notices := queue } ∧
    (u.rw.buffer.length + events.length ≤ 8 →
      buffer = u.rw.buffer ++ events.map (fun e => ⟨e.1, e.2, u.rw.uptime⟩) ∧ dropped = u.rw.dropped) ∧
    (u.rw.Marked → lines = u.rw.lines)

namespace StandsAt

variable {u s : State} {events : List (Event × Half)} {queue : List Notice}

theorem refl (calm : s.notices = []) : StandsAt s [] [] s :=
  ⟨s.rw.buffer, s.rw.dropped, s.rw.lines, by rw [← calm], fun _ => by simp, fun _ => rfl⟩

theorem mem (h : StandsAt u events queue s) : s.mem = u.mem := by obtain ⟨_, _, _, rfl, _⟩ := h; rfl
theorem pu (h : StandsAt u events queue s) : s.pu = u.pu := by obtain ⟨_, _, _, rfl, _⟩ := h; rfl
theorem dd (h : StandsAt u events queue s) : s.dd = u.dd := by obtain ⟨_, _, _, rfl, _⟩ := h; rfl
theorem ce (h : StandsAt u events queue s) : s.ce = u.ce := by obtain ⟨_, _, _, rfl, _⟩ := h; rfl
theorem ca (h : StandsAt u events queue s) : s.ca = u.ca := by obtain ⟨_, _, _, rfl, _⟩ := h; rfl
theorem rcu (h : StandsAt u events queue s) : s.rcu = u.rcu := by obtain ⟨_, _, _, rfl, _⟩ := h; rfl
theorem tmc (h : StandsAt u events queue s) : s.tmc = u.tmc := by obtain ⟨_, _, _, rfl, _⟩ := h; rfl
theorem lc (h : StandsAt u events queue s) : s.lc = u.lc := by obtain ⟨_, _, _, rfl, _⟩ := h; rfl
theorem fc (h : StandsAt u events queue s) : s.fc = u.fc := by obtain ⟨_, _, _, rfl, _⟩ := h; rfl
theorem cu (h : StandsAt u events queue s) : s.cu = u.cu := by obtain ⟨_, _, _, rfl, _⟩ := h; rfl
theorem ttc (h : StandsAt u events queue s) : s.ttc = u.ttc := by obtain ⟨_, _, _, rfl, _⟩ := h; rfl
theorem rr (h : StandsAt u events queue s) : s.rr = u.rr := by obtain ⟨_, _, _, rfl, _⟩ := h; rfl
theorem pending (h : StandsAt u events queue s) : s.pending = u.pending := by obtain ⟨_, _, _, rfl, _⟩ := h; rfl
theorem notices (h : StandsAt u events queue s) : s.notices = queue := by obtain ⟨_, _, _, rfl, _⟩ := h; rfl
theorem uptime (h : StandsAt u events queue s) : s.rw.uptime = u.rw.uptime := by obtain ⟨_, _, _, rfl, _⟩ := h; rfl
theorem writeIndex (h : StandsAt u events queue s) : s.rw.writeIndex = u.rw.writeIndex := by
  obtain ⟨_, _, _, rfl, _⟩ := h; rfl
theorem readIndex (h : StandsAt u events queue s) : s.rw.readIndex = u.rw.readIndex := by
  obtain ⟨_, _, _, rfl, _⟩ := h; rfl
theorem job (h : StandsAt u events queue s) : s.rw.job = u.rw.job := by obtain ⟨_, _, _, rfl, _⟩ := h; rfl

theorem buffer (h : StandsAt u events queue s) (room : u.rw.buffer.length + events.length ≤ 8) :
    s.rw.buffer = u.rw.buffer ++ events.map fun e => ⟨e.1, e.2, u.rw.uptime⟩ := by
  obtain ⟨_, _, _, rfl, joined, _⟩ := h; exact (joined room).1

theorem dropped (h : StandsAt u events queue s) (room : u.rw.buffer.length + events.length ≤ 8) :
    s.rw.dropped = u.rw.dropped := by
  obtain ⟨_, _, _, rfl, joined, _⟩ := h; exact (joined room).2

theorem lines (h : StandsAt u events queue s) (marked : u.rw.Marked) : s.rw.lines = u.rw.lines := by
  obtain ⟨_, _, _, rfl, _, still⟩ := h; exact still marked

/-- The Report Writer where every line is dirty and there is room for the entries. -/
theorem rw (h : StandsAt u events queue s) (marked : u.rw.Marked) (room : u.rw.buffer.length + events.length ≤ 8) :
    s.rw = { u.rw with buffer := u.rw.buffer ++ events.map fun e => ⟨e.1, e.2, u.rw.uptime⟩ } := by
  obtain ⟨_, _, _, rfl, joined, still⟩ := h
  obtain ⟨rfl, rfl⟩ := joined room
  obtain rfl := still marked
  rfl

/-- Notices made: the entries are handed over and the others wait behind those that wait already. -/
theorem post (h : StandsAt u events queue s) (ns : List Notice) :
    StandsAt u (events ++ loggedOf ns) (queue ++ queuedOf ns) (s.post ns) := by
  obtain ⟨b, d, l, e⟩ := s.post_eq ns
  refine ⟨b, d, l, ?_, fun room => ?_, fun marked => ?_⟩
  · rw [e]
    obtain ⟨_, _, _, rfl, _⟩ := h
    rfl
  · rw [List.length_append] at room
    have joined := h.buffer (by omega)
    have left : s.rw.buffer.length + (loggedOf ns).length ≤ 8 := by rw [joined]; simp; omega
    have buffer : (s.post ns).rw.buffer = b := by rw [e]
    have dropped : (s.post ns).rw.dropped = d := by rw [e]
    rw [← buffer, ← dropped, State.post_rw_buffer s ns left, State.post_rw_dropped s ns left, joined, h.uptime]
    simp [h.dropped (by omega)]
  · have lines : (s.post ns).rw.lines = l := by rw [e]
    rw [← lines, State.post_rw_lines (by simpa only [Rw.Marked, h.lines marked] using marked), h.lines marked]

/-- The dirty marks of an act are the Report Writer's own. -/
theorem act {f : State → State} (h : StandsAt u events queue (f s)) : StandsAt u events queue (s.act f) := by
  obtain ⟨ls, e⟩ := s.act_eq f
  refine ⟨(f s).rw.buffer, (f s).rw.dropped, ls, ?_, fun room => ⟨h.buffer room, h.dropped room⟩, fun marked => ?_⟩
  · rw [e]
    obtain ⟨b, d, l, same, _⟩ := h
    rw [same]
  · have lines : (s.act f).rw.lines = ls := by rw [e]
    rw [← lines, State.act_rw_lines (by simpa only [Rw.Marked, h.lines marked] using marked), h.lines marked]

/-- The first notice is taken off. -/
theorem pop {n : Notice} (h : StandsAt u events (n :: queue) s) : StandsAt u events queue { s with notices := queue } := by
  obtain ⟨b, d, l, rfl, joined⟩ := h
  exact ⟨b, d, l, rfl, joined⟩

theorem putTmc (h : StandsAt u events queue s) (r : Reaction Tmc) :
    StandsAt { u with tmc := r.1 } (events ++ loggedOf r.2) (queue ++ queuedOf r.2) (s.putTmc r) := by
  refine StandsAt.post (s := { s with tmc := r.1 }) ?_ r.2
  obtain ⟨b, d, l, rfl, joined⟩ := h
  exact ⟨b, d, l, rfl, joined⟩

theorem putLc (h : StandsAt u events queue s) (r : Reaction Lc) :
    StandsAt { u with lc := r.1 } (events ++ loggedOf (r.2 ++ Lc.fanNotices u.lc r.1))
      (queue ++ queuedOf (r.2 ++ Lc.fanNotices u.lc r.1)) (s.putLc r) := by
  rw [← h.lc]
  refine StandsAt.post (s := { s with lc := r.1 }) ?_ (r.2 ++ Lc.fanNotices s.lc r.1)
  obtain ⟨b, d, l, rfl, joined⟩ := h
  exact ⟨b, d, l, rfl, joined⟩

theorem putFc (h : StandsAt u events queue s) (r : Reaction Fc) :
    StandsAt { u with fc := r.1 } (events ++ loggedOf r.2) (queue ++ queuedOf r.2) (s.putFc r) := by
  refine StandsAt.post (s := { s with fc := r.1 }) ?_ r.2
  obtain ⟨b, d, l, rfl, joined⟩ := h
  exact ⟨b, d, l, rfl, joined⟩

theorem putCu (h : StandsAt u events queue s) (r : Reaction Cu) :
    StandsAt { u with cu := r.1 } (events ++ loggedOf r.2) (queue ++ queuedOf r.2) (s.putCu r) := by
  refine StandsAt.post (s := { s with cu := r.1 }) ?_ r.2
  obtain ⟨b, d, l, rfl, joined⟩ := h
  exact ⟨b, d, l, rfl, joined⟩

theorem putTtc (h : StandsAt u events queue s) (r : Reaction Ttc) :
    StandsAt { u with ttc := r.1 } (events ++ loggedOf r.2) (queue ++ queuedOf r.2) (s.putTtc r) := by
  refine StandsAt.post (s := { s with ttc := r.1 }) ?_ r.2
  obtain ⟨b, d, l, rfl, joined⟩ := h
  exact ⟨b, d, l, rfl, joined⟩

theorem putCa (h : StandsAt u events queue s) (r : Reaction Ca) :
    StandsAt { u with ca := r.1 } (events ++ loggedOf r.2) (queue ++ queuedOf r.2) (s.putCa r) := by
  refine StandsAt.post (s := { s with ca := r.1 }) ?_ r.2
  obtain ⟨b, d, l, rfl, joined⟩ := h
  exact ⟨b, d, l, rfl, joined⟩

theorem putRcu (h : StandsAt u events queue s) (r : Reaction Rcu) :
    StandsAt { u with rcu := r.1 } (events ++ loggedOf r.2) (queue ++ queuedOf r.2) (s.putRcu r) := by
  refine StandsAt.post (s := { s with rcu := r.1 }) ?_ r.2
  obtain ⟨b, d, l, rfl, joined⟩ := h
  exact ⟨b, d, l, rfl, joined⟩

theorem putCe (h : StandsAt u events queue s) (r : Reaction Ce) :
    StandsAt { u with ce := r.1 } (events ++ loggedOf r.2) (queue ++ queuedOf r.2) (s.putCe r) := by
  refine StandsAt.post (s := { s with ce := r.1 }) ?_ r.2
  obtain ⟨b, d, l, rfl, joined⟩ := h
  exact ⟨b, d, l, rfl, joined⟩

end StandsAt

/-! ### Notices taken -/

/-- What the notice `n` does to a state that reads as `u`: it reads as `u'` then, with these entries handed over and these
notices made. -/
def Handled (n : Notice) (u u' : State) (events : List (Event × Half)) (made : List Notice) : Prop :=
  ∀ s before queue, StandsAt u before queue s → StandsAt u' (before ++ events) (queue ++ made) (State.handle n s)

/-- What the notices that wait lead to, with all that they make, within this many. -/
def Leads (fuel : Nat) (u : State) (queue : List Notice) (u' : State) (events : List (Event × Half)) : Prop :=
  ∀ s before, StandsAt u before queue s → StandsAt u' (before ++ events) [] (State.drain fuel s)

theorem Leads.nil (fuel : Nat) (u : State) : Leads fuel u [] u [] := by
  intro s before h
  rw [State.drain_nil s fuel h.notices, List.append_nil]
  exact h

theorem Leads.cons {fuel : Nat} {n : Notice} {u u₁ u₂ : State} {queue made : List Notice}
    {first later : List (Event × Half)} (one : Handled n u u₁ first made) (rest : Leads fuel u₁ (queue ++ made) u₂ later) :
    Leads (fuel + 1) u (n :: queue) u₂ (first ++ later) := by
  intro s before h
  rw [State.drain_cons s fuel n queue h.notices, ← List.append_assoc]
  exact rest _ _ (one _ _ _ h.pop).act

/-! ### Where a command ends -/

/-- A command has ended where its act and its notices led, with the Report Writer's next write asked for (R212). -/
def Ran (u : State) (events : List (Event × Half)) (t : State) : Prop :=
  ∃ w, StandsAt u events [] w ∧ t = w.settle

theorem run_ran {s u u' : State} {f : State → State} {first later : List (Event × Half)} {queue : List Notice}
    (act : StandsAt u first queue (f s)) (rest : Leads Config.cascadeFuel u queue u' later) :
    Ran u' (first ++ later) (s.run f) := ⟨s.carry f, rest _ _ act.act, rfl⟩

/-- A command whose act makes no notice ends where its act stands. -/
theorem run_ran_quiet {s u : State} {f : State → State} {events : List (Event × Half)} (act : StandsAt u events [] (f s)) :
    Ran u events (s.run f) := by
  simpa using run_ran act (.nil _ u)

namespace Ran

variable {s u t : State} {events : List (Event × Half)} {changed : List Part}

theorem ce (h : Ran u events t) : t.ce = u.ce := by obtain ⟨w, k, rfl⟩ := h; simp [k.ce]
theorem ca (h : Ran u events t) : t.ca = u.ca := by obtain ⟨w, k, rfl⟩ := h; simp [k.ca]
theorem rcu (h : Ran u events t) : t.rcu = u.rcu := by obtain ⟨w, k, rfl⟩ := h; simp [k.rcu]
theorem tmc (h : Ran u events t) : t.tmc = u.tmc := by obtain ⟨w, k, rfl⟩ := h; simp [k.tmc]
theorem lc (h : Ran u events t) : t.lc = u.lc := by obtain ⟨w, k, rfl⟩ := h; simp [k.lc]
theorem fc (h : Ran u events t) : t.fc = u.fc := by obtain ⟨w, k, rfl⟩ := h; simp [k.fc]
theorem cu (h : Ran u events t) : t.cu = u.cu := by obtain ⟨w, k, rfl⟩ := h; simp [k.cu]
theorem ttc (h : Ran u events t) : t.ttc = u.ttc := by obtain ⟨w, k, rfl⟩ := h; simp [k.ttc]
theorem dd (h : Ran u events t) : t.dd = u.dd := by obtain ⟨w, k, rfl⟩ := h; simp [k.dd]

/-- Every part that reads in `u` as before the command reads so after it. -/
theorem unchanged (h : Ran u events t) (parts : ∀ p, p ∉ changed → p.same s { u with notices := [] }) :
    Unchanged changed s t := by
  obtain ⟨w, k, rfl⟩ := h
  intro p hp
  have same := parts p hp
  cases p <;> simpa [Part.same, k.mem, k.pu, k.dd, k.ce, k.ca, k.rcu, k.tmc, k.lc, k.fc, k.cu, k.ttc, k.rr, k.pending,
    k.notices, k.uptime, k.writeIndex, k.readIndex] using same

/-- The entries handed over are the command's. -/
theorem logs (h : Ran u events t) (same : u.rw = s.rw) : Logs events s t := by
  obtain ⟨w, k, rfl⟩ := h
  intro busy room
  rw [State.settle_rw_buffer _ (by rw [k.job, same]; exact busy), k.buffer (by rw [same]; exact room), same]

/-- The effect of a command that ends at `u`. -/
theorem effect (h : Ran u events t) (same : u.rw = s.rw)
    (parts : ∀ p, p ∉ changed → p.same s { u with notices := [] }) : Effect changed events s t :=
  ⟨h.unchanged parts, h.logs same⟩

end Ran

end Sys2Proof.Machine
end

section
/-! ## The notices of the mechanism, taken

What the notices that the mechanism makes of the arbiter and of the lamp do, and what the end of an operation leads to when
nothing waits behind it. -/

namespace Sys2Proof.Machine

open Sys2Proof.Safety

/-! ### The lamp -/

@[simp] theorem Lc.recompute_state (lc : Lc) : lc.recompute.state = lc.state := by
  simp only [Lc.recompute, Lc.rewatch, Lc.checkDark]; split <;> rfl

@[simp] theorem Lc.recompute_h (lc : Lc) : lc.recompute.h = lc.h := by
  simp only [Lc.recompute, Lc.rewatch, Lc.checkDark]; split <;> rfl

@[simp] theorem Lc.recompute_derateStart (lc : Lc) : lc.recompute.derateStart = lc.derateStart := by
  simp only [Lc.recompute, Lc.rewatch, Lc.checkDark]; split <;> rfl

@[simp] theorem Lc.recompute_fade (lc : Lc) : lc.recompute.fade = lc.fade := by
  simp only [Lc.recompute, Lc.rewatch, Lc.checkDark]; split <;> rfl

@[simp] theorem Lc.recompute_stored (lc : Lc) : lc.recompute.stored = lc.stored := by
  simp only [Lc.recompute, Lc.rewatch, Lc.checkDark]; split <;> rfl

@[simp] theorem Lc.recompute_fadeLevel (lc : Lc) : lc.recompute.fadeLevel = lc.fadeLevel := by
  simp only [Lc.recompute, Lc.rewatch, Lc.checkDark]; split <;> rfl

@[simp] theorem Lc.recompute_output (lc : Lc) : lc.recompute.output = lc.computedOutput := by
  simp only [Lc.recompute, Lc.rewatch, Lc.checkDark]; split <;> rfl

@[simp] theorem Lc.recompute_holdLevel (lc : Lc) : lc.recompute.holdLevel = lc.holdLevel := by
  simp only [Lc.recompute, Lc.rewatch, Lc.checkDark]; split <;> rfl

/-- A hold that is not darkening stands, whatever the output becomes (R47). -/
theorem Lc.recompute_hold {lc : Lc} (standing : lc.hold ≠ .darkening) : lc.recompute.hold = lc.hold := by
  simp [Lc.recompute, Lc.rewatch, Lc.checkDark, standing]

/-- A report stands while the hold is not darkening (R47). -/
theorem Lc.recompute_report {lc : Lc} (standing : lc.hold ≠ .darkening) : lc.recompute.report = lc.report := by
  simp [Lc.recompute, Lc.rewatch, Lc.checkDark, standing]

/-- The fan has nothing to follow where the lamp's group, H and DS stand (R61). -/
theorem fanNotices_eq_nil {before after : Lc} (state : after.state = before.state) (h : after.h = before.h)
    (ds : after.derateStart = before.derateStart) : Lc.fanNotices before after = [] := by
  simp [Lc.fanNotices, Lc.lampActive, state, h, ds]

/-- A notice that the lamp takes on its own, with its group, H and DS standing (R61). -/
theorem handled_lamp {u : State} {n : Notice} {lc : Lc} (act : ∀ s, s.lc = u.lc → State.handle n s = s.putLc (lc, []))
    (state : lc.state = u.lc.state) (h : lc.h = u.lc.h) (ds : lc.derateStart = u.lc.derateStart) :
    Handled n u { u with lc := lc } [] [] := by
  intro s before queue k
  rw [act s k.lc]
  simpa [fanNotices_eq_nil state h ds] using k.putLc (lc, [])

theorem Lc.takeDarken_heat (lc : Lc) (outTime b : Nat) :
    (lc.takeDarken outTime b).state = lc.state ∧ (lc.takeDarken outTime b).h = lc.h ∧
      (lc.takeDarken outTime b).derateStart = lc.derateStart := by
  unfold Lc.takeDarken
  dsimp only
  (repeat' split) <;> simp [Lc.startFade]

theorem Lc.takeSnap_heat (lc : Lc) :
    lc.takeSnap.state = lc.state ∧ lc.takeSnap.h = lc.h ∧ lc.takeSnap.derateStart = lc.derateStart := by
  unfold Lc.takeSnap
  split <;> simp

theorem Lc.takeRelease_heat (lc : Lc) (inTime : Nat) :
    (lc.takeRelease inTime).state = lc.state ∧ (lc.takeRelease inTime).h = lc.h ∧
      (lc.takeRelease inTime).derateStart = lc.derateStart := by
  unfold Lc.takeRelease Lc.returnFade
  (repeat' split) <;> simp_all [Lc.endHold, Lc.startFade]

/-- A darken request reaches the lamp alone (R46). -/
theorem handled_darken (u : State) (outTime b : Nat) :
    Handled (.darken outTime b) u { u with lc := u.lc.takeDarken outTime b } [] [] := by
  obtain ⟨state, h, ds⟩ := u.lc.takeDarken_heat outTime b
  exact handled_lamp (fun s e => by rw [← e]; rfl) state h ds

/-- A snap request reaches the lamp alone (R48). -/
theorem handled_snap (u : State) : Handled .snap u { u with lc := u.lc.takeSnap } [] [] := by
  obtain ⟨state, h, ds⟩ := u.lc.takeSnap_heat
  exact handled_lamp (fun s e => by rw [← e]; rfl) state h ds

/-- A release reaches the lamp alone (R49). -/
theorem handled_release (u : State) (inTime : Nat) :
    Handled (.release inTime) u { u with lc := u.lc.takeRelease inTime } [] [] := by
  obtain ⟨state, h, ds⟩ := u.lc.takeRelease_heat inTime
  exact handled_lamp (fun s e => by rw [← e]; rfl) state h ds

/-! ### The arbiter -/

/-- The operation in service is handed back: none is in service then, its source is told, and a selection is due (R139). -/
theorem handled_outcome {u : State} {op : Operation} (service : u.ca.inService = some op) (result : OpOutcome) :
    Handled (.outcome op result) u { u with ca := { u.ca with inService := none } } []
      (deliverNotice op.source result ++ [.select]) := by
  intro s before queue k
  have here : s.ca.inService = some op := by rw [k.ca, service]
  have shape : State.handle (.outcome op result) s =
      s.putCa ({ s.ca with inService := none }, deliverNotice op.source result ++ [.select]) := by
    simp [State.handle, State.takeOutcome, here]
  have quiet : loggedOf (deliverNotice op.source result ++ [.select]) = [] := by
    unfold deliverNotice; split <;> rfl
  have queued : queuedOf (deliverNotice op.source result ++ [.select]) = deliverNotice op.source result ++ [.select] := by
    unfold deliverNotice; split <;> rfl
  have stands := k.putCa ({ u.ca with inService := none }, deliverNotice op.source result ++ [.select])
  rw [quiet, queued] at stands
  rw [shape, k.ca]
  exact stands

/-- With every slot empty there is no candidate (R135). -/
theorem Ca.best?_empty {ca : Ca} (empty : ∀ source, ca.slots.get source = none) : ca.best? = none := by
  have none_left : ca.candidates = [] := by
    simp [Ca.candidates, Ca.slot, empty]
  simp [Ca.best?, none_left]

/-- A selection with nothing pending changes nothing (R135). -/
theorem handled_select_idle {u : State} (empty : ∀ source, u.ca.slots.get source = none) : Handled .select u u [] [] := by
  intro s before queue k
  have idle : State.handle .select s = s := by
    have best : s.ca.best? = none := by rw [k.ca]; exact Ca.best?_empty empty
    simp only [State.handle, State.select, State.selectLoop, best, ite_self]
  simpa [idle] using k

/-- The source has no block behind it that waits for the outcome (R138). -/
theorem deliverNotice_unnotified {source : Source} (h : source = .directive ∨ source = .remote ∨ source = .tape)
    (result : OpOutcome) : deliverNotice source result = [] := by
  rcases h with rfl | rfl | rfl <;> rfl

/-- An outcome with nothing pending and no block behind its source leads to nothing more than the end of its service (R139). -/
theorem leads_outcome_idle {u : State} {op : Operation} (service : u.ca.inService = some op)
    (source : op.source = .directive ∨ op.source = .remote ∨ op.source = .tape)
    (empty : ∀ source, u.ca.slots.get source = none) (result : OpOutcome) (fuel : Nat) :
    Leads (fuel + 2) u [.outcome op result] { u with ca := { u.ca with inService := none } } [] := by
  have first := handled_outcome service result
  rw [deliverNotice_unnotified source] at first
  have idle := handled_select_idle (u := { u with ca := { u.ca with inService := none } }) empty
  exact Leads.cons first (Leads.cons idle (Leads.nil fuel _))

/-- The outcome of an operation alone at the arbiter. -/
theorem leads_outcome {s u : State} {op : Operation} (alone : Alone s op) (arbiter : u.ca = s.ca) (result : OpOutcome)
    (fuel : Nat) : Leads (fuel + 2) u [.outcome op result] { u with ca := { s.ca with inService := none } } [] := by
  rw [← arbiter]
  exact leads_outcome_idle (by rw [arbiter, alone.arbiter]) alone.source (by rw [arbiter]; exact alone.slots) result fuel

end Sys2Proof.Machine
end

section
/-! ## The slide change, command by command (01)

Each event of the mechanism is one reaction of it: its operation goes on, or it ends and the arbiter takes its outcome. -/

namespace Sys2Proof.Machine

open Sys2Proof.Safety

/-! ### One reaction of the mechanism -/

/-- The act of an event of the mechanism: its record and the notices it makes, with the lamp's record as `lc`. -/
theorem standsAt_reaction {s : State} (calm : s.notices = []) (lc : Lc) (r : Reaction Tmc) :
    StandsAt { s with lc := lc, tmc := r.1 } (loggedOf r.2) (queuedOf r.2) (({ s with lc := lc }).putTmc r) := by
  have start : StandsAt { s with lc := lc } [] [] { s with lc := lc } := .refl calm
  exact start.putTmc r

/-- Where an event of the mechanism ends: at what its notices lead to. -/
theorem reaction_ran {s u' : State} {f : State → State} {lc : Lc} {m : Tmc} {ns : List Notice}
    {later : List (Event × Half)} (calm : s.notices = []) (act : f s = ({ s with lc := lc }).putTmc (m, ns))
    (rest : Leads Config.cascadeFuel { s with lc := lc, tmc := m } (queuedOf ns) u' later) :
    Ran u' (loggedOf ns ++ later) (s.run f) := by
  refine run_ran ?_ rest
  rw [act]
  exact standsAt_reaction calm lc (m, ns)

/-- The operation goes on by a reaction that makes no notice. -/
theorem reaction_goesOn {s : State} {f : State → State} {lc : Lc} {m : Tmc} {ns : List Notice} {changed : List Part}
    (calm : s.notices = []) (act : f s = ({ s with lc := lc }).putTmc (m, ns)) (quiet : queuedOf ns = [])
    (lamp : lc = s.lc ∨ Part.lamp ∈ changed) : GoesOnAs m lc changed (loggedOf ns) s (s.run f) := by
  have ran := reaction_ran calm act (later := []) (by rw [quiet]; exact .nil _ _)
  rw [List.append_nil] at ran
  refine ⟨ran.tmc, ran.lc, ran.effect rfl ?_⟩
  intro p hp
  cases p <;> simp [Part.same] at hp ⊢
  exact lamp.resolve_right hp

/-- The operation ends by a reaction that hands over its outcome, with nothing pending behind it. -/
theorem reaction_ends {s : State} {f : State → State} {lc : Lc} {m : Tmc} {ns : List Notice} {changed : List Part}
    {op : Operation} {result : OpOutcome} (calm : s.notices = [])
    (act : f s = ({ s with lc := lc }).putTmc ({ m with op := none, redirect := false }, ns ++ [Notice.outcome op result]))
    (quiet : queuedOf ns = []) (lamp : lc = s.lc ∨ Part.lamp ∈ changed) :
    EndsAs op m lc changed (loggedOf ns) s (s.run f) := by
  intro alone
  have ran := reaction_ran calm act (later := [])
    (by rw [queuedOf_append, quiet]; exact leads_outcome alone (by rfl) result 510)
  have logs : loggedOf (ns ++ [Notice.outcome op result]) ++ [] = loggedOf ns := by simp [loggedOf]
  rw [logs] at ran
  refine ⟨ran.tmc, ran.lc, ran.ca, ran.effect rfl ?_⟩
  intro p hp
  cases p <;> simp [Part.same] at hp ⊢
  exact lamp.resolve_right hp

/-- An event of the mechanism that makes no notice. -/
theorem reaction_quiet {s : State} {f : State → State} {m : Tmc} {ns : List Notice} (calm : s.notices = [])
    (act : f s = s.putTmc (m, ns)) (quiet : queuedOf ns = []) :
    (s.run f).tmc = m ∧ Effect [.mechanism] (loggedOf ns) s (s.run f) :=
  putTmc_quiet s calm (m, ns) quiet f act

/-- An event that leaves the mechanism as it stands, and nothing to report, changes nothing. -/
theorem reaction_none {s : State} {f : State → State} (calm : s.notices = []) (act : f s = s.putTmc (s.tmc, [])) :
    Effect [] [] s (s.run f) := by
  have stands := standsAt_reaction calm s.lc (s.tmc, [])
  rw [← act] at stands
  refine (run_ran_quiet stands).effect rfl ?_
  intro p _
  cases p <;> simp [Part.same]

/-! ### DROP (R10) -/

/-- Settles O6, by the two events of DROP. -/
theorem dropEnds : Obligations.DropEnds := by
  intro s calm
  refine ⟨⟨_, rfl, fun other => ?_, fun drop => ?_⟩, fun gslide => ⟨_, rfl, fun idle => ?_, ?_, ?_⟩⟩
  · exact reaction_quiet (ns := []) calm (by simp [Tmc.gseatActive, other]) rfl
  · exact reaction_quiet (ns := []) calm (by simp [Tmc.gseatActive, Tmc.enterSettle, drop]) rfl
  · exact reaction_quiet (ns := []) calm (by simp only [Tmc.dropExpiry, Timer.due, beq_iff_eq, if_neg idle]) rfl
  · rintro drop due rfl
    exact reaction_quiet (ns := []) calm (by simp [Tmc.dropExpiry, Tmc.enterSettle, Timer.due, drop, due]) rfl
  · rintro drop due rfl first ltop
    exact reaction_quiet (ns := [.dirty 1, .log .seatRetry (if s.tmc.homed then halfOf s.tmc.p else 0xFF)]) calm
      (by cases h : s.tmc.homed <;>
            simp [Tmc.dropExpiry, Tmc.enterLift, Timer.due, satInc, Tmc.reportedP, halfOf, drop, due, first, ltop, h]) rfl

/-! ### SETTLE (R11) -/

/-- The release of a lit lamp starts the return fade from its output (R49). -/
theorem Lc.takeRelease_lit {lc : Lc} (lit : lc.state = .lit) (held : lc.hold ≠ .none) (inTime : Nat) :
    (lc.takeRelease inTime).stored = none ∧
      (lc.takeRelease inTime).fade = some (match lc.stored with
        | some f => ⟨lc.output, f.target, f.curve, f.duration, 0⟩
        | none => ⟨lc.output, lc.showLevel, 4, inTime, 0⟩) := by
  cases stored : lc.stored <;>
    simp [Lc.takeRelease, Lc.returnFade, Lc.endHold, Lc.startFade, lit, held, stored]

/-- A release ends the hold, but for one held over through a strike (R49, R50). -/
theorem Lc.takeRelease_hold {lc : Lc} (idle : lc.state ≠ .striking) (inTime : Nat) :
    (lc.takeRelease inTime).hold = .none := by
  unfold Lc.takeRelease Lc.returnFade
  (repeat' split) <;> simp_all [Lc.endHold, Lc.recompute_hold]

/-- Settles O7: the release reaches the lamp, and the outcome the arbiter. -/
theorem settleEnds : Obligations.SettleEnds := by
  refine ⟨fun s calm idle => ⟨_, rfl, reaction_none calm ?_⟩, ?_⟩
  · simp only [Tmc.settleEnd, Timer.due, beq_iff_eq, if_neg idle]
  · intro s calm settle due op service alone
    refine ⟨_, rfl, ?_⟩
    have act : s.tmc.settleEnd =
        ({ s.tmc with state := .ready, settleTimer := none, darkenStanding := false, op := none, redirect := false },
          [.release s.tmc.inTime, .log (if s.tmc.gate = .empty then .emptySlot else .changeDone)
          (argPair op.source.number (if s.tmc.homed then s.tmc.p else 0xFF)),
          .outcome op (if s.tmc.gate = .empty then .emptySlot else .done)]) := by
      simp [Tmc.settleEnd, Tmc.conclude, Timer.due, Tmc.reportedSource, Tmc.reportedP, settle, due, service]
    have ran := reaction_ran (f := fun k => k.putTmc k.tmc.settleEnd) (lc := s.lc) calm (congrArg s.putTmc act)
      (.cons (handled_release _ s.tmc.inTime) (leads_outcome alone (by rfl) _ 509))
    refine ⟨ran.tmc, ran.ca, fun dark => ran.lc ▸ Lc.takeRelease_hold dark _, fun lit held => ?_, ?_⟩
    · exact ran.lc ▸ Lc.takeRelease_lit lit held _
    · refine ran.effect rfl ?_
      intro p hp
      cases p <;> simp [Part.same] at hp ⊢

end Sys2Proof.Machine
end

section
/-! ## The phases of a cycle, from DARKEN to TURN (01) -/

namespace Sys2Proof.Machine

open Sys2Proof.Safety

/-! ### From an EMPTY gate (R5, R8, R9, R12, R14) -/

section

variable {t : Tmc} {op : Operation} {g : Nat}

/-- A change that is not at its target turns toward it. -/
theorem Tmc.afterLift_turn (service : t.op = some op) (change : changesSlide op.kind = true) (target : t.target = some g)
    (ring : t.p ≤ t.n) (away : g ≠ t.p) : t.afterLift = (turning t g, []) := by
  rw [← Tmc.enterTurn_eq target ring]
  obtain ⟨kind, source, level⟩ := op
  cases kind
  case changeTo slot => simp [Tmc.afterLift, Tmc.opKind, service, target, away]
  case moveBy k => simp [Tmc.afterLift, Tmc.opKind, service, target, away]
  case home => exact absurd change Bool.false_ne_true
  case clearGate => exact absurd change Bool.false_ne_true

/-- A change at its target ends its turn there. -/
theorem Tmc.afterLift_there (service : t.op = some op) (change : changesSlide op.kind = true)
    (target : t.target = some t.p) : t.afterLift = t.turnEnd := by
  obtain ⟨kind, source, level⟩ := op
  cases kind
  case changeTo slot => simp [Tmc.afterLift, Tmc.opKind, service, target]
  case moveBy k => simp [Tmc.afterLift, Tmc.opKind, service, target]
  case home => exact absurd change Bool.false_ne_true
  case clearGate => exact absurd change Bool.false_ne_true

theorem Tmc.afterLift_clear (service : t.op = some op) (clear : op.kind = .clearGate) : t.afterLift = t.endNoDrop := by
  simp [Tmc.afterLift, Tmc.opKind, service, clear]

theorem Tmc.afterLift_home (service : t.op = some op) (home : op.kind = .home) : t.afterLift = t.startHoming := by
  simp [Tmc.afterLift, Tmc.opKind, service, home]

end

/-- From an EMPTY gate the operation goes on to its next planned phase, or ends. -/
theorem proceeds_afterLift {s : State} {f : State → State} {lc : Lc} {m : Tmc} {changed : List Part}
    (calm : s.notices = []) (act : f s = ({ s with lc := lc }).putTmc m.afterLift) (lamp : lc = s.lc ∨ Part.lamp ∈ changed) :
    Proceeds { s with lc := lc, tmc := m } changed s (s.run f) := by
  intro op service
  have goes : ∀ {m' : Tmc}, m.afterLift = (m', []) → GoesOnAs m' lc changed [] s (s.run f) := fun e =>
    reaction_goesOn (ns := []) calm (by rw [act, e]) rfl lamp
  have ends : ∀ {m' : Tmc} {e : Event × Half}, m.afterLift =
      ({ m' with op := none, redirect := false }, [.log e.1 e.2, .outcome op .done]) →
      EndsAs op m' lc changed [e] s (s.run f) := fun e =>
    reaction_ends (ns := [.log _ _]) (result := .done) calm (by rw [act, e]; rfl) rfl lamp
  refine ⟨fun change g target inside ring => ⟨fun away => ?_, fun there away => ?_, fun there zero => ?_⟩, fun clear => ?_,
    fun home thome => ?_, fun home thome => ?_⟩
  · exact goes (Tmc.afterLift_turn service change target ring away)
  · refine goes ?_
    rw [Tmc.afterLift_there service change (by rw [target, there]), Tmc.turnEnd_drop]
    rw [target]; simpa using away
  · refine ends ?_
    rw [Tmc.afterLift_there service change (by rw [target, there]), Tmc.turnEnd_zero (by rw [target, zero]) service]
  · refine ends ?_
    rw [Tmc.afterLift_clear service clear, Tmc.endNoDrop_eq service]
  · refine goes ?_
    have dark : m.sensors.thome = false := thome
    rw [Tmc.afterLift_home service home, Tmc.startHoming, if_neg (by simp [dark])]
    rfl
  · refine ends (m' := endedHome m) (e := (.homed, argPair op.source.number 0)) ?_
    have lit : m.sensors.thome = true := thome
    rw [Tmc.afterLift_home service home, Tmc.startHoming, if_pos lit, Tmc.homingFound_home service home]
    rfl

/-! ### DARKEN (R7, R48) -/

/-- A report that was not sent changes nothing; one that was sent is taken by the mechanism. -/
theorem takeReport_sent {s : State} (sent : s.lc.report = true) :
    s.takeReport = ({ s with lc := { s.lc with report := false } }).putTmc s.tmc.takeReport := by
  simp [State.takeReport, sent]

/-- A snap ends a hold that is darkening, and a hold that is held reports again (R48). -/
theorem Lc.takeSnap_holds {lc : Lc} (held : lc.hold ≠ .none) : lc.takeSnap.hold = .held ∧ lc.takeSnap.report = true := by
  unfold Lc.takeSnap
  cases h : lc.hold with
  | none => exact absurd h held
  | darkening => simp [Lc.recompute_hold, Lc.recompute_report]
  | held => simp

/-- The snap stands at the blackout level and below it (R41, R48). -/
theorem Lc.takeSnap_level {lc : Lc} {b : Nat} (level : lc.holdLevel = some b) (dark : lc.hold = .darkening) :
    lc.takeSnap.fade = none ∧ lc.takeSnap.fadeLevel = b ∧ lc.takeSnap.output ≤ b := by
  simp only [Lc.takeSnap, dark, Lc.recompute_fade, Lc.recompute_fadeLevel, Lc.recompute_output, level, Option.getD_some,
    true_and]
  simp only [Lc.computedOutput, Lc.holdCap, if_true, Option.getD_some]
  split
  · omega
  · exact Nat.zero_le b

/-- Settles O2: the report ends DARKEN, and the limit's expiry snaps the lamp. -/
theorem darkenEnds : Obligations.DarkenEnds := by
  intro s calm
  refine ⟨⟨_, rfl, fun unsent => ?_, fun sent => ?_⟩, _, rfl, fun idle => ?_, fun darken due => ?_⟩
  · have act : s.takeReport = s.putTmc (s.tmc, []) := by simp [State.takeReport, unsent, State.putTmc, State.post]
    exact reaction_none calm act
  · have act := takeReport_sent sent
    refine ⟨fun other => ?_, fun darken loaded low => ?_, fun darken loaded high => ?_, fun darken empty => ?_⟩
    · have stays : s.tmc.takeReport = (s.tmc, []) := by simp [Tmc.takeReport, other]
      have goes := reaction_goesOn (f := State.takeReport) (changed := [.lamp]) (ns := []) calm
        (act.trans (by rw [stays])) rfl (.inr (by simp))
      obtain ⟨mechanism, lamp, unchanged, logs⟩ := goes
      refine ⟨lamp, fun p hp => ?_, logs⟩
      by_cases own : p = .mechanism
      · subst own; exact mechanism
      · exact unchanged p (by simp at hp ⊢; exact ⟨own, hp⟩)
    · have lifts : s.tmc.takeReport = ({ s.tmc with state := .lift, lifter := true, darkenLimit := none,
                                                    liftTimer := some 400, lowerTimer := none, dropTimer := none }, []) := by
        simp [Tmc.takeReport, Tmc.endDarken, Tmc.enterLift, darken, loaded, low]
      exact reaction_goesOn (changed := [.lamp]) (ns := []) calm (by rw [act, lifts]) rfl (.inr (by simp))
    · exact proceeds_afterLift calm (by rw [act]; simp [Tmc.takeReport, Tmc.endDarken, Tmc.enterLift, Tmc.liftDone, darken,
        loaded, high]) (.inr (by simp))
    · exact proceeds_afterLift calm (by rw [act]; simp [Tmc.takeReport, Tmc.endDarken, darken, empty]) (.inr (by simp))
  · exact reaction_none calm (by simp only [Tmc.darkenLate, Timer.due, beq_iff_eq, if_neg idle])
  · have late : s.tmc.darkenLate = ({ s.tmc with darkenLimit := none },
        [.log .darkenLate (argPair s.tmc.reportedSource s.tmc.reportedTarget), .snap]) := by
      simp [Tmc.darkenLate, Timer.due, darken, due]
    have ran := reaction_ran (f := fun k => k.putTmc k.tmc.darkenLate) (lc := s.lc) calm (congrArg s.putTmc late)
      (.cons (handled_snap _) (.nil _ _))
    refine ⟨ran.tmc, fun held => ran.lc ▸ Lc.takeSnap_holds held, fun b level dark => ran.lc ▸ Lc.takeSnap_level level dark,
      ran.effect rfl ?_⟩
    intro p hp
    cases p <;> simp [Part.same] at hp ⊢

/-! ### LIFT (R8) -/

/-- Settles O3: LTOP, the first timeout and the end of the lowering. -/
theorem liftPhase : Obligations.LiftPhase := by
  intro s calm
  refine ⟨⟨_, rfl, fun other => ?_, fun lift driven => ?_⟩, ⟨_, rfl, fun idle => ?_, fun lift due first => ?_⟩,
    ⟨_, rfl, fun idle => ?_, fun lift due low => ?_, fun lift due high => ?_⟩⟩
  · exact reaction_quiet (ns := []) calm (by simp only [Tmc.ltopActive, if_neg other]) rfl
  · exact proceeds_afterLift calm (by simp [Tmc.ltopActive, Tmc.liftDone, lift, driven]) (.inl rfl)
  · exact reaction_none calm (by simp only [Tmc.liftExpiry, Timer.due, beq_iff_eq, if_neg idle])
  · exact reaction_quiet (ns := [.log .liftRetry (if s.tmc.homed then halfOf s.tmc.p else 0xFF)]) calm
      (by cases h : s.tmc.homed <;>
            simp [Tmc.liftExpiry, Timer.due, satInc, Tmc.reportedP, halfOf, lift, due, first, h]) rfl
  · exact reaction_none calm (by simp only [Tmc.loweringEnd, Timer.due, beq_iff_eq, if_neg idle])
  · exact reaction_quiet (ns := []) calm (by simp [Tmc.loweringEnd, Tmc.enterLift, Timer.due, lift, due, low]) rfl
  · exact proceeds_afterLift calm (by simp [Tmc.loweringEnd, Tmc.enterLift, Tmc.liftDone, Timer.due, lift, due, high])
      (.inl rfl)

end Sys2Proof.Machine
end

section
/-! ## The arrivals of a turn (01)

What an arrival does, by what THOME shows and by what is recorded: the position on the ring first, then the slip check,
then the recorded operation or the target. -/

namespace Sys2Proof.Machine

open Sys2Proof.Safety

/-! ### What an arrival finds -/

/-- The mechanism after the arrival has been counted to position `q`, with THOME as sampled (R2, R21). -/
def arrivedAt (t : Tmc) (thome : Bool) (q : Nat) : Tmc :=
  { t with sensors := { t.sensors with thome := thome }, p := q, display := bcd q, positionTimer := some 250 }

/-- A pulse with the motor not driven is only sampled (R2). -/
theorem Tmc.arrive_ignored {t : Tmc} {thome : Bool}
    (rest : ¬ (t.state = .turn ∧ (t.motor = .forward ∨ t.motor = .reverse))) :
    t.arrive thome = ({ t with sensors := { t.sensors with thome := thome } }, []) := by
  simp only [Tmc.arrive, if_neg rest]

section

variable {t : Tmc} {op : Operation} {thome : Bool} {p : Nat}

/-- An arrival in a counting turn counts first. -/
theorem Tmc.arrive_counting (turns : Turns t op) (counting : t.homing = false) :
    t.arrive thome = Tmc.arriveCounting { t with sensors := { t.sensors with thome := thome } } := by
  simp only [Tmc.arrive, turns.phase, turns.driven, counting, and_self, if_true, Bool.false_eq_true, if_false]

/-- The count of an arrival in a counting turn. -/
theorem Turns.counted (turns : Turns t op) (counting : t.homing = false) (step : p = ringStep t.motor t.p t.n) :
    ({ (Tmc.count { t with sensors := { t.sensors with thome := thome } }) with positionTimer := some 250 } : Tmc) =
      arrivedAt t thome p := by
  have homed : t.homed = true := by simpa [counting] using turns.homing
  have placed : Placed { t with sensors := { t.sensors with thome := thome } } :=
    ⟨turns.placed.size, turns.placed.present, turns.placed.ring, turns.placed.display⟩
  rw [Tmc.count_homed placed homed, step]
  rfl

/-- THOME away from 0 shows a slip: the position is corrected, and then the recorded operation or the target is acted on
(R16, R17, R23). -/
theorem Tmc.arrive_slipped (turns : Turns t op) (counting : t.homing = false) (step : p = ringStep t.motor t.p t.n)
    (away : p ≠ 0) :
    t.arrive true =
      ((if t.redirect = true then (arrivedAt t true 0).actRedirect
        else if t.target = some 0 then (arrivedAt t true 0).turnEnd
        else ({ arrivedAt t true 0 with motor := turnDirection 0 (t.target.getD 0) t.n }, [])).1,
       .dirty 1 :: .log .positionSlip (halfOf p) ::
        (if t.redirect = true then (arrivedAt t true 0).actRedirect
         else if t.target = some 0 then (arrivedAt t true 0).turnEnd
         else ({ arrivedAt t true 0 with motor := turnDirection 0 (t.target.getD 0) t.n }, [])).2) := by
  rw [Tmc.arrive_counting turns counting, Tmc.arriveCounting, Turns.counted turns counting step]
  dsimp only [arrivedAt]
  exact if_pos ⟨away, rfl⟩

/-- Position 0 without THOME is a slip that loses the position: the turn becomes a homing turn (R17). -/
theorem Tmc.arrive_lost (turns : Turns t op) (counting : t.homing = false) (step : 0 = ringStep t.motor t.p t.n) :
    t.arrive false =
      (seekingHome { arrivedAt t false 0 with homed := false, display := dashes, homing := true },
        [.log .positionSlip 0]) := by
  rw [Tmc.arrive_counting turns counting, Tmc.arriveCounting, Turns.counted turns counting step]
  dsimp only [arrivedAt]
  exact (if_neg fun c => c.1 rfl).trans (if_pos ⟨rfl, Bool.false_ne_true⟩)

/-- Where THOME agrees with the count, the recorded operation is acted on or the target is looked at (R9, R23). -/
theorem Tmc.arrive_agreed (turns : Turns t op) (counting : t.homing = false) (step : p = ringStep t.motor t.p t.n)
    (agrees : thome = true ↔ p = 0) :
    t.arrive thome =
      if t.redirect = true then (arrivedAt t thome p).actRedirect
      else if t.target = some p then (arrivedAt t thome p).turnEnd else (arrivedAt t thome p, []) := by
  rw [Tmc.arrive_counting turns counting, Tmc.arriveCounting, Turns.counted turns counting step]
  dsimp only [arrivedAt]
  exact (if_neg fun c => c.1 (agrees.mp c.2)).trans (if_neg fun c => c.2 (agrees.mpr c.1))

/-- A recorded operation is acted on at the position that the count or THOME shows (R23). -/
theorem Tmc.arrive_redirected (turns : Turns t op) (counting : t.homing = false) (step : p = ringStep t.motor t.p t.n)
    (recorded : t.redirect = true) (found : thome = true ∨ p ≠ 0) :
    t.arrive thome =
      ((arrivedAt t thome (if thome then 0 else p)).actRedirect.1,
        (if thome = true ∧ p ≠ 0 then [.dirty 1, .log .positionSlip (halfOf p)] else []) ++
          (arrivedAt t thome (if thome then 0 else p)).actRedirect.2) := by
  cases thome with
  | false =>
    have away : p ≠ 0 := found.resolve_left Bool.false_ne_true
    rw [Tmc.arrive_agreed turns counting step (iff_of_false Bool.false_ne_true away), if_pos recorded]
    simp
  | true =>
    by_cases zero : p = 0
    · rw [Tmc.arrive_agreed turns counting step (iff_of_true rfl zero), if_pos recorded]
      simp [zero]
    · rw [Tmc.arrive_slipped turns counting step zero, if_pos recorded]
      simp [zero]

end

/-! ### What a recorded operation does (R23) -/

section

variable {t : Tmc} {op : Operation} {g : Nat}

theorem Tmc.actRedirect_change (service : t.op = some op) (change : changesSlide op.kind = true) :
    t.actRedirect = if t.target = some t.p then Tmc.turnEnd { t with redirect := false }
      else ({ t with redirect := false, motor := turnDirection t.p (t.target.getD 0) t.n }, []) := by
  obtain ⟨kind, source, level⟩ := op
  cases kind
  case changeTo slot => simp [Tmc.actRedirect, Tmc.opKind, service]
  case moveBy k => simp [Tmc.actRedirect, Tmc.opKind, service]
  case home => exact absurd change Bool.false_ne_true
  case clearGate => exact absurd change Bool.false_ne_true

theorem Tmc.actRedirect_clear (service : t.op = some op) (clear : op.kind = .clearGate) :
    t.actRedirect = Tmc.endNoDrop { t with redirect := false } := by
  simp [Tmc.actRedirect, Tmc.opKind, service, clear]

theorem Tmc.actRedirect_home (service : t.op = some op) (home : op.kind = .home) :
    t.actRedirect = Tmc.startHoming
      { t with redirect := false, homed := false, display := dashes, homing := true, arrivals := 0 } := by
  have seeks : Tmc.opKind { t with redirect := false } = some .home := by simp [Tmc.opKind, service, home]
  simp only [Tmc.actRedirect, seeks]
  rfl

end

/-! ### What a homing turn finds (R14, R15, R17) -/

section

variable {t : Tmc} {op : Operation}

/-- An arrival in a homing turn. -/
theorem Tmc.arrive_homing (turn : t.state = .turn) (forward : t.motor = .forward) (homing : t.homing = true)
    (thome : Bool) : t.arrive thome =
      Tmc.arriveHoming { t with sensors := { t.sensors with thome := thome } } := by
  simp [Tmc.arrive, turn, forward, homing]

/-- THOME ends the homing turn. -/
theorem Tmc.arrive_found (turn : t.state = .turn) (forward : t.motor = .forward) (homing : t.homing = true) :
    t.arrive true = Tmc.homingFound
      { t with sensors := { t.sensors with thome := true }, arrivals := t.arrivals + 1, positionTimer := some 250 } := by
  rw [Tmc.arrive_homing turn forward homing, Tmc.arriveHoming, if_pos rfl]

/-- A homing turn that has not found THOME goes on within its limit, and jams at it. -/
theorem Tmc.arrive_missed (turn : t.state = .turn) (forward : t.motor = .forward) (homing : t.homing = true) :
    t.arrive false =
      (let m : Tmc := { t with sensors := { t.sensors with thome := false }, arrivals := t.arrivals + 1,
                               positionTimer := some 250 }
       if t.n + 2 ≤ t.arrivals + 1 then m.jam else (m, [])) := by
  rw [Tmc.arrive_homing turn forward homing, Tmc.arriveHoming, if_neg Bool.false_ne_true]

/-- A CLEAR_GATE whose turn had become a homing turn ends once it is home. -/
theorem Tmc.homingFound_clear (service : t.op = some op) (clear : op.kind = .clearGate) :
    t.homingFound = ({ endedWithoutDrop op (foundHome t) with op := none, redirect := false },
      [.log .homed (argPair op.source.number 0), .log (doneEntry op (foundHome t)).1 (doneEntry op (foundHome t)).2,
        .outcome op .done]) := by
  have found : t.homingFound = ((foundHome t).endNoDrop.1,
      .log .homed (argPair op.source.number 0) :: (foundHome t).endNoDrop.2) := by
    simp [Tmc.homingFound, Tmc.opKind, Tmc.reportedSource, foundHome, service, clear]
  rw [found, Tmc.endNoDrop_eq (t := foundHome t) service]

/-- A change to 0 whose turn had become a homing turn ends once it is home. -/
theorem Tmc.homingFound_zero (service : t.op = some op) (change : changesSlide op.kind = true)
    (target : t.target = some 0) :
    t.homingFound = ({ endedWithoutDrop op (foundHome t) with op := none, redirect := false },
      [.log .homed (argPair op.source.number 0), .log (doneEntry op (foundHome t)).1 (doneEntry op (foundHome t)).2,
        .outcome op .done]) := by
  have found : t.homingFound = ((foundHome t).turnEnd.1,
      .log .homed (argPair op.source.number 0) :: (foundHome t).turnEnd.2) := by
    obtain ⟨kind, source, level⟩ := op
    cases kind
    case changeTo slot => simp [Tmc.homingFound, Tmc.opKind, Tmc.reportedSource, foundHome, service, target]
    case moveBy k => simp [Tmc.homingFound, Tmc.opKind, Tmc.reportedSource, foundHome, service, target]
    case home => exact absurd change Bool.false_ne_true
    case clearGate => exact absurd change Bool.false_ne_true
  rw [found, Tmc.turnEnd_zero (t := foundHome t) target service]

end

end Sys2Proof.Machine
end

section
/-! ## The arrival as a command, and what O5 says of it (01) -/

namespace Sys2Proof.Machine

open Sys2Proof.Safety

/-! ### The arrival as a command -/

section

variable {s : State} {thome : Bool} {m : Tmc} {ns : List Notice} {op : Operation}

/-- An arrival with which the turn goes on. -/
theorem arrival_goesOn (calm : s.notices = []) (act : s.tmc.arrive thome = (m, ns)) (quiet : queuedOf ns = []) :
    GoesOnAs m s.lc [] (loggedOf ns) s (s.run fun k => k.putTmc (k.tmc.arrive thome)) :=
  reaction_goesOn calm (congrArg s.putTmc act) quiet (.inl rfl)

/-- An arrival with which nothing but the mechanism changes. -/
theorem arrival_quiet (calm : s.notices = []) (act : s.tmc.arrive thome = (m, ns)) (quiet : queuedOf ns = []) :
    (s.run fun k => k.putTmc (k.tmc.arrive thome)).tmc = m ∧
      Effect [.mechanism] (loggedOf ns) s (s.run fun k => k.putTmc (k.tmc.arrive thome)) :=
  reaction_quiet calm (congrArg s.putTmc act) quiet

/-- An arrival with which the operation ends. -/
theorem arrival_ends (calm : s.notices = [])
    (act : s.tmc.arrive thome = ({ m with op := none, redirect := false }, ns ++ [Notice.outcome op .done]))
    (quiet : queuedOf ns = []) :
    EndsAs op m s.lc [] (loggedOf ns) s (s.run fun k => k.putTmc (k.tmc.arrive thome)) :=
  reaction_ends calm (congrArg s.putTmc act) quiet (.inl rfl)

end

/-- DROP cancels the position timer that an arrival has started (R9). -/
theorem dropping_arrivedAt (t : Tmc) (thome : Bool) (q : Nat) :
    dropping (arrivedAt t thome q) =
      dropping { t with sensors := { t.sensors with thome := thome }, p := q, display := bcd q } := rfl

/-- The end without a DROP of a change: READY with no drive (R12). -/
theorem endedWithoutDrop_change {op : Operation} (change : changesSlide op.kind = true) (m : Tmc) :
    endedWithoutDrop op m =
      { m with state := .ready, motor := .unpowered, positionTimer := none, lifter := false } := by
  have other : op.kind ≠ .clearGate := fun clear => by simp [clear, changesSlide] at change
  simp [endedWithoutDrop, other]

/-- A turn that counts toward its target has a change in service (R9). -/
theorem Turns.changes {t : Tmc} {op : Operation} (turns : Turns t op) (counting : t.homing = false)
    (plain : t.redirect = false) : changesSlide op.kind = true := by
  by_contra other
  have := turns.recorded counting (by simpa using other)
  simp [plain] at this

/-- The operation in service of a mechanism that turns. -/
theorem turns_of {t : Tmc} {op : Operation} (sound : Mechanism t) (turn : t.state = .turn) (service : t.op = some op) :
    Turns t op := by
  obtain ⟨op', turns⟩ := sound.turns turn
  have same : op' = op := Option.some.inj (turns.service.symm.trans service)
  exact same ▸ turns

/-- The entries of a slip that THOME shows (R16). -/
def slipNotices (thome : Bool) (p : Nat) : List Notice :=
  if thome = true ∧ p ≠ 0 then [.dirty 1, .log .positionSlip (halfOf p)] else []

theorem slipNotices_quiet (thome : Bool) (p : Nat) : queuedOf (slipNotices thome p) = [] := by
  unfold slipNotices
  split <;> rfl

theorem slipNotices_logged (thome : Bool) (p : Nat) :
    loggedOf (slipNotices thome p) = if thome = true ∧ p ≠ 0 then [(.positionSlip, halfOf p)] else [] := by
  unfold slipNotices
  split <;> rfl

/-! ### A turn toward its target, with nothing recorded (R9, R16, R17) -/

section

variable {t : Tmc} {op : Operation} {thome : Bool} {p g : Nat}

/-- Away from its target the turn goes on. -/
theorem Tmc.arrive_onward (turns : Turns t op) (counting : t.homing = false) (step : p = ringStep t.motor t.p t.n)
    (plain : t.redirect = false) (target : t.target = some g) (agrees : thome = true ↔ p = 0) (away : p ≠ g) :
    t.arrive thome = (arrivedAt t thome p, []) := by
  rw [Tmc.arrive_agreed turns counting step agrees, if_neg (by simp [plain]), if_neg]
  rw [target]
  exact fun e => away (Option.some.inj e).symm

/-- At its target, which is not 0, the turn ends with DROP. -/
theorem Tmc.arrive_drops (turns : Turns t op) (counting : t.homing = false) (step : p = ringStep t.motor t.p t.n)
    (plain : t.redirect = false) (target : t.target = some p) (away : p ≠ 0) :
    t.arrive false = (dropping (arrivedAt t false p), []) := by
  rw [Tmc.arrive_agreed turns counting step (iff_of_false Bool.false_ne_true away), if_neg (by simp [plain]),
    if_pos target]
  refine Tmc.turnEnd_drop (t := arrivedAt t false p) ?_
  rw [show (arrivedAt t false p).target = some p from target]
  simpa using away

/-- A turn to 0 ends where THOME shows. -/
theorem Tmc.arrive_atZero (turns : Turns t op) (counting : t.homing = false) (step : p = ringStep t.motor t.p t.n)
    (plain : t.redirect = false) (target : t.target = some 0) :
    t.arrive true = ({ endedWithoutDrop op (arrivedAt t true 0) with op := none, redirect := false },
      (slipNotices true p ++ [.log (doneEntry op (arrivedAt t true 0)).1 (doneEntry op (arrivedAt t true 0)).2]) ++
        [.outcome op .done]) := by
  have ends := Tmc.turnEnd_zero (t := arrivedAt t true 0) target turns.service
  by_cases zero : p = 0
  · rw [Tmc.arrive_agreed turns counting step (iff_of_true rfl zero), if_neg (by simp [plain]),
      if_pos (by rw [target, zero]), zero, ends]
    rfl
  · rw [Tmc.arrive_slipped turns counting step zero, if_neg (by simp [plain]), if_pos target, ends]
    simp [slipNotices, zero]

/-- A slip away from the target turns the shorter way from 0. -/
theorem Tmc.arrive_corrected (turns : Turns t op) (counting : t.homing = false) (step : p = ringStep t.motor t.p t.n)
    (plain : t.redirect = false) (target : t.target = some g) (slip : p ≠ 0) (away : g ≠ 0) :
    t.arrive true = ({ arrivedAt t true 0 with motor := shorterWay 0 g t.n },
      [.dirty 1, .log .positionSlip (halfOf p)]) := by
  rw [Tmc.arrive_slipped turns counting step slip, if_neg (by simp [plain]), if_neg (by simpa [target] using away),
    target, Option.getD_some, turnDirection_eq (Nat.zero_le _)]

end

/-! ### A recorded operation (R12, R14, R23) -/

section

variable {s : State} {op : Operation} {thome : Bool} {p q : Nat} {slip : List (Event × Half)}

/-- An arrival at which a recorded operation goes on. -/
theorem recorded_goesOn {m : Tmc} (calm : s.notices = []) (turns : Turns s.tmc op) (counting : s.tmc.homing = false)
    (step : p = ringStep s.tmc.motor s.tmc.p s.tmc.n) (recorded : s.tmc.redirect = true) (found : thome = true ∨ p ≠ 0)
    (here : q = if thome then 0 else p) (entries : slip = if thome = true ∧ p ≠ 0 then [(.positionSlip, halfOf p)] else [])
    (acts : (arrivedAt s.tmc thome q).actRedirect = (m, [])) :
    GoesOnAs m s.lc [] slip s (s.run fun k => k.putTmc (k.tmc.arrive thome)) := by
  rw [entries, ← slipNotices_logged]
  refine arrival_goesOn calm ?_ (slipNotices_quiet thome p)
  rw [Tmc.arrive_redirected turns counting step recorded found, ← here, acts, List.append_nil]
  rfl

/-- An arrival at which a recorded operation ends. -/
theorem recorded_ends {m : Tmc} {e : Event × Half} (calm : s.notices = []) (turns : Turns s.tmc op)
    (counting : s.tmc.homing = false) (step : p = ringStep s.tmc.motor s.tmc.p s.tmc.n) (recorded : s.tmc.redirect = true)
    (found : thome = true ∨ p ≠ 0) (here : q = if thome then 0 else p)
    (entries : slip = if thome = true ∧ p ≠ 0 then [(.positionSlip, halfOf p)] else [])
    (acts : (arrivedAt s.tmc thome q).actRedirect =
      ({ m with op := none, redirect := false }, [.log e.1 e.2, .outcome op .done])) :
    EndsAs op m s.lc [] (slip ++ [e]) s (s.run fun k => k.putTmc (k.tmc.arrive thome)) := by
  have logged : slip ++ [e] = loggedOf (slipNotices thome p ++ [.log e.1 e.2]) := by
    rw [loggedOf_append, slipNotices_logged, entries]
    rfl
  rw [logged]
  refine arrival_ends calm ?_ (by rw [queuedOf_append, slipNotices_quiet]; rfl)
  rw [Tmc.arrive_redirected turns counting step recorded found, ← here, acts, List.append_assoc]
  rfl

end

/-! ### O5 -/

/-- Settles O5, by what THOME shows and by what is recorded. -/
theorem turnArrivals : Obligations.TurnArrivals := by
  refine ⟨fun thome s calm => ⟨_, rfl, fun rest => ?_, ?_, ?_⟩, fun s calm turn forward homing => ⟨fun within => ?_, ?_, ?_⟩⟩
  · exact reaction_quiet (ns := []) calm (congrArg s.putTmc (Tmc.arrive_ignored rest)) rfl
  · intro p step g target turn sound counting plain inside
    obtain ⟨op, turns⟩ := sound.turns turn
    have homed : s.tmc.homed = true := by simpa [counting] using turns.homing
    refine ⟨?_, ?_, ?_, ?_, ?_, ?_⟩
    · rintro rfl away other
      have onward := Tmc.arrive_onward (thome := false) turns counting step plain target
        (iff_of_false Bool.false_ne_true away) other
      exact arrival_quiet calm onward rfl
    · rintro rfl away rfl
      have drops := Tmc.arrive_drops turns counting step plain target away
      rw [dropping_arrivedAt] at drops
      exact arrival_quiet calm drops rfl
    · rintro rfl rfl away
      have onward := Tmc.arrive_onward (thome := true) turns counting step plain target (iff_of_true rfl rfl) away.symm
      exact arrival_quiet calm onward rfl
    · rintro rfl rfl op' service
      obtain rfl : op' = op := Option.some.inj (service.symm.trans turns.service)
      have ends := Tmc.arrive_atZero turns counting step plain target
      have entries : (if p = 0 then [] else [(Event.positionSlip, halfOf p)]) ++
          [(.changeDone, argPair op'.source.number 0)] =
          loggedOf (slipNotices true p ++
            [.log (doneEntry op' (arrivedAt s.tmc true 0)).1 (doneEntry op' (arrivedAt s.tmc true 0)).2]) := by
        by_cases zero : p = 0 <;> simp [slipNotices, doneEntry, arrivedAt, homed, zero]
      rw [entries]
      rw [endedWithoutDrop_change (Turns.changes turns counting plain)] at ends
      exact arrival_ends calm ends (by rw [queuedOf_append, slipNotices_quiet]; rfl)
    · rintro rfl slip away
      have corrected := Tmc.arrive_corrected turns counting step plain target slip away
      exact arrival_quiet calm corrected rfl
    · rintro rfl rfl
      have lost : s.tmc.arrive false = ({ s.tmc with
          sensors := { s.tmc.sensors with thome := false }, p := 0, homed := false, display := 0xFFF, homing := true,
          motor := .forward, positionTimer := some 250, arrivals := 0, redirect := false }, [.log .positionSlip 0]) := by
        rw [Tmc.arrive_lost turns counting step]
        simp [seekingHome, arrivedAt, dashes, turn, turns.lifted]
      exact arrival_quiet calm lost rfl
  · intro p step turn sound counting recorded
    obtain ⟨op, turns⟩ := sound.turns turn
    have homed : s.tmc.homed = true := by simpa [counting] using turns.homing
    refine ⟨?_, ?_⟩
    · rintro rfl rfl
      exact arrival_goesOn calm (Tmc.arrive_lost turns counting step) rfl
    · rintro found q here slip entries m rfl op' service
      obtain rfl : op' = op := Option.some.inj (service.symm.trans turns.service)
      have ring : q ≤ s.tmc.n := by
        rw [here, step]; split
        · exact Nat.zero_le _
        · exact ringStep_le _ _ _
      have goes {m : Tmc} := recorded_goesOn (m := m) calm turns counting step recorded found here entries
      have ends {m : Tmc} {e : Event × Half} :=
        recorded_ends (m := m) (e := e) calm turns counting step recorded found here entries
      refine ⟨fun change g target inside => ?_, fun clear => ?_, fun home dark => goes ?_, fun home lit => ends ?_⟩
      · have acts := Tmc.actRedirect_change (t := arrivedAt s.tmc thome q) service change
        have ends_there (there : g = q) := acts.trans (if_pos (target.trans (congrArg some there)))
        refine ⟨fun away => goes ?_, fun there away => goes ?_, fun there zero => ends ?_⟩
        · refine acts.trans ((if_neg fun e => away (Option.some.inj (target.symm.trans e))).trans ?_)
          simp only [arrivedAt, target, Option.getD_some, turnDirection_eq ring]
        · exact (ends_there there).trans (Tmc.turnEnd_drop fun e => away (Option.some.inj (target.symm.trans e)))
        · exact (ends_there there).trans (Tmc.turnEnd_zero (target.trans (congrArg some zero)) service)
      · have acts := (Tmc.actRedirect_clear (t := arrivedAt s.tmc thome q) service clear).trans (Tmc.endNoDrop_eq service)
        have done : EndsAs op' _ s.lc [] (slip ++ [doneEntry op' _]) s _ := ends acts
        simpa [endedWithoutDrop, doneEntry, arrivedAt, clear, turns.clears clear, turns.lifted, homed] using done
      · have acts := Tmc.actRedirect_home (t := arrivedAt s.tmc thome q) service home
        rw [acts, Tmc.startHoming, if_neg (by simp [arrivedAt, dark])]
        rfl
      · have acts := Tmc.actRedirect_home (t := arrivedAt s.tmc thome q) service home
        rw [acts, Tmc.startHoming, if_pos (by simp [arrivedAt, lit])]
        exact Tmc.homingFound_home service home
  · have missed := Tmc.arrive_missed turn forward homing
    rw [if_neg (by omega)] at missed
    exact ⟨_, rfl, arrival_quiet calm missed rfl⟩
  · intro op service alone home
    have found := (Tmc.arrive_found turn forward homing).trans (Tmc.homingFound_home service home)
    obtain ⟨mechanism, _, arbiter, effect⟩ := arrival_ends (ns := [.log .homed _]) calm found rfl alone
    refine ⟨_, rfl, ?_⟩
    rw [mechanism]
    exact ⟨rfl, rfl, rfl, rfl, rfl, rfl, rfl, rfl, rfl, arbiter, effect⟩
  · rintro op service other sound m rfl
    refine ⟨_, rfl, fun change g target inside => ⟨fun away => ?_, ?_⟩, fun clear => ?_⟩
    · exact arrival_goesOn calm
        ((Tmc.arrive_found turn forward homing).trans (Tmc.homingFound_turn service change target away)) rfl
    · rintro rfl
      exact arrival_ends (ns := [.log _ _, .log _ _]) calm
        ((Tmc.arrive_found turn forward homing).trans (Tmc.homingFound_zero service change target)) rfl
    · exact arrival_ends (ns := [.log _ _, .log _ _]) calm
        ((Tmc.arrive_found turn forward homing).trans (Tmc.homingFound_clear service clear)) rfl

end Sys2Proof.Machine
end

section
/-! ## What carrying out a notice can lead to

The blocks make notices of each other. All but the Cutoff Unit make only routine ones: none raises a cause, imposes or
lifts anything. The Cutoff Unit imposes at an arrival, but two kinds come from the mechanism's own commands and the clear
alone: the clear told to the mechanism, and the value of TRAY_LOST. So a cascade that begins without them stays without
them. -/

namespace Sys2Proof.Machine

open Sys2Proof.Safety

/-- A notice that no block makes when it takes another: the clear told to the mechanism (R86), and TRAY_LOST (R72). -/
def Notice.fromCommand : Notice → Bool
  | .trayClear => true
  | .levelCause .trayLost _ => true
  | _ => false

/-- None of these notices comes from a command alone. -/
def Internal (ns : List Notice) : Prop := ∀ n ∈ ns, n.fromCommand = false

@[simp] theorem internal_nil : Internal [] := nofun

@[simp] theorem internal_cons (n : Notice) (ns : List Notice) :
    Internal (n :: ns) ↔ n.fromCommand = false ∧ Internal ns := List.forall_mem_cons

@[simp] theorem internal_append (a b : List Notice) : Internal (a ++ b) ↔ Internal a ∧ Internal b :=
  List.forall_mem_append

theorem Internal.queued {ns : List Notice} (h : Internal ns) : Internal (queuedOf ns) :=
  fun n hn => h n (List.mem_of_mem_filter hn)

/-- A notice that raises a cause (R72). -/
def Notice.raises : Notice → Bool
  | .levelCause _ _ | .edgeCause _ => true
  | _ => false

/-- A notice that neither raises a cause nor imposes or lifts anything (R77 to R81). -/
def Notice.routine : Notice → Bool
  | .levelCause _ _ | .edgeCause _ | .lampImposition _ | .fanImposition _ | .tapeImposition _ | .audioImposition _
  | .trayCutoff _ | .trayClear | .arbiterCutoff _ | .showCutoff | .snap => false
  | _ => true

/-- All these notices are routine. -/
def Routine (ns : List Notice) : Prop := ∀ n ∈ ns, n.routine = true

@[simp] theorem routine_nil : Routine [] := nofun

@[simp] theorem routine_cons (n : Notice) (ns : List Notice) : Routine (n :: ns) ↔ n.routine = true ∧ Routine ns :=
  List.forall_mem_cons

@[simp] theorem routine_append (a b : List Notice) : Routine (a ++ b) ↔ Routine a ∧ Routine b := List.forall_mem_append

theorem Routine.queued {ns : List Notice} (h : Routine ns) : Routine (queuedOf ns) :=
  fun n hn => h n (List.mem_of_mem_filter hn)

theorem Routine.andThen {α : Type} {r : Reaction α} {f : α → Reaction α} (first : Routine r.2)
    (second : ∀ a, Routine (f a).2) : Routine (r.andThen f).2 :=
  (routine_append _ _).mpr ⟨first, second _⟩

theorem Notice.internal_of_routine {n : Notice} (h : n.routine = true) : n.fromCommand = false := by
  cases n <;> first | rfl | cases h

theorem Routine.internal {ns : List Notice} (h : Routine ns) : Internal ns :=
  fun n hn => Notice.internal_of_routine (h n hn)

theorem Notice.raises_of_routine {n : Notice} (h : n.routine = true) : n.raises = false := by
  cases n <;> first | rfl | cases h

/-! ### The engine's notices -/

theorem Ce.predict_routine (ce : Ce) : Routine ce.predict.2 := by
  unfold Ce.predict
  (repeat' split) <;> simp [Notice.routine]

theorem Ce.halt_routine (ce : Ce) (reason : HaltReason) : Routine (ce.halt reason).2 := by
  unfold Ce.halt
  (repeat' split) <;> simp [Notice.routine]

theorem Ce.judge_routine (ce : Ce) (r : List Byte) : Routine (ce.judge r).2 := by
  unfold Ce.judge
  split
  · exact ce.halt_routine _
  · split <;> simp [Ce.finish, Notice.routine]

theorem Ce.becomeCurrent_routine (ce : Ce) : Routine ce.becomeCurrent.2 := by
  unfold Ce.becomeCurrent
  split
  · split
    · exact ce.judge_routine _
    · simp
  · simp

theorem Ce.advance_routine (ce : Ce) (i : Nat) (tag : BranchTag) : Routine (ce.advance i tag).2 := by
  refine Routine.andThen (by simp [Notice.routine]) fun ce => ?_
  have placed (c : Ce) : Routine (c.place i tag).2 := by simp [Ce.place, Notice.routine]
  split
  · split
    · exact Routine.andThen (Ce.becomeCurrent_routine _) Ce.predict_routine
    · exact Routine.andThen (by simp [Notice.routine]) placed
  · exact placed _

theorem Ce.choose_routine (ce : Ce) : Routine ce.choose.2.2 := by
  unfold Ce.choose
  by_cases await : recIsAwait ce.fired = true
  · simp [await]
  · by_cases repeats : recRepeats ce.fired = true
    · simp only [await, repeats, Bool.false_eq_true, if_false, if_true]
      split <;> simp [Notice.routine]
    · simp [await, repeats]

theorem Ce.successor_routine (ce : Ce) : Routine ce.successor.2 := by
  refine Routine.andThen ce.choose_routine fun c => ?_
  split
  · exact Ce.halt_routine _ _
  · exact Ce.advance_routine _ _ _

theorem Ce.issueNow_routine (ce : Ce) : Routine ce.issueNow.2 := by
  refine Routine.andThen (Routine.andThen ?_ fun c => ?_) fun c => ?_
  · simp only [routine_append, slideNotices, lampNotices, extraNotices]
    refine ⟨⟨?_, ?_⟩, ?_⟩ <;> split <;> simp [Notice.routine]
  · unfold Ce.noteLate
    dsimp only
    split <;> simp [Notice.routine]
  · split
    · exact Ce.successor_routine _
    · simp

theorem Ce.issue_routine (ce : Ce) (free : Bool) : Routine (ce.issue free).2 := by
  unfold Ce.issue
  split
  · simp
  · exact ce.issueNow_routine

theorem Ce.resolve_routine (ce : Ce) (r : List Byte) (timedOut free : Bool) :
    Routine (ce.resolve r timedOut free).2 := by
  refine Routine.andThen ?_ fun c => c.issue_routine free
  dsimp only
  split <;> simp [Notice.routine]

theorem Ce.fireInstantReached_routine (ce : Ce) (outTime : Nat) (free : Bool) :
    Routine (ce.fireInstantReached outTime free).2 := by
  unfold Ce.fireInstantReached
  split
  · split
    · exact Ce.issue_routine _ _
    · simp
  · simp

theorem Ce.timelineReached_routine (ce : Ce) : Routine ce.timelineReached.2 := by
  unfold Ce.timelineReached
  split
  · exact ce.successor_routine
  · simp

theorem Ce.timeoutReached_routine (ce : Ce) (free : Bool) : Routine (ce.timeoutReached free).2 := by
  unfold Ce.timeoutReached
  split
  · split
    · exact Ce.resolve_routine _ _ _ _
    · simp
  · simp

theorem Ce.offer_routine (ce : Ce) (free : Bool) : Routine (ce.offer free).2 := by
  unfold Ce.offer
  split
  · exact ce.issue_routine free
  · simp

theorem Ce.takeOutcome_routine (ce : Ce) (result : OpOutcome) : Routine (ce.takeOutcome result).2 := by
  unfold Ce.takeOutcome
  dsimp only
  split
  · exact Ce.halt_routine _ _
  · simp

theorem Ce.slotEmptied_routine (ce : Ce) (free : Bool) : Routine (ce.slotEmptied free).2 := by
  unfold Ce.slotEmptied
  split <;> exact Ce.offer_routine _ _

theorem lookFifo_routine (cls : Nat) (fifo : List CueEntry) : Routine (lookFifo cls fifo).2.1 := by
  induction fifo with
  | nil => simp [lookFifo]
  | cons e rest ih =>
    unfold lookFifo
    split
    · simp
    · exact (routine_cons _ _).mpr ⟨rfl, ih⟩

/-! ### The notices of the channels, the deck, the cutoff, the lamp and the fan -/

theorem Rcu.choose_routine (u : Rcu) : Routine u.choose.2 := by
  unfold Rcu.choose
  (repeat' split) <;> simp [Notice.routine]

theorem Rcu.trigger_routine (u : Rcu) (c : BitVec 2) : Routine (u.trigger c).1.2 := by
  unfold Rcu.trigger
  dsimp only
  split
  · simp
  · split
    · simp
    · exact Rcu.choose_routine _

theorem Rcu.settleMarker_routine (u : Rcu) (m : Option RunMarker) (result : OpOutcome) (n : Nat) :
    Routine (u.settleMarker m result n).2 := by
  unfold Rcu.settleMarker Rcu.apply Rcu.complete
  dsimp only
  (repeat' split) <;> simp [Notice.routine]

theorem Rcu.takeOutcome_routine (u : Rcu) (result : OpOutcome) (n : Nat) : Routine (u.takeOutcome result n).2 := by
  unfold Rcu.takeOutcome
  split
  · exact Rcu.settleMarker_routine _ _ _ _
  · exact (routine_append _ _).mpr ⟨Rcu.settleMarker_routine _ _ _ _, Rcu.choose_routine _⟩

theorem Rcu.slotEmptied_routine (u : Rcu) : Routine u.slotEmptied.2 := by
  unfold Rcu.slotEmptied
  split <;> exact Rcu.choose_routine _

theorem Ttc.brake_routine (t : Ttc) (latched : Option TapeRequest) : Routine (t.brake latched).2 := by
  unfold Ttc.brake Ttc.leaveRecording
  dsimp only
  (repeat' split) <;> simp [Notice.routine]

theorem Ttc.stop_routine (t : Ttc) : Routine t.stop.2 := by
  unfold Ttc.stop
  split
  · simp
  · simp
  · exact t.brake_routine _

theorem Ttc.request_play_routine (t : Ttc) : Routine (t.request .play).1.2 := by
  have redirected : Routine (t.redirect .play).2 := by
    unfold Ttc.redirect
    split
    · simp
    · cases t.state <;> exact t.brake_routine _
  unfold Ttc.request
  split
  · simp
  · split
    · simp [Ttc.start]
    · simp
    · exact redirected

theorem Ttc.imposeTape_routine (t : Ttc) (stop : Bool) : Routine (t.imposeTape stop).2 := by
  unfold Ttc.imposeTape
  split
  · exact Ttc.stop_routine _
  · simp

theorem Cu.handLamp_internal (cu : Cu) : Internal cu.handLamp.2 := by
  unfold Cu.handLamp
  dsimp only
  split <;> simp [Notice.fromCommand]

theorem Cu.entryNotices_internal (cu : Cu) : Internal cu.entryNotices := by
  simp only [Cu.entryNotices, internal_append]
  refine ⟨⟨⟨⟨?_, ?_⟩, ?_⟩, ?_⟩, by simp [Notice.fromCommand]⟩ <;> split <;> simp [Notice.fromCommand]

theorem Cu.arrive_internal (cu : Cu) (c : Cause) : Internal (cu.arrive c).2 := by
  unfold Cu.arrive Cu.take
  dsimp only
  (repeat' split) <;> simp [Cu.handLamp_internal, Cu.entryNotices_internal, Notice.fromCommand]

theorem Cu.report_internal (cu : Cu) (c : Cause) (v : Bool) : Internal (cu.report c v).2 := by
  unfold Cu.report
  split
  · exact Cu.arrive_internal _ _
  · simp

theorem Fc.compute_routine (fc : Fc) (h ds : Nat) (active : Bool) : Routine (fc.compute h ds active).2 := by
  unfold Fc.compute
  dsimp only
  (repeat' split) <;> simp [Notice.routine]

theorem fanNotices_routine (before after : Lc) : Routine (Lc.fanNotices before after) := by
  unfold Lc.fanNotices
  split <;> simp [Notice.routine]

theorem Lc.impose_routine (lc : Lc) (new : LampImposition) (blackout inTime : Nat) :
    Routine (lc.impose new blackout inTime).2 := by
  unfold Lc.impose Lc.enterOff
  dsimp only
  (repeat' split) <;> simp [Notice.routine]

/-! ### The notices of the mechanism and of the arbiter -/

theorem Tmc.conclude_routine (t : Tmc) (result : OpOutcome) {events : List Notice} (h : Routine events) :
    Routine (t.conclude result events).2 := by
  unfold Tmc.conclude
  split
  · exact h
  · simpa [Notice.routine] using h

theorem Tmc.begin_routine (t : Tmc) (op : Operation) : Routine (t.begin op).2 := by
  unfold Tmc.begin Tmc.shortPath Tmc.enterDarken
  dsimp only
  split
  · simp [Notice.routine]
  · simp [Notice.routine]
  · split
    · exact Tmc.conclude_routine _ _ (by simp [Notice.routine])
    · simp [Notice.routine]

theorem Tmc.preempt_routine (t : Tmc) (op : Operation) : Routine (t.preempt op).2 := by
  unfold Tmc.preempt Tmc.preemptDarken Tmc.preemptTurn Tmc.shortPath
  dsimp only
  split
  · split
    · simp
    · simp
    · split
      · exact (routine_cons _ _).mpr ⟨rfl, Tmc.conclude_routine _ _ (by simp [Notice.routine])⟩
      · simp
  · simp

theorem Tmc.cutoff_routine (t : Tmc) (sel : TraySelection) : Routine (t.cutoff sel).2 := by
  unfold Tmc.cutoff Tmc.abort
  dsimp only
  (repeat' split) <;> simp [Notice.routine, Tmc.conclude_routine]

theorem slotEmptyNotice_routine (source : Source) : Routine (slotEmptyNotice source) := by
  unfold slotEmptyNotice
  split <;> simp [Notice.routine]

theorem deliverNotice_routine (source : Source) (result : OpOutcome) : Routine (deliverNotice source result) := by
  unfold deliverNotice
  split <;> simp [Notice.routine]

theorem Ca.cutoff_routine (ca : Ca) (sel : TraySelection) : Routine (ca.cutoff sel).2 := by
  unfold Ca.cutoff
  split
  · simp
  · simp only [routine_append]
    refine ⟨⟨?_, by simp [discardedLog, Notice.routine]⟩, ?_⟩ <;> intro n hn <;>
      obtain ⟨source, _, hn⟩ := List.mem_flatMap.mp hn
    · exact deliverNotice_routine _ _ n hn
    · exact slotEmptyNotice_routine _ n hn

theorem Ca.withdraw_routine (ca : Ca) : Routine ca.withdraw.2 := by
  unfold Ca.withdraw
  split <;> simp [discardedLog, Notice.routine]

/-! ### A cascade -/

/-- Beside the notices and the entries of `s` stand only routine notices and further entries in `t`. -/
def Makes (s t : State) : Prop :=
  (∃ made, t.notices = s.notices ++ made ∧ Routine made) ∧ ∃ later, t.rw.buffer = s.rw.buffer ++ later

theorem Makes.refl (s : State) : Makes s s := ⟨⟨[], by simp, routine_nil⟩, [], by simp⟩

theorem Makes.of_eq {s t : State} (h : t.notices = s.notices) (rw : t.rw = s.rw) : Makes s t :=
  ⟨⟨[], by simp [h], routine_nil⟩, [], by simp [rw]⟩

theorem Makes.trans {s t u : State} (first : Makes s t) (second : Makes t u) : Makes s u := by
  obtain ⟨⟨a, ha, ia⟩, c, hc⟩ := first
  obtain ⟨⟨b, hb, ib⟩, d, hd⟩ := second
  exact ⟨⟨a ++ b, by rw [hb, ha, List.append_assoc], (routine_append _ _).mpr ⟨ia, ib⟩⟩,
    c ++ d, by rw [hd, hc, List.append_assoc]⟩

/-- Entries handed over stand behind those that wait (R213). -/
theorem post_buffer (s : State) (ns : List Notice) : ∃ later, (s.post ns).rw.buffer = s.rw.buffer ++ later := by
  induction ns generalizing s with
  | nil => exact ⟨[], by simp⟩
  | cons n ns ih =>
    have first : ∃ later, (s.post1 n).rw.buffer = s.rw.buffer ++ later := by
      cases n with
      | log e arg =>
        simp only [State.post1, Rw.handOver]
        split
        · exact ⟨_, rfl⟩
        · exact ⟨[], by simp⟩
      | _ => exact ⟨[], by simp [State.post1, Rw.markDirty]⟩
    obtain ⟨a, ha⟩ := first
    obtain ⟨b, hb⟩ := ih (s.post1 n)
    exact ⟨a ++ b, by rw [State.post_cons, hb, ha, List.append_assoc]⟩

theorem post_makes (s : State) {ns : List Notice} (h : Routine ns) : Makes s (s.post ns) :=
  ⟨⟨queuedOf ns, State.post_notices s ns, h.queued⟩, post_buffer s ns⟩

section

variable (s : State)

theorem putTmc_makes {r : Reaction Tmc} (h : Routine r.2) : Makes s (s.putTmc r) :=
  post_makes { s with tmc := r.1 } h

theorem putLc_makes {r : Reaction Lc} (h : Routine r.2) : Makes s (s.putLc r) :=
  post_makes { s with lc := r.1 } ((routine_append _ _).mpr ⟨h, fanNotices_routine _ _⟩)

theorem putFc_makes {r : Reaction Fc} (h : Routine r.2) : Makes s (s.putFc r) :=
  post_makes { s with fc := r.1 } h

theorem putTtc_makes {r : Reaction Ttc} (h : Routine r.2) : Makes s (s.putTtc r) :=
  post_makes { s with ttc := r.1 } h

theorem putCa_makes {r : Reaction Ca} (h : Routine r.2) : Makes s (s.putCa r) :=
  post_makes { s with ca := r.1 } h

theorem putRcu_makes {r : Reaction Rcu} (h : Routine r.2) : Makes s (s.putRcu r) :=
  post_makes { s with rcu := r.1 } h

theorem putCe_makes {r : Reaction Ce} (h : Routine r.2) : Makes s (s.putCe r) :=
  post_makes { s with ce := r.1 } h

theorem selectLoop_makes (fuel : Nat) : Makes s (s.selectLoop fuel) := by
  induction fuel generalizing s with
  | zero => exact .refl s
  | succ fuel ih =>
    unfold State.selectLoop
    split
    · exact .refl s
    · split
      · refine Makes.trans (putCa_makes s ?_) (ih _)
        simp [deliverNotice_routine, slotEmptyNotice_routine, discardedLog, Notice.routine]
      · refine Makes.trans (putCa_makes s ?_) (putTmc_makes _ (Tmc.begin_routine _ _))
        simp [slotEmptyNotice_routine, Notice.routine]

theorem select_makes : Makes s s.select := by
  unfold State.select
  split
  · exact selectLoop_makes s 5
  · exact .refl s

theorem preemptWith_makes (source : Source) (r : Request) : Makes s (s.preemptWith source r) := by
  unfold State.preemptWith
  split
  · exact .refl s
  · refine Makes.trans (putCa_makes s ?_) (putTmc_makes _ (Tmc.preempt_routine _ _))
    simp [deliverNotice_routine, slotEmptyNotice_routine, Notice.routine]

theorem afterDeposit_makes (source : Source) : Makes s (s.afterDeposit source) := by
  unfold State.afterDeposit
  split
  · exact select_makes s
  · split
    · split
      · exact preemptWith_makes s _ _
      · exact .refl s
    · exact .refl s

theorem deposit_makes (source : Source) (kind : OpKind) : Makes s (s.deposit source kind) := by
  unfold State.deposit
  split
  · next ca _ =>
    refine (putCa_makes s (r := (ca, if (s.ca.slot source).isNone then [.dirty 6] else [])) ?_).trans ?_
    · dsimp only
      split <;> simp [Notice.routine]
    · exact afterDeposit_makes _ source
  · exact .refl s

theorem lookTape_makes : Makes s s.lookTape := by
  unfold State.lookTape
  split
  · exact .refl s
  · have looked := (putTtc_makes s (r := ({ s.ttc with fifo := (lookFifo (recWaitArg ‹_›) s.ttc.fifo).1 }, []))
      routine_nil).trans (post_makes _ (lookFifo_routine (recWaitArg ‹_›) s.ttc.fifo))
    dsimp only
    split
    · exact looked.trans (putCe_makes _ (Ce.resolve_routine _ _ _ _))
    · exact looked

theorem consumeRun_makes : Makes s s.consumeRun := by
  unfold State.consumeRun
  split
  · exact .refl s
  · split
    · exact (putRcu_makes s routine_nil).trans (putCe_makes _ (Ce.resolve_routine _ _ _ _))
    · exact .refl s

theorem progress_makes : Makes s s.progress := by
  unfold State.progress
  split
  · split
    · exact putCe_makes s (Ce.fireInstantReached_routine _ _ _)
    · split
      · exact putCe_makes s (Ce.timeoutReached_routine _ _)
      · split
        · exact lookTape_makes s
        · split
          · exact consumeRun_makes s
          · exact .refl s
  · split
    · exact putCe_makes s (Ce.offer_routine _ _)
    · exact putCe_makes s (Ce.timelineReached_routine _)

/-- Taking a notice that raises no cause makes routine notices alone. -/
theorem handle_makes {n : Notice} (quiet : n.raises = false) : Makes s (State.handle n s) := by
  cases n with
  | log e arg => exact post_makes s (by simp [Notice.routine])
  | dirty line => exact post_makes s (by simp [Notice.routine])
  | deposit source kind => exact deposit_makes s source kind
  | select => exact select_makes s
  | outcome op result =>
    simp only [State.handle, State.takeOutcome]
    split
    · exact putCa_makes s (by simp [deliverNotice_routine, Notice.routine])
    · exact .refl s
  | arbiterCutoff sel => exact putCa_makes s (Ca.cutoff_routine _ _)
  | withdraw => exact putCa_makes s (Ca.withdraw_routine _)
  | deliver source result =>
    cases source with
    | cue => exact putCe_makes s (Ce.takeOutcome_routine _ _)
    | run => exact putRcu_makes s (Rcu.takeOutcome_routine _ _ _)
    | _ => exact .refl s
  | slotEmpty source =>
    cases source with
    | cue => exact putCe_makes s (Ce.slotEmptied_routine _ _)
    | run => exact putRcu_makes s (Rcu.slotEmptied_routine _)
    | _ => exact .refl s
  | darken outTime level => exact putLc_makes s routine_nil
  | snap => exact putLc_makes s routine_nil
  | release inTime => exact putLc_makes s routine_nil
  | lampImposition i => exact putLc_makes s (Lc.impose_routine _ _ _ _)
  | lampAction now level curve duration => exact putLc_makes s routine_nil
  | fanCompute h ds active => exact putFc_makes s (Fc.compute_routine _ _ _ _)
  | fanImposition full => exact putFc_makes s (Fc.compute_routine _ _ _ _)
  | levelCause c present => cases quiet
  | edgeCause c => cases quiet
  | trayCutoff sel => exact putTmc_makes s (Tmc.cutoff_routine _ _)
  | trayClear => exact putTmc_makes s (by rw [Tmc.clear_eq]; exact routine_nil)
  | tapeImposition stop => exact putTtc_makes s (Ttc.imposeTape_routine _ _)
  | audioImposition mute => exact putTtc_makes s routine_nil
  | tapePlay => exact putTtc_makes s (Ttc.request_play_routine _)
  | tapeStop => exact putTtc_makes s (Ttc.stop_routine _)
  | audioAction level => exact putTtc_makes s routine_nil
  | writeCue cls => exact putTtc_makes s routine_nil
  | runTrigger c => exact putRcu_makes s (Rcu.trigger_routine _ _)
  | terminalCount c =>
    simp only [State.handle, State.terminalCount]
    split
    · split
      · exact consumeRun_makes s
      · exact .refl s
    · exact .refl s
  | fifoJoined => exact lookTape_makes s
  | progress => exact progress_makes s
  | refire => exact putCe_makes s (Ce.fireInstantReached_routine _ _ _)
  | showCutoff => exact putCe_makes s (Ce.halt_routine _ _)
  | askRead offset => exact .of_eq rfl rfl
  | dropRead => exact .of_eq rfl rfl

/-- Taking a notice makes notices of the blocks alone. -/
theorem handle_internal (n : Notice) : ∃ made, (State.handle n s).notices = s.notices ++ made ∧ Internal made := by
  have quiet (h : n.raises = false) : ∃ made, (State.handle n s).notices = s.notices ++ made ∧ Internal made := by
    obtain ⟨⟨made, notices, routine⟩, _⟩ := handle_makes s h
    exact ⟨made, notices, routine.internal⟩
  cases n with
  | levelCause c present => exact ⟨_, State.putCu_notices s _, (Cu.report_internal _ _ _).queued⟩
  | edgeCause c => exact ⟨_, State.putCu_notices s _, (Cu.arrive_internal _ _).queued⟩
  | _ => exact quiet rfl

end

end Sys2Proof.Machine
end

section
/-! ## A mechanism out of service in a cascade: jams and tray losses (01)

A jam and an unclean loss raise a cause, and what the cutoff then leads to is of no matter here: a mechanism that is JAMMED
or without a tray stays so, and a cause once in the set stays there, whatever notices the blocks make of each other. -/

namespace Sys2Proof.Machine

open Sys2Proof.Safety

/-! ### A drain keeps what every notice of its kind keeps -/

/-- `P` reads neither the notices nor the records of the status lines. -/
def Inert (P : State → Prop) : Prop :=
  ∀ s notices lines, P s → P { s with rw := { s.rw with lines := lines }, notices := notices }

/-- The notice takes `P` to `Q`, and the notices it makes are of the kind `C`. -/
def Brings (C : Notice → Prop) (P Q : State → Prop) (n : Notice) : Prop :=
  ∀ s, P s → Q (State.handle n s) ∧ ∃ made, (State.handle n s).notices = s.notices ++ made ∧ ∀ m ∈ made, C m

section

variable {P Q : State → Prop} {C : Notice → Prop}

theorem Inert.pop (inert : Inert P) {s : State} (notices : List Notice) (h : P s) : P { s with notices := notices } :=
  inert s notices s.rw.lines h

theorem Inert.act (inert : Inert P) {s : State} {f : State → State} (h : P (f s)) : P (s.act f) := by
  obtain ⟨lines, e⟩ := s.act_eq f
  rw [e]
  exact inert (f s) (f s).notices lines h

/-- What every notice of a kind keeps, a drain of such notices keeps. -/
theorem drain_keeps (inert : Inert P) (keeps : ∀ n, C n → Brings C P P n) (fuel : Nat) {s : State}
    (kind : ∀ n ∈ s.notices, C n) (h : P s) : P (State.drain fuel s) := by
  induction fuel generalizing s with
  | zero => exact inert.pop [] h
  | succ fuel ih =>
    cases queue : s.notices with
    | nil => rw [State.drain_nil s _ queue]; exact h
    | cons n rest =>
      rw [State.drain_cons s _ n rest queue]
      rw [queue, List.forall_mem_cons] at kind
      obtain ⟨kept, made, notices, made_kind⟩ := keeps n kind.1 _ (inert.pop rest h)
      refine ih ?_ (inert.act kept)
      rw [State.act_notices, notices]
      exact List.forall_mem_append.mpr ⟨kind.2, made_kind⟩

/-- A notice that brings about `Q` from `P` is reached: those before it keep `P`, and those after it `Q`. -/
theorem drain_brings (inertP : Inert P) (inertQ : Inert Q) {n : Notice} (here : Brings C P Q n)
    (after : ∀ m, C m → Brings C Q Q m) (first rest : List Notice) (before : ∀ m ∈ first, Brings C P P m)
    (kind : ∀ m ∈ rest, C m) (fuel : Nat) (enough : first.length < fuel) {s : State}
    (queue : s.notices = first ++ n :: rest) (h : P s) : Q (State.drain fuel s) := by
  induction first generalizing fuel s rest with
  | nil =>
    obtain ⟨fuel, rfl⟩ : ∃ k, fuel = k + 1 := ⟨fuel - 1, by simp at enough; omega⟩
    rw [State.drain_cons s _ n rest queue]
    obtain ⟨reached, made, notices, made_kind⟩ := here _ (inertP.pop rest h)
    refine drain_keeps inertQ after fuel ?_ (inertQ.act reached)
    rw [State.act_notices, notices]
    exact List.forall_mem_append.mpr ⟨kind, made_kind⟩
  | cons m first ih =>
    obtain ⟨fuel, rfl⟩ : ∃ k, fuel = k + 1 := ⟨fuel - 1, by simp at enough; omega⟩
    rw [State.drain_cons s _ m (first ++ n :: rest) queue]
    rw [List.forall_mem_cons] at before
    obtain ⟨kept, made, notices, made_kind⟩ := before.1 _ (inertP.pop (first ++ n :: rest) h)
    refine ih (rest ++ made) before.2 (List.forall_mem_append.mpr ⟨kind, made_kind⟩) fuel (by simpa using enough) ?_
      (inertP.act kept)
    rw [State.act_notices, notices]
    simp

end

section

variable {P Q : Tmc → Cu → Prop}

/-- What every notice of the blocks keeps of mechanism and cutoff, a drain of such notices keeps. -/
theorem drain_stays (keeps : ∀ n k, n.fromCommand = false → Q k.tmc k.cu → Q (State.handle n k).tmc (State.handle n k).cu)
    (fuel : Nat) {s : State} (inner : Internal s.notices) (h : Q s.tmc s.cu) :
    Q (State.drain fuel s).tmc (State.drain fuel s).cu :=
  drain_keeps (P := fun k => Q k.tmc k.cu) (C := fun n => n.fromCommand = false) (fun _ _ _ h => h)
    (fun n inner k h => ⟨keeps n k inner h, handle_internal k n⟩) fuel inner h

/-- A notice that brings about `Q` from `P` is reached: those before it keep `P`, and those after it `Q`. -/
theorem drain_reaches {n : Notice}
    (here : ∀ k, P k.tmc k.cu → Q (State.handle n k).tmc (State.handle n k).cu)
    (after : ∀ m k, m.fromCommand = false → Q k.tmc k.cu → Q (State.handle m k).tmc (State.handle m k).cu)
    (first rest : List Notice)
    (before : ∀ m ∈ first, ∀ k, m.fromCommand = false → P k.tmc k.cu → P (State.handle m k).tmc (State.handle m k).cu)
    (inner : Internal first) (outer : Internal rest) (fuel : Nat) (enough : first.length < fuel)
    {s : State} (queue : s.notices = first ++ n :: rest) (h : P s.tmc s.cu) :
    Q (State.drain fuel s).tmc (State.drain fuel s).cu :=
  drain_brings (P := fun k => P k.tmc k.cu) (Q := fun k => Q k.tmc k.cu) (C := fun n => n.fromCommand = false)
    (fun _ _ _ h => h) (fun _ _ _ h => h) (fun k h => ⟨here k h, handle_internal k n⟩)
    (fun m inner k h => ⟨after m k inner h, handle_internal k m⟩) first rest
    (fun m hm k h => ⟨before m hm k (inner m hm) h, handle_internal k m⟩) outer fuel enough queue h

end

/-! ### The mechanism out of service -/

/-- The mechanism is JAMMED or without a tray, with no operation in service. -/
structure OutOfService (t : Tmc) : Prop where
  state : t.state = .jammed ∨ t.state = .noTray
  op : t.op = none

/-- A mechanism without a tray refuses every request, and a JAMMED one is not asked (R135, R137). -/
theorem select_outOfService {s : State} (out : OutOfService s.tmc) : s.select.tmc = s.tmc := by
  have refuses (fuel : Nat) {k : State} (bare : k.tmc.state = .noTray) : (k.selectLoop fuel).tmc = k.tmc := by
    induction fuel generalizing k with
    | zero => rfl
    | succ fuel ih =>
      unfold State.selectLoop
      split
      · rfl
      · next source r _ =>
        have refused : k.tmc.refusal? r.kind = some .refusedNoTray := by simp [Tmc.refusal?, bare]
        rw [refused]
        exact (ih (k := k.refuse source .refusedNoTray) (by simpa [State.refuse] using bare)).trans (by simp [State.refuse])
  unfold State.select
  rcases out.state with jammed | bare
  · simp [State.mechanismFree, Tmc.available, jammed]
  · split
    · exact refuses 5 bare
    · rfl

/-- What a deposit leads to leaves a mechanism out of service as it is. -/
theorem afterDeposit_outOfService {s : State} (out : OutOfService s.tmc) (source : Source) :
    (s.afterDeposit source).tmc = s.tmc := by
  have closed : s.tmc.preemptible = false := by rcases out.state with h | h <;> simp [Tmc.preemptible, h]
  unfold State.afterDeposit
  split
  · exact select_outOfService out
  · split
    · next r _ =>
      have kept : s.preempts source r ≠ true := fun h => by simpa [closed] using (State.preempts_accepts h).1
      rw [if_neg kept]
    · rfl

/-- No notice of the blocks brings a mechanism back into service: only the cutoff's hold on its motor may change. -/
theorem handle_outOfService {s : State} (out : OutOfService s.tmc) {n : Notice} (inner : n.fromCommand = false) :
    (State.handle n s).tmc = s.tmc ∨
      ∃ sel, (State.handle n s).tmc = { s.tmc with imposition := some sel, motor := cutoffDrive sel } := by
  cases n with
  | deposit source kind =>
    refine .inl ?_
    simp only [State.handle, State.deposit]
    split
    · next ca _ =>
      refine (afterDeposit_outOfService ?_ source).trans (State.putCa_tmc _ _)
      rw [State.putCa_tmc]
      exact out
    · rfl
  | select => exact .inl (select_outOfService out)
  | trayCutoff sel =>
    refine .inr ⟨sel, ?_⟩
    rw [State.handle, State.putTmc_tmc, Tmc.cutoff_idle out.op]
  | trayClear => exact absurd inner Bool.true_eq_false.mp
  | _ => exact .inl (by simp [State.handle])

/-! ### The cutoff -/

theorem Cu.inSet_or (cu : Cu) (c : Cause) (b : Byte) (h : cu.inSet c = true) :
    Cu.inSet { cu with causes := cu.causes ||| b } c = true := by
  simp only [Cu.inSet, bne_iff_ne, ne_eq, BitVec.and_or_distrib_right, BitVec.ofNat_eq_ofNat, BitVec.or_eq_zero_iff] at h ⊢
  exact fun e => h e.1

theorem Cu.inSet_added (cu : Cu) (c : Cause) : Cu.inSet { cu with causes := cu.causes ||| c.bit } c = true := by
  have present : c.bit ≠ 0 := by cases c <;> decide
  simp only [Cu.inSet, bne_iff_ne, ne_eq, BitVec.and_or_distrib_right, BitVec.ofNat_eq_ofNat, BitVec.or_eq_zero_iff,
    BitVec.and_self]
  exact fun e => present e.2

theorem Cu.handLamp_fields (cu : Cu) : cu.handLamp.1.flag = cu.flag ∧ cu.handLamp.1.causes = cu.causes ∧
    cu.handLamp.1.enables = cu.enables ∧ cu.handLamp.1.trayLost = cu.trayLost := by
  unfold Cu.handLamp
  dsimp only
  split <;> exact ⟨rfl, rfl, rfl, rfl⟩

/-- A cause that arrives joins the set, sets the flag, and changes no enable and no level (R75, R76). -/
theorem Cu.take_fields (cu : Cu) (c : Cause) : (cu.take c).1.flag = true ∧
    ((cu.take c).1.causes = cu.causes ||| c.bit ∨ cu.inSet c = true ∧ (cu.take c).1.causes = cu.causes) ∧
    (cu.take c).1.enables = cu.enables ∧ (cu.take c).1.trayLost = cu.trayLost := by
  unfold Cu.take
  dsimp only
  split
  · obtain ⟨flag, causes, enables, lost⟩ := Cu.handLamp_fields { cu with flag := true, causes := cu.causes ||| c.bit }
    exact ⟨flag, .inl causes, enables, lost⟩
  · next standing =>
    have flag : cu.flag = true := by simpa using standing
    split
    · next known => exact ⟨flag, .inr ⟨known, rfl⟩, rfl, rfl⟩
    · obtain ⟨flag', causes, enables, lost⟩ := Cu.handLamp_fields { cu with causes := cu.causes ||| c.bit }
      exact ⟨flag'.trans flag, .inl causes, enables, lost⟩

/-- Cutoff stands, with this cause in the set. -/
def CutFor (c : Cause) (cu : Cu) : Prop := cu.flag = true ∧ cu.inSet c = true

/-- An enabled cause that arrives is in the set. -/
theorem Cu.arrive_cut {cu : Cu} {c : Cause} (enabled : cu.enabled c = true) : CutFor c (cu.arrive c).1 := by
  rw [Cu.arrive, if_pos enabled]
  obtain ⟨flag, causes, _⟩ := cu.take_fields c
  refine ⟨flag, ?_⟩
  rcases causes with added | ⟨known, same⟩
  · simpa [Cu.inSet, added] using cu.inSet_added c
  · simpa [Cu.inSet, same] using known

/-- A cause in the set stays there when another arrives. -/
theorem Cu.arrive_keeps {cu : Cu} {c : Cause} (cut : CutFor c cu) (c' : Cause) : CutFor c (cu.arrive c').1 := by
  unfold Cu.arrive
  split
  · obtain ⟨flag, causes, _⟩ := cu.take_fields c'
    refine ⟨flag, ?_⟩
    rcases causes with added | ⟨_, same⟩
    · simpa [Cu.inSet, added] using cu.inSet_or c c'.bit cut.2
    · simpa [Cu.inSet, same] using cut.2
  · exact cut

theorem Cu.arrive_fields (cu : Cu) (c : Cause) :
    (cu.arrive c).1.enables = cu.enables ∧ (cu.arrive c).1.trayLost = cu.trayLost := by
  unfold Cu.arrive
  split
  · exact (cu.take_fields c).2.2
  · exact ⟨rfl, rfl⟩

theorem Cu.setValue_fields (cu : Cu) (c : Cause) (v : Bool) : (cu.setValue c v).flag = cu.flag ∧
    (cu.setValue c v).causes = cu.causes ∧ (cu.setValue c v).enables = cu.enables ∧
    (c ≠ .trayLost → (cu.setValue c v).trayLost = cu.trayLost) := by
  cases c <;> exact ⟨rfl, rfl, rfl, fun h => by first | rfl | exact absurd rfl h⟩

/-- A notice of the blocks reaches the cutoff only as a cause. -/
theorem handle_cu (n : Notice) (s : State) : (State.handle n s).cu = s.cu ∨
    (∃ c v, n = .levelCause c v ∧ (State.handle n s).cu = (s.cu.report c v).1) ∨
    ∃ c, n = .edgeCause c ∧ (State.handle n s).cu = (s.cu.arrive c).1 := by
  have selected (k : State) : k.select.cu = k.cu := by
    have loop (fuel : Nat) (k : State) : (k.selectLoop fuel).cu = k.cu := by
      induction fuel generalizing k with
      | zero => rfl
      | succ fuel ih =>
        unfold State.selectLoop
        (repeat' split) <;> simp [ih, State.refuse, State.grant]
    unfold State.select
    split
    · exact loop 5 k
    · rfl
  have deposited (k : State) (source : Source) : (k.afterDeposit source).cu = k.cu := by
    unfold State.afterDeposit State.preemptWith
    (repeat' split) <;> simp [selected]
  cases n with
  | levelCause c v => exact .inr (.inl ⟨c, v, rfl, State.putCu_cu _ _⟩)
  | edgeCause c => exact .inr (.inr ⟨c, rfl, State.putCu_cu _ _⟩)
  | deposit source kind =>
    refine .inl ?_
    simp only [State.handle, State.deposit]
    split
    · exact (deposited _ _).trans (State.putCa_cu _ _)
    · rfl
  | select => exact .inl (selected s)
  | outcome op result => simp only [State.handle, State.takeOutcome]; split <;> simp
  | deliver source result => cases source <;> simp [State.handle, State.deliver]
  | slotEmpty source => cases source <;> simp [State.handle, State.slotEmptied]
  | terminalCount c =>
    simp only [State.handle, State.terminalCount, State.consumeRun]
    (repeat' split) <;> simp
  | fifoJoined =>
    simp only [State.handle, State.lookTape]
    (repeat' split) <;> simp
  | progress =>
    simp only [State.handle, State.progress, State.lookTape, State.consumeRun]
    (repeat' split) <;> simp
  | _ => exact .inl (by simp [State.handle])

/-- A cause in the set stays there in a cascade. -/
theorem handle_keeps_cut {s : State} {c : Cause} (cut : CutFor c s.cu) (n : Notice) : CutFor c (State.handle n s).cu := by
  rcases handle_cu n s with same | ⟨c', v, _, reported⟩ | ⟨c', _, arrived⟩
  · rw [same]; exact cut
  · rw [reported]
    obtain ⟨flag, causes, _⟩ := s.cu.setValue_fields c' v
    have set : CutFor c (s.cu.setValue c' v) := ⟨flag.trans cut.1, by simpa [Cu.inSet, causes] using cut.2⟩
    unfold Cu.report
    split
    · exact Cu.arrive_keeps set c'
    · exact set
  · rw [arrived]; exact Cu.arrive_keeps cut c'

/-- Notices of the blocks change no enable and not the value of TRAY_LOST. -/
theorem handle_keeps_levels {s : State} {n : Notice} (inner : n.fromCommand = false) :
    (State.handle n s).cu.enables = s.cu.enables ∧ (State.handle n s).cu.trayLost = s.cu.trayLost := by
  rcases handle_cu n s with same | ⟨c, v, rfl, reported⟩ | ⟨c, _, arrived⟩
  · rw [same]; exact ⟨rfl, rfl⟩
  · have other : c ≠ .trayLost := by rintro rfl; exact absurd inner Bool.true_eq_false.mp
    obtain ⟨_, _, enables, lost⟩ := s.cu.setValue_fields c v
    rw [reported, Cu.report]
    split
    · obtain ⟨enables', lost'⟩ := (s.cu.setValue c v).arrive_fields c
      exact ⟨enables'.trans enables, lost'.trans (lost other)⟩
    · exact ⟨enables, lost other⟩
  · rw [arrived]; exact s.cu.arrive_fields c

end Sys2Proof.Machine
end

section
/-! ## Jams and the tray code (01) -/

namespace Sys2Proof.Machine

open Sys2Proof.Safety

/-! ### A jam (R13) -/

/-- What a jam leaves (R13). -/
structure Jammed (t : Tmc) : Prop where
  state : t.state = .jammed
  homed : t.homed = false
  display : t.display = 0xFFF
  lifter : t.lifter = false
  motor : t.motor = .unpowered ∨ t.motor = .braked
  op : t.op = none
  positionTimer : t.positionTimer = none
  liftTimer : t.liftTimer = none
  dropTimer : t.dropTimer = none

theorem Tmc.rest_still (t : Tmc) : t.rest = .unpowered ∨ t.rest = .braked := by
  unfold Tmc.rest
  split <;> simp

/-- A jam raises TRAY_JAM first, and hands the operation over (R13). -/
theorem Tmc.jam_jammed (t : Tmc) : Jammed t.jam.1 ∧ ∃ rest, queuedOf t.jam.2 = .edgeCause .trayJam :: rest ∧ Internal rest := by
  have still := t.rest_still
  cases service : t.op with
  | none =>
    have e : t.jam = (Tmc.unhome { t.stopTimers with state := .jammed, motor := t.rest, lifter := false, homing := false },
        [.edgeCause .trayJam, .log .jam (argPair t.reportedSource t.reportedP)]) := by
      simp [Tmc.jam, Tmc.conclude, Tmc.unhome, Tmc.stopTimers, service]
    rw [e]
    exact ⟨⟨rfl, rfl, rfl, rfl, still, service, rfl, rfl, rfl⟩, [], rfl, internal_nil⟩
  | some op =>
    have e := Tmc.conclude_some
      (t := Tmc.unhome { t.stopTimers with state := .jammed, motor := t.rest, lifter := false, homing := false }) (op := op) service .jammed
      [.edgeCause .trayJam, .log .jam (argPair t.reportedSource t.reportedP)]
    rw [Tmc.jam, e]
    exact ⟨⟨rfl, rfl, rfl, rfl, still, rfl, rfl, rfl, rfl⟩, [.outcome op .jammed], rfl, by simp [Notice.fromCommand]⟩

/-- No notice of the blocks undoes a jam. -/
theorem Jammed.handle {s : State} (jammed : Jammed s.tmc) {n : Notice} (inner : n.fromCommand = false) :
    Jammed (State.handle n s).tmc := by
  rcases handle_outOfService ⟨.inl jammed.state, jammed.op⟩ inner with same | ⟨sel, held⟩
  · rw [same]; exact jammed
  · have still : cutoffDrive sel = .unpowered ∨ cutoffDrive sel = .braked := by unfold cutoffDrive; split <;> simp
    rw [held]
    exact ⟨jammed.state, jammed.homed, jammed.display, jammed.lifter, still, jammed.op, jammed.positionTimer,
      jammed.liftTimer, jammed.dropTimer⟩

/-- An event at which the mechanism jams leaves it jammed, with TRAY_JAM in the cause set where it is enabled. -/
theorem jam_ran {s : State} {f : State → State} {t : Tmc} (calm : s.notices = []) (act : f s = s.putTmc t.jam) :
    Jammed (s.run f).tmc ∧ (s.cu.enabled .trayJam = true → CutFor .trayJam (s.run f).cu) := by
  obtain ⟨jammed, rest, queue, inner⟩ := t.jam_jammed
  have reached := drain_reaches (P := fun m cu => Jammed m ∧ cu = s.cu)
    (Q := fun m cu => Jammed m ∧ (s.cu.enabled .trayJam = true → CutFor .trayJam cu)) (n := .edgeCause .trayJam)
    (s := s.act f) ?_ ?_ [] rest nofun internal_nil inner Config.cascadeFuel (by decide) ?_ ?_
  · rw [State.run, State.settle_tmc, State.settle_cu]
    exact reached
  · rintro k ⟨still, same⟩
    refine ⟨still.handle rfl, fun enabled => ?_⟩
    rw [State.handle, State.putCu_cu]
    exact Cu.arrive_cut (by rw [same]; exact enabled)
  · rintro m k inner ⟨still, cut⟩
    exact ⟨still.handle inner, fun enabled => handle_keeps_cut (cut enabled) m⟩
  · simp [act, State.putTmc_notices, calm, queue]
  · simpa [act] using jammed

/-- Settles O4: each of the four events jams the mechanism. -/
theorem mechanismJams : Obligations.MechanismJams := by
  have jams {c : Instr} {s : State} {f : State → State} {t : Tmc} (calm : s.notices = []) (run : exec c s = perform f s)
      (act : f s = s.putTmc t.jam) : ∃ t, exec c s = .next t ∧ t.tmc.state = .jammed ∧ t.tmc.homed = false ∧
      t.tmc.display = 0xFFF ∧ t.tmc.lifter = false ∧ (t.tmc.motor = .unpowered ∨ t.tmc.motor = .braked) ∧
      t.tmc.op = none ∧ t.tmc.positionTimer = none ∧ t.tmc.liftTimer = none ∧ t.tmc.dropTimer = none ∧
      (s.cu.enabled .trayJam = true → t.cu.flag = true ∧ t.cu.inSet .trayJam = true) := by
    obtain ⟨⟨state, homed, display, lifter, motor, op, position, lift, drop⟩, cut⟩ := jam_ran calm act
    exact ⟨_, run, state, homed, display, lifter, motor, op, position, lift, drop, cut⟩
  refine ⟨?_, fun s calm idle => ⟨_, rfl, reaction_none calm ?_⟩⟩
  · rintro c s calm (⟨rfl, lift, due, second⟩ | ⟨rfl, turn, due⟩ | ⟨rfl, drop, due, second⟩ |
      ⟨rfl, turn, forward, homing, limit⟩)
    · exact jams (t := s.tmc) calm rfl (by simp [Tmc.liftExpiry, Timer.due, lift, due, second])
    · exact jams (t := s.tmc) calm rfl (by simp [Tmc.positionExpiry, Timer.due, turn, due])
    · exact jams (t := { s.tmc with sensors := { s.tmc.sensors with gslide := true } }) calm rfl
        (by simp [Tmc.dropExpiry, Timer.due, drop, due, second])
    · have missed := Tmc.arrive_missed turn forward homing
      rw [if_pos (by omega)] at missed
      exact jams calm rfl (congrArg s.putTmc missed)
  · simp only [Tmc.positionExpiry, Timer.due, beq_iff_eq, if_neg idle]

end Sys2Proof.Machine
end

section
/-! ## The tray code (R1, R18 to R20) -/

namespace Sys2Proof.Machine

open Sys2Proof.Safety

/-! ### No notice changes the tray code -/

theorem Tmc.conclude_tcode (t : Tmc) (result : OpOutcome) (events : List Notice) :
    (t.conclude result events).1.tcode = t.tcode := by
  unfold Tmc.conclude
  split <;> rfl

theorem Tmc.begin_tcode (t : Tmc) (op : Operation) : (t.begin op).1.tcode = t.tcode := by
  unfold Tmc.begin Tmc.shortPath
  dsimp only
  split
  · rfl
  · rfl
  · split
    · exact Tmc.conclude_tcode _ _ _
    · rfl

theorem Tmc.preempt_tcode (t : Tmc) (op : Operation) : (t.preempt op).1.tcode = t.tcode := by
  unfold Tmc.preempt Tmc.preemptDarken Tmc.preemptTurn Tmc.shortPath
  dsimp only
  split
  · split
    · rfl
    · rfl
    · split
      · exact Tmc.conclude_tcode _ _ _
      · rfl
  · rfl

theorem Tmc.cutoff_tcode (t : Tmc) (sel : TraySelection) : (t.cutoff sel).1.tcode = t.tcode := by
  unfold Tmc.cutoff Tmc.abort
  dsimp only
  split
  · split
    · exact Tmc.conclude_tcode _ _ _
    · split <;> exact Tmc.conclude_tcode _ _ _
  · rfl

theorem select_tcode (s : State) : s.select.tmc.tcode = s.tmc.tcode := by
  have loop (fuel : Nat) (k : State) : (k.selectLoop fuel).tmc.tcode = k.tmc.tcode := by
    induction fuel generalizing k with
    | zero => rfl
    | succ fuel ih =>
      unfold State.selectLoop
      split
      · rfl
      · split
        · exact (ih _).trans (by simp [State.refuse])
        · simp [State.grant, Tmc.begin_tcode]
  unfold State.select
  split
  · exact loop 5 s
  · rfl

theorem handle_tcode (n : Notice) (s : State) : (State.handle n s).tmc.tcode = s.tmc.tcode := by
  cases n with
  | deposit source kind =>
    simp only [State.handle, State.deposit]
    split
    · unfold State.afterDeposit State.preemptWith
      (repeat' split) <;> simp [select_tcode, Tmc.preempt_tcode]
    · rfl
  | select => exact select_tcode s
  | trayCutoff sel => rw [State.handle, State.putTmc_tmc, Tmc.cutoff_tcode]
  | trayClear => rw [State.handle, State.putTmc_tmc, Tmc.clear_eq]
  | _ => simp [State.handle]

theorem run_tcode (s : State) (f : State → State) : (s.run f).tmc.tcode = (f s).tmc.tcode := by
  rw [State.run, State.settle_tmc, State.carry]
  refine (State.drain_keeps (P := fun k => k.tmc.tcode = (f s).tmc.tcode) (fun _ _ h => h) ?_ _ _ (by simp))
  intro k n h
  rw [State.act_tmc, handle_tcode, h]

/-! ### What the reactions of the tray code are -/

/-- A value of TRAY_LOST that does not rise is only noted (R72). -/
theorem handled_trayLost {u : State} {v : Bool} (falls : v = true → u.cu.trayLost = true) :
    Handled (.levelCause .trayLost v) u { u with cu := { u.cu with trayLost := v } } [] [] := by
  intro s before queue k
  have noted : u.cu.report .trayLost v = ({ u.cu with trayLost := v }, []) := by
    rw [Cu.report, if_neg]
    · rfl
    · rintro ⟨rises, absent⟩
      simp [Cu.present, falls rises] at absent
  have stands := k.putCu (u.cu.report .trayLost v)
  rw [noted] at stands
  rw [State.handle, k.cu, noted]
  exact stands

section

variable {t : Tmc} {enabled : Bool} {code : BitVec 2}

/-- An insertion where no tray was (R18). -/
theorem Tmc.codeChange_insert (none : codeSize t.tcode = 0) (valid : codeSize code ≠ 0) :
    t.codeChange enabled code =
      ({ t with tcode := code, n := codeSize code, homed := false, display := 0xFFF,
                gate := if t.sensors.gslide then .loaded else .empty, uncleanLoss := false,
                state := if t.state = .jammed then .jammed else .unhomed },
        [.levelCause .trayLost (t.uncleanLoss), .log .trayInserted (halfOf (codeSize code)), .levelCause .trayLost false]) := by
  have fresh : code ≠ t.tcode := by rintro rfl; exact valid none
  have tray : ¬ code = 3#2 := by rintro rfl; exact valid rfl
  simp [Tmc.codeChange, Tmc.insert, Tmc.unhome, Tmc.sampleGate, Tmc.lostNotice, Tmc.trayLost, dashes, fresh, none, valid, tray]

/-- A loss, told to the cutoff with the value of TRAY_LOST that it leaves (R19, R20, R72). -/
theorem Tmc.codeChange_lost (had : codeSize t.tcode ≠ 0) (none : codeSize code = 0) :
    t.codeChange enabled code =
      ((Tmc.lose { t with tcode := code } enabled).1,
        (if code = 3 then [.log .trayCodeBad 3] else []) ++ (Tmc.lose { t with tcode := code } enabled).2 ++
          [(Tmc.lose { t with tcode := code } enabled).1.lostNotice]) := by
  have fresh : code ≠ t.tcode := by rintro rfl; exact had none
  simp only [Tmc.codeChange, if_neg fresh, if_pos had, none, ne_eq, not_true_eq_false, if_false]
  split <;> simp

/-- The mechanism reads the code that it is given (R1). -/
theorem Tmc.codeChange_tcode : (t.codeChange enabled code).1.tcode = code := by
  obtain ⟨_, _, _, lost, _⟩ := Tmc.lose_fields { t with tcode := code } enabled
  unfold Tmc.codeChange
  split
  · next same => exact same.symm
  · dsimp only
    split <;> split <;> first | exact lost | rfl | (split <;> first | exact lost | rfl)

/-- The clean loss of a tray (R19). -/
theorem Tmc.lose_clean (ready : t.state = .ready) (zero : t.p = 0) (empty : t.gate = .empty) (idle : t.op = none)
    (clean : t.uncleanLoss = false) :
    t.lose enabled =
      (Tmc.unhome { t.stopTimers with state := .noTray, motor := t.rest, lifter := false, homing := false, n := 0,
                                      uncleanLoss := false }, [.log .trayRemoved 0]) := by
  simp [Tmc.lose, Tmc.conclude, Tmc.unhome, Tmc.stopTimers, Tmc.rest, ready, zero, empty, idle, clean]

/-- A loss that is not clean leaves a mark, and hands over what was in service and a selection at the most (R19, R135). -/
theorem Tmc.lose_unclean (unclean : ¬ (t.state = .ready ∧ t.p = 0 ∧ t.gate = .empty)) :
    (t.lose enabled).1.uncleanLoss = true ∧ (enabled = true → (t.lose enabled).1.state = .noTray) ∧
      Internal (t.lose enabled).2 ∧ (queuedOf (t.lose enabled).2).length ≤ 2 := by
  have clean : ((t.state == .ready) && (t.p == 0) && (t.gate == .empty)) = false := by
    rw [Bool.eq_false_iff]
    intro h
    simp only [Bool.and_eq_true, beq_iff_eq] at h
    exact unclean ⟨h.1.1, h.1.2, h.2⟩
  by_cases freed : t.state = .jammed ∧ enabled = true <;> cases service : t.op <;>
    simp [Tmc.lose, Tmc.conclude, Tmc.unhome, Tmc.stopTimers, Notice.fromCommand, queuedOf, Notice.immediate, clean, freed,
      service] <;>
  exact fun e _ => e

/-- What an unclean loss leaves (R19). -/
structure Lost (t : Tmc) : Prop where
  n : t.n = 0
  homed : t.homed = false
  display : t.display = 0xFFF
  unclean : t.uncleanLoss = true
  out : OutOfService t

/-- No notice of the blocks undoes a loss. -/
theorem Lost.handle {s : State} (lost : Lost s.tmc) {n : Notice} (inner : n.fromCommand = false) :
    Lost (State.handle n s).tmc ∧ (State.handle n s).tmc.state = s.tmc.state := by
  rcases handle_outOfService lost.out inner with same | ⟨sel, held⟩
  · rw [same]; exact ⟨lost, rfl⟩
  · rw [held]; exact ⟨⟨lost.n, lost.homed, lost.display, lost.unclean, lost.out.state, lost.out.op⟩, rfl⟩

end

/-! ### O1 -/

/-- An unclean loss, whatever it leads to: the tray is gone, and TRAY_LOST is present, with cutoff entered where it is
enabled and new (R19, R72, R75). -/
theorem unclean_loss_ran {s : State} {code : BitVec 2} (calm : s.notices = []) (had : codeSize s.tmc.tcode ≠ 0)
    (none : codeSize code = 0) (unclean : ¬ (s.tmc.state = .ready ∧ s.tmc.p = 0 ∧ s.tmc.gate = .empty)) {f : State → State}
    (act : f s = s.putTmc (s.tmc.codeChange (s.cu.enabled .trayLost) code)) :
    Lost (s.run f).tmc ∧ (s.run f).cu.trayLost = true ∧
      (s.cu.enabled .trayLost = true → s.cu.trayLost = false →
        CutFor .trayLost (s.run f).cu ∧ (s.run f).tmc.state = .noTray) := by
  obtain ⟨op, _, _, _, n, homed, display, state⟩ := Tmc.lose_fields { s.tmc with tcode := code } (s.cu.enabled .trayLost)
  obtain ⟨mark, bare, inner, short⟩ := Tmc.lose_unclean (t := { s.tmc with tcode := code })
    (enabled := s.cu.enabled .trayLost) unclean
  rw [Tmc.codeChange_lost had none] at act
  generalize Tmc.lose { s.tmc with tcode := code } (s.cu.enabled .trayLost) = r at *
  have queue : queuedOf ((if code = 3 then [.log .trayCodeBad 3] else []) ++ r.2 ++ [r.1.lostNotice]) =
      queuedOf r.2 ++ [.levelCause .trayLost true] := by
    have value : r.1.lostNotice = .levelCause .trayLost true := by simp [Tmc.lostNotice, Tmc.trayLost, mark]
    rw [value, queuedOf_append, queuedOf_append]
    split <;> rfl
  have reached := drain_reaches
    (P := fun m cu => (Lost m ∧ (s.cu.enabled .trayLost = true → m.state = .noTray)) ∧ cu.enables = s.cu.enables ∧
      cu.trayLost = s.cu.trayLost)
    (Q := fun m cu => (Lost m ∧ (s.cu.enabled .trayLost = true → m.state = .noTray)) ∧ cu.trayLost = true ∧
      (s.cu.enabled .trayLost = true → s.cu.trayLost = false → CutFor .trayLost cu))
    (n := .levelCause .trayLost true) (s := s.act f) ?_ ?_ (queuedOf r.2) [] ?_ inner.queued internal_nil
    Config.cascadeFuel (by simp only [Config.cascadeFuel]; omega) ?_ ?_
  · obtain ⟨⟨lost, gone⟩, present, cut⟩ := reached
    rw [State.run, State.settle_tmc, State.settle_cu]
    exact ⟨lost, present, fun enabled new => ⟨cut enabled new, gone enabled⟩⟩
  · rintro k ⟨lost, enables, value⟩
    rw [State.handle, State.putCu_tmc, State.putCu_cu, Cu.report]
    refine ⟨lost, ?_⟩
    by_cases new : k.cu.trayLost = false
    · rw [if_pos ⟨rfl, new⟩]
      obtain ⟨_, standing⟩ := (k.cu.setValue .trayLost true).arrive_fields .trayLost
      exact ⟨standing, fun enabled _ => Cu.arrive_cut (by simpa [Cu.enabled, Cu.setValue, enables] using enabled)⟩
    · rw [if_neg fun h => new h.2]
      exact ⟨rfl, fun _ old => absurd (value.trans old) new⟩
  · rintro m k plain ⟨⟨lost, gone⟩, present, cut⟩
    obtain ⟨lost', state'⟩ := lost.handle plain
    obtain ⟨_, value⟩ := handle_keeps_levels (s := k) plain
    exact ⟨⟨lost', fun enabled => state'.trans (gone enabled)⟩, value.trans present,
      fun enabled new => handle_keeps_cut (cut enabled new) m⟩
  · rintro m _ k plain ⟨⟨lost, gone⟩, enables, old⟩
    obtain ⟨lost', state'⟩ := lost.handle plain
    obtain ⟨enables', value⟩ := handle_keeps_levels (s := k) plain
    exact ⟨⟨lost', fun enabled => state'.trans (gone enabled)⟩, enables'.trans enables, value.trans old⟩
  · rw [State.act_notices, act, State.putTmc_notices, calm, queue, List.nil_append]
  · simp only [State.act_tmc, State.act_cu, act, State.putTmc_tmc, State.putTmc_cu]
    exact ⟨⟨⟨n, homed, display, mark, ⟨state.symm, op⟩⟩, bare⟩, trivial, trivial⟩

/-- Settles O1, by what the old and the new code are. -/
theorem trayCodeChange : Obligations.TrayCodeChange := by
  intro code s calm agrees
  have size (c : BitVec 2) : codeSize c ≠ 0 ↔ c = 1 ∨ c = 2 := by revert c; decide
  have noSize (c : BitVec 2) : codeSize c = 0 ↔ c = 0 ∨ c = 3 := by revert c; decide
  refine ⟨_, rfl, ?_, fun same => ?_, fun none valid => ?_, fun had gone ready zero empty idle clean => ?_,
    fun had gone unclean => ?_⟩
  · rw [run_tcode, State.putTmc_tmc, Tmc.codeChange_tcode]
  · have stays : s.tmc.codeChange (s.cu.enabled .trayLost) code = (s.tmc, []) := by simp [Tmc.codeChange, same]
    have effect := reaction_none (f := fun k => k.putTmc (k.tmc.codeChange (k.cu.enabled .trayLost) code)) calm
      (congrArg s.putTmc stays)
    exact ⟨effect.1 .mechanism nofun, effect⟩
  · have inserted := Tmc.codeChange_insert (enabled := s.cu.enabled .trayLost) ((noSize _).mpr none) ((size _).mpr valid)
    have ran := reaction_ran (f := fun k => k.putTmc (k.tmc.codeChange (k.cu.enabled .trayLost) code)) (lc := s.lc) calm
      (congrArg s.putTmc inserted) (.cons (handled_trayLost fun unclean => by simp [agrees, Tmc.trayLost, unclean])
        (.cons (handled_trayLost nofun) (.nil _ _)))
    have effect := ran.effect (s := s) (changed := [.mechanism, .cutoff]) rfl fun p hp => by
      cases p <;> simp [Part.same] at hp ⊢
    rcases valid with rfl | rfl <;> exact ⟨ran.tmc, ran.cu, effect⟩
  · subst gone
    have lost := Tmc.codeChange_lost (enabled := s.cu.enabled .trayLost) ((size _).mpr had) (rfl : codeSize 0 = 0)
    rw [Tmc.lose_clean (t := { s.tmc with tcode := 0 }) ready zero empty idle clean] at lost
    have ran := reaction_ran (f := fun k => k.putTmc (k.tmc.codeChange (k.cu.enabled .trayLost) 0)) (lc := s.lc) calm
      (congrArg s.putTmc lost) (.cons (handled_trayLost (v := false) nofun) (.nil _ _))
    have effect := ran.effect (s := s) (changed := [.mechanism, .cutoff]) rfl fun p hp => by
      cases p <;> simp [Part.same] at hp ⊢
    rw [ran.tmc]
    exact ⟨rfl, rfl, rfl, rfl, rfl, ran.cu, effect⟩
  · obtain ⟨lost, present, cut⟩ := unclean_loss_ran
      (f := fun k => k.putTmc (k.tmc.codeChange (k.cu.enabled .trayLost) code)) calm ((size _).mpr had) ((noSize _).mpr gone)
      unclean rfl
    exact ⟨lost.n, lost.homed, lost.display, lost.out.op, lost.unclean, present, fun enabled new =>
      ⟨(cut enabled new).1.1, (cut enabled new).1.2, (cut enabled new).2⟩⟩

end Sys2Proof.Machine
end

section
/-! ## Directives as rows of the calculus

A directive abandons an open one, is taken by its owner, answered, and followed by what its notices lead to. The decoder's
record is its own in all this: what the owner does is said of a state with any decoder. -/

namespace Sys2Proof.Machine

open Sys2Proof.Safety

/-- A directive has been taken and answered with this result, and the command has ended where the blocks stand as in `u`. -/
def Took (code : Byte) (result : Result) (s u : State) (events : List (Event × Half)) (t : State) : Prop :=
  ∃ dd : Dd, dd.taken = s.dd.taken ∧ Ran { u with dd := dd.answer code result } (abandoned code s ++ events) t

/-- The answer of a directive marks line 0 alone (R206). -/
theorem StandsAt.answer {u k : State} {events : List (Event × Half)} {queue : List Notice} (h : StandsAt u events queue k)
    (code : Byte) (result : Result) :
    StandsAt { u with dd := u.dd.answer code result } events queue (k.answer code result) := by
  have answered : StandsAt { u with dd := u.dd.answer code result } events queue
      { k with dd := k.dd.answer code result } := by
    rw [h.dd]
    obtain ⟨b, d, l, rfl, joined⟩ := h
    exact ⟨b, d, l, rfl, joined⟩
  have stands := answered.post [.dirty 0]
  rw [queuedOf_dirty, loggedOf_dirty, queuedOf_nil, loggedOf_nil, List.append_nil, List.append_nil] at stands
  exact stands

/-- A directive whose owner answers this result: where its row stands before its notices are taken. -/
theorem row_stands {s u : State} (ready : Ready s) {code : Byte} {owner : State → State × Result} {result : Result}
    {events : List (Event × Half)} {made : List Notice}
    (acts : ∀ dd k before, StandsAt { s with dd := dd } before [] k →
      (owner k).2 = result ∧ StandsAt { u with dd := dd } (before ++ events) made (owner k).1) :
    ∃ dd : Dd, dd.taken = s.dd.taken ∧ StandsAt { u with dd := dd.answer code result } (abandoned code s ++ events) made
      (State.takeRow code owner s) := by
  obtain ⟨dd, ns, shape, quiet, logged, taken⟩ := takeRow_eq ready.2 code owner
  have start : StandsAt { s with dd := dd } [] [] { s with dd := dd } := .refl ready.1
  have found := start.post ns
  rw [quiet, logged] at found
  obtain ⟨answer, stands⟩ := acts dd _ _ found
  refine ⟨dd, taken, ?_⟩
  rw [shape, State.take, answer]
  exact stands.answer code result

/-- A directive whose owner answers this result, and whose notices lead to `u'`. -/
theorem row_took {s u u' : State} (ready : Ready s) {code : Byte} {owner : State → State × Result} {result : Result}
    {events later : List (Event × Half)} {made : List Notice}
    (acts : ∀ dd k before, StandsAt { s with dd := dd } before [] k →
      (owner k).2 = result ∧ StandsAt { u with dd := dd } (before ++ events) made (owner k).1)
    (leads : ∀ dd, Leads Config.cascadeFuel { u with dd := dd } made { u' with dd := dd } later) :
    Took code result s u' (events ++ later) (s.run (State.takeRow code owner)) := by
  obtain ⟨dd, taken, stands⟩ := row_stands (code := code) ready acts
  exact ⟨dd, taken, by simpa only [List.append_assoc] using run_ran stands (leads _)⟩

/-- A directive of the mechanism. -/
theorem row_took_tmc {s u' : State} (ready : Ready s) {code : Byte} {owner : State → State × Result} {result : Result}
    (r : Reaction Tmc) {later : List (Event × Half)} (act : ∀ k : State, k.tmc = s.tmc → owner k = (k.putTmc r, result))
    (leads : ∀ dd, Leads Config.cascadeFuel { s with dd := dd, tmc := r.1 } (queuedOf r.2) { u' with dd := dd } later) :
    Took code result s u' (loggedOf r.2 ++ later) (s.run (State.takeRow code owner)) := by
  refine row_took (u := { s with tmc := r.1 }) ready (fun dd k before h => ?_) leads
  rw [act k h.tmc]
  exact ⟨rfl, h.putTmc r⟩

/-- A directive of the cutoff. -/
theorem row_took_cu {s u' : State} (ready : Ready s) {code : Byte} {owner : State → State × Result} {result : Result}
    (r : Reaction Cu) {later : List (Event × Half)} (act : ∀ k : State, k.cu = s.cu → owner k = (k.putCu r, result))
    (leads : ∀ dd, Leads Config.cascadeFuel { s with dd := dd, cu := r.1 } (queuedOf r.2) { u' with dd := dd } later) :
    Took code result s u' (loggedOf r.2 ++ later) (s.run (State.takeRow code owner)) := by
  refine row_took (u := { s with cu := r.1 }) ready (fun dd k before h => ?_) leads
  rw [act k h.cu]
  exact ⟨rfl, h.putCu r⟩

/-- A directive of the arbiter. -/
theorem row_took_ca {s u' : State} (ready : Ready s) {code : Byte} {owner : State → State × Result} {result : Result}
    (r : Reaction Ca) {later : List (Event × Half)} (act : ∀ k : State, k.ca = s.ca → owner k = (k.putCa r, result))
    (leads : ∀ dd, Leads Config.cascadeFuel { s with dd := dd, ca := r.1 } (queuedOf r.2) { u' with dd := dd } later) :
    Took code result s u' (loggedOf r.2 ++ later) (s.run (State.takeRow code owner)) := by
  refine row_took (u := { s with ca := r.1 }) ready (fun dd k before h => ?_) leads
  rw [act k h.ca]
  exact ⟨rfl, h.putCa r⟩

namespace Took

variable {s u t : State} {code : Byte} {result : Result} {events : List (Event × Half)} {changed : List Part}

theorem ce (h : Took code result s u events t) : t.ce = u.ce := by obtain ⟨_, _, ran⟩ := h; exact ran.ce
theorem ca (h : Took code result s u events t) : t.ca = u.ca := by obtain ⟨_, _, ran⟩ := h; exact ran.ca
theorem rcu (h : Took code result s u events t) : t.rcu = u.rcu := by obtain ⟨_, _, ran⟩ := h; exact ran.rcu
theorem tmc (h : Took code result s u events t) : t.tmc = u.tmc := by obtain ⟨_, _, ran⟩ := h; exact ran.tmc
theorem lc (h : Took code result s u events t) : t.lc = u.lc := by obtain ⟨_, _, ran⟩ := h; exact ran.lc
theorem fc (h : Took code result s u events t) : t.fc = u.fc := by obtain ⟨_, _, ran⟩ := h; exact ran.fc
theorem cu (h : Took code result s u events t) : t.cu = u.cu := by obtain ⟨_, _, ran⟩ := h; exact ran.cu
theorem ttc (h : Took code result s u events t) : t.ttc = u.ttc := by obtain ⟨_, _, ran⟩ := h; exact ran.ttc

theorem lastCode (h : Took code result s u events t) : t.dd.lastCode = code := by obtain ⟨_, _, ran⟩ := h; rw [ran.dd]; rfl

theorem lastResult (h : Took code result s u events t) : t.dd.lastResult = result.number := by
  obtain ⟨_, _, ran⟩ := h; rw [ran.dd]; rfl

/-- Every part but the decoder that reads in `u` as before the directive reads so after it. -/
theorem unchanged (h : Took code result s u events t)
    (parts : ∀ p, p ∉ Part.decoder :: changed → p.same s { u with notices := [] }) :
    Unchanged (.decoder :: changed) s t := by
  obtain ⟨dd, _, ran⟩ := h
  refine ran.unchanged fun p hp => ?_
  have same := parts p hp
  cases p <;> simp [Part.same] at hp same ⊢ <;> exact same

theorem logs (h : Took code result s u events t) (same : u.rw = s.rw) : Logs (abandoned code s ++ events) s t := by
  obtain ⟨_, _, ran⟩ := h
  exact ran.logs same

/-- The effect of a directive that ends at `u`. -/
theorem answered (h : Took code result s u events t) (same : u.rw = s.rw)
    (parts : ∀ p, p ∉ Part.decoder :: changed → p.same s { u with notices := [] }) :
    Answered code result changed events s t := by
  have effect := And.intro (h.unchanged parts) (h.logs same)
  obtain ⟨dd, taken, ran⟩ := h
  exact ⟨by rw [ran.dd]; rfl, by rw [ran.dd]; rfl, by rw [ran.dd]; rfl, by rw [ran.dd, ← taken]; rfl, effect⟩

end Took

/-! ### CHANGE_PROFILE (R27) -/

/-- A fire instant is looked at for a record that waits, and here none does (R172). -/
theorem handled_refire_idle {u : State} (idle : u.ce.waiting? = none) : Handled .refire u u [] [] := by
  intro s before queue k
  have still : s.ce.fireInstantReached s.tmc.outTime s.cueSlotFree = (u.ce, []) := by
    rw [k.ce, Ce.fireInstantReached, idle]
  rw [State.handle, still]
  simpa using k.putCe (u.ce, [])

/-- Settles O10, by whether the mechanism is in a cycle. -/
theorem changeProfile : Obligations.ChangeProfile := by
  intro outTime inTime blackout s ready idle
  refine ⟨_, rfl, fun busy => ?_, fun still => ?_⟩
  · have refused : s.tmc.changeProfile outTime inTime blackout = ((s.tmc, []), .refusedState) := by
      simp [Tmc.changeProfile, busy]
    have took := row_took_tmc (u' := s) (code := 0x14) (owner := dirChangeProfile outTime inTime blackout) ready
      (s.tmc, []) (fun k same => by rw [dirChangeProfile, same, refused]) fun dd => .nil _ _
    exact took.answered rfl fun p _ => by cases p <;> simp [Part.same]
  · have set : s.tmc.changeProfile outTime inTime blackout =
        (({ s.tmc with outTime := outTime.toNat * 10, inTime := inTime.toNat * 10, blackout := blackout.toNat }, [.refire]),
          .done) := by
      simp [Tmc.changeProfile, still]
    have took := row_took_tmc (code := 0x14) (owner := dirChangeProfile outTime inTime blackout)
      (u' := { s with tmc := { s.tmc with
        outTime := outTime.toNat * 10, inTime := inTime.toNat * 10, blackout := blackout.toNat } }) ready
      (_, [.refire]) (fun k same => by rw [dirChangeProfile, same, set])
      fun dd => .cons (handled_refire_idle (by exact idle)) (.nil _ _)
    exact ⟨took.tmc, took.answered rfl fun p hp => by cases p <;> simp [Part.same] at hp ⊢⟩

end Sys2Proof.Machine
end

section
/-! ## Requests at the arbiter (07): grants, the short path and preemption -/

namespace Sys2Proof.Machine

open Sys2Proof.Safety

/-! ### What an operation that is granted begins (R5 to R7, R14) -/

section

variable {t : Tmc} {op : Operation}

/-- The target of a change is the one that the mechanism resolves (R5). -/
theorem Tmc.resolve_targetOf (change : changesSlide op.kind = true) : t.resolve op.kind = targetOf t op.kind := by
  obtain ⟨kind, source, level⟩ := op
  cases kind
  case changeTo slot => rfl
  case moveBy k => rfl
  case home => exact absurd change Bool.false_ne_true
  case clearGate => exact absurd change Bool.false_ne_true

/-- An operation that is not done at once darkens toward its target. -/
theorem Tmc.begin_darkens (homed : t.homed = true)
    (far : ¬ (changesSlide op.kind = true ∧ targetOf t op.kind = t.p ∧ t.gate = .loaded)) :
    (t.begin op).2 = [.darken t.outTime t.blackout] ∧ (t.begin op).1.state = .darken ∧
      (t.begin op).1.darkenLimit = some 1000 ∧ (t.begin op).1.target = some (targetOf t op.kind) ∧
      (t.begin op).1.op = some op ∧
      (op.kind = .home → (t.begin op).1.homing = true ∧ (t.begin op).1.homed = false ∧ (t.begin op).1.display = 0xFFF ∧
        (t.begin op).1.gate = if t.sensors.gslide then .loaded else .empty) := by
  obtain ⟨kind, source, level⟩ := op
  cases kind
  case home =>
    exact ⟨rfl, rfl, rfl, rfl, rfl, fun _ => ⟨rfl, rfl, rfl, rfl⟩⟩
  case clearGate =>
    refine ⟨rfl, rfl, rfl, ?_, rfl, nofun⟩
    simp [Tmc.begin, Tmc.enterDarken, targetOf, homed]
  case changeTo slot =>
    have away : ¬ (slot = t.p ∧ t.gate = .loaded) := fun h => far ⟨rfl, h⟩
    simp [Tmc.begin, Tmc.resolve, Tmc.enterDarken, targetOf, away]
  case moveBy k =>
    have away : ¬ (targetOf t (.moveBy k) = t.p ∧ t.gate = .loaded) := fun h => far ⟨rfl, h⟩
    simp only [targetOf] at away
    simp [Tmc.begin, Tmc.resolve, Tmc.enterDarken, targetOf, away]

/-- A change to the slot that stands in the lit gate is done at once (R6). -/
theorem Tmc.begin_short {slot : Nat} (kind : op.kind = .changeTo slot) (here : slot = t.p) (loaded : t.gate = .loaded) :
    t.begin op = ({ t with op := none, fromUnhomed := t.state == MechState.unhomed,
                           fromDark := t.gate == Gate.empty && t.darkenStanding, liftRetried := false, seatRetried := false,
                           redirect := false, homing := false, arrivals := 0, target := some slot, state := .ready },
      [.dirty 1, .log .changeDone (argPair op.source.number t.reportedP), .outcome op .done]) := by
  simp [Tmc.begin, Tmc.resolve, Tmc.shortPath, Tmc.conclude, Tmc.reportedSource, Tmc.reportedP, kind, here, loaded]

end

/-! ### The lamp asked to darken (R46) -/

section

variable {lc : Lc} {outTime b : Nat}

theorem Lc.takeDarken_holdLevel : (lc.takeDarken outTime b).holdLevel = some b := by
  unfold Lc.takeDarken
  dsimp only
  (repeat' split) <;> simp [Lc.startFade]

/-- An output already at the blackout level is held, and reported, at once (R46). -/
theorem Lc.takeDarken_dark (dark : lc.output ≤ b) (fresh : lc.hold ≠ .darkening) :
    (lc.takeDarken outTime b).hold = .held ∧ (lc.takeDarken outTime b).report = true := by
  simp [Lc.takeDarken, fresh, dark, Lc.recompute_hold, Lc.recompute_report]

/-- A lit lamp above the blackout level fades down to it over the out time (R46). -/
theorem Lc.takeDarken_lit (bright : b < lc.output) (lit : lc.state = .lit) (fresh : lc.hold ≠ .darkening) :
    (lc.takeDarken outTime b).fade = some ⟨lc.output, b, 4, outTime, 0⟩ := by
  simp [Lc.takeDarken, Lc.startFade, fresh, lit, Nat.not_le.mpr bright]

end

/-! ### Slots -/

section

variable {α : Type}

theorem PerSource.get_set (f : PerSource α) (a b : Source) (v : α) : (f.set a v).get b = if a = b then v else f.get b := by
  cases a <;> cases b <;> rfl

theorem PerSource.ext {f g : PerSource α} (h : ∀ source, f.get source = g.get source) : f = g := by
  obtain ⟨a, b, c, d, e⟩ := f
  obtain ⟨a', b', c', d', e'⟩ := g
  have h0 := h .directive
  have h1 := h .cue
  have h2 := h .remote
  have h3 := h .tape
  have h4 := h .run
  simp only [PerSource.get] at h0 h1 h2 h3 h4
  subst h0 h1 h2 h3 h4
  rfl

/-- A slot that was empty, filled and emptied again. -/
theorem PerSource.set_none_set {f : PerSource (Option α)} {source : Source} (empty : f.get source = none) (v : Option α) :
    (f.set source v).set source none = f := by
  refine PerSource.ext fun other => ?_
  rw [PerSource.get_set, PerSource.get_set]
  split
  · next same => rw [← same, empty]
  · rfl

end

/-! ### Selection and grant -/

section

variable {u s : State} {source : Source} {r : Request}

/-- The arbiter is open where cutoff is not in force or leaves the tray alone (R135). -/
theorem arbiterOpen_iff : u.arbiterOpen = true ↔ u.cu.flag = false ∨ u.cu.traySel = .ignore := by
  simp [State.arbiterOpen]

/-- A selection at a free mechanism grants the candidate chosen, where nothing refuses it (R135, R136). -/
theorem select_grants (available : u.tmc.available = true) (idle : u.ca.inService = none) (openArbiter : u.arbiterOpen = true)
    (best : u.ca.best? = some (source, r)) (allowed : u.tmc.refusal? r.kind = none) : u.select = u.grant source r := by
  simp [State.select, State.mechanismFree, State.selectLoop, available, idle, openArbiter, best, allowed]

/-- A grant where the blocks stand as in `u` (R136). -/
theorem StandsAt.grant {events : List (Event × Half)} {queue : List Notice} (h : StandsAt u events queue s)
    (source : Source) (r : Request) :
    StandsAt { u with ca := { u.ca.empty source with inService := some ⟨r.kind, source, r.level⟩ },
                      tmc := (u.tmc.begin ⟨r.kind, source, r.level⟩).1 }
      (events ++ loggedOf (u.tmc.begin ⟨r.kind, source, r.level⟩).2)
      (queue ++ slotEmptyNotice source ++ queuedOf (u.tmc.begin ⟨r.kind, source, r.level⟩).2) (s.grant source r) := by
  have slots : loggedOf (slotEmptyNotice source) = [] ∧ queuedOf (slotEmptyNotice source) = slotEmptyNotice source := by
    unfold slotEmptyNotice; split <;> exact ⟨rfl, rfl⟩
  have moved := (h.putCa ({ u.ca.empty source with inService := some ⟨r.kind, source, r.level⟩ },
    .dirty 6 :: slotEmptyNotice source)).putTmc (u.tmc.begin ⟨r.kind, source, r.level⟩)
  rw [loggedOf_dirty, queuedOf_dirty, slots.1, slots.2, List.append_nil] at moved
  rw [State.grant, h.ca]
  simpa only [State.putCa_tmc, h.tmc] using moved

/-- A selection that grants, as a notice. -/
theorem handled_select_grant (available : u.tmc.available = true) (idle : u.ca.inService = none)
    (openArbiter : u.arbiterOpen = true) (best : u.ca.best? = some (source, r)) (allowed : u.tmc.refusal? r.kind = none) :
    Handled .select u
      { u with ca := { u.ca.empty source with inService := some ⟨r.kind, source, r.level⟩ },
               tmc := (u.tmc.begin ⟨r.kind, source, r.level⟩).1 }
      (loggedOf (u.tmc.begin ⟨r.kind, source, r.level⟩).2)
      (slotEmptyNotice source ++ queuedOf (u.tmc.begin ⟨r.kind, source, r.level⟩).2) := by
  intro s before queue k
  have granted : State.handle .select s = s.grant source r := by
    refine select_grants (u := s) ?_ ?_ ?_ ?_ ?_
    · rw [k.tmc]; exact available
    · rw [k.ca]; exact idle
    · rw [State.arbiterOpen, k.cu]; exact openArbiter
    · rw [k.ca]; exact best
    · rw [k.tmc]; exact allowed
  rw [granted]
  simpa only [List.append_assoc] using k.grant source r

/-- The only record that waits is chosen, unless its source is masked (R135, R136). -/
theorem Ca.best?_only {ca : Ca} (waits : ca.slots.get source = some r)
    (alone : ∀ other, other ≠ source → ca.slots.get other = none) (unmasked : ca.masks.get source = false) :
    ca.best? = some (source, r) := by
  have only : ca.candidates = [(source, r)] := by
    have others (other : Source) : (if ca.masks.get other then none else (ca.slot other).map fun q => (other, q)) =
        if other = source then some (source, r) else none := by
      by_cases same : other = source
      · subst same; simp [unmasked, Ca.slot, waits]
      · simp [same, Ca.slot, alone other same]
    simp only [Ca.candidates, others]
    cases source <;> rfl
  simp [Ca.best?, only]

end

/-! ### A deposit -/

section

variable {u : State} {kind : OpKind}

/-- The record that a deposit of the directive source leaves in its slot (R130). -/
def Ca.deposited (ca : Ca) (kind : OpKind) : Ca :=
  { ca with slots := { ca.slots with directive := some ⟨kind, ca.levels.directive⟩ } }

/-- A deposit of the directive source in its empty slot, up to what follows it. -/
theorem StandsAt.deposit {s : State} {events : List (Event × Half)} {queue : List Notice} (h : StandsAt u events queue s)
    (empty : u.ca.slots.directive = none) : ∃ k, StandsAt { u with ca := u.ca.deposited kind } events queue k ∧
      State.handle (.deposit .directive kind) s = k.afterDeposit .directive := by
  have waits : (s.ca.slot .directive) = none := by rw [h.ca]; exact empty
  refine ⟨s.putCa (s.ca.fill .directive kind, [.dirty 6]), ?_, ?_⟩
  · have stands := h.putCa (u.ca.deposited kind, [.dirty 6])
    rw [loggedOf_dirty, queuedOf_dirty, loggedOf_nil, queuedOf_nil, List.append_nil, List.append_nil] at stands
    rw [h.ca]
    exact stands
  · simp [State.handle, State.deposit, Ca.accept, waits]

/-- A deposit at a free mechanism, with nothing else waiting, is granted at once (R130, R135, R136). -/
theorem handled_deposit_grant (available : u.tmc.available = true) (idle : u.ca.inService = none)
    (openArbiter : u.arbiterOpen = true) (unmasked : u.ca.masks.directive = false)
    (empty : ∀ source, u.ca.slots.get source = none) (allowed : u.tmc.refusal? kind = none) :
    Handled (.deposit .directive kind) u
      { u with ca := { u.ca with inService := some ⟨kind, .directive, u.ca.levels.directive⟩ },
               tmc := (u.tmc.begin ⟨kind, .directive, u.ca.levels.directive⟩).1 }
      (loggedOf (u.tmc.begin ⟨kind, .directive, u.ca.levels.directive⟩).2)
      (queuedOf (u.tmc.begin ⟨kind, .directive, u.ca.levels.directive⟩).2) := by
  intro s before queue h
  obtain ⟨k, stands, shape⟩ := h.deposit (kind := kind) (empty .directive)
  have best : (u.ca.deposited kind).best? = some (.directive, ⟨kind, u.ca.levels.directive⟩) :=
    Ca.best?_only (source := .directive) rfl
      (fun other differs => ((PerSource.get_set _ .directive other _).trans (if_neg differs.symm)).trans (empty other)) unmasked
  have free : k.mechanismFree = true := by
    rw [State.mechanismFree, stands.tmc, stands.ca, available]
    simp [Ca.deposited, idle]
  have selected : k.afterDeposit .directive = k.grant .directive ⟨kind, u.ca.levels.directive⟩ := by
    rw [State.afterDeposit, if_pos free]
    refine select_grants ?_ ?_ ?_ ?_ ?_
    · rw [stands.tmc]; exact available
    · rw [stands.ca]; exact idle
    · rw [State.arbiterOpen, stands.cu]; exact openArbiter
    · rw [stands.ca]; exact best
    · rw [stands.tmc]; exact allowed
  have emptied : (u.ca.deposited kind).empty .directive = u.ca :=
    congrArg (fun slots => ({ u.ca with slots := slots } : Ca))
      (PerSource.set_none_set (empty .directive) (some ⟨kind, u.ca.levels.directive⟩))
  rw [shape, selected]
  have granted := stands.grant .directive ⟨kind, u.ca.levels.directive⟩
  rw [emptied, show slotEmptyNotice .directive = [] from rfl, List.append_nil] at granted
  exact granted

/-- A deposit that neither finds the mechanism free nor preempts waits in its slot (R141). -/
theorem handled_deposit_waits (empty : u.ca.slots.directive = none) (busy : u.ca.inService ≠ none)
    (kept : ∀ k : State, k.tmc = u.tmc → k.cu = u.cu → k.ca = u.ca.deposited kind →
      k.preempts .directive ⟨kind, u.ca.levels.directive⟩ = false) :
    Handled (.deposit .directive kind) u { u with ca := u.ca.deposited kind } [] [] := by
  intro s before queue h
  obtain ⟨k, stands, shape⟩ := h.deposit (kind := kind) empty
  have busy' : k.ca.inService ≠ none := by rw [stands.ca]; exact busy
  have taken : k.mechanismFree ≠ true := by
    cases service : k.ca.inService with
    | none => exact absurd service busy'
    | some op => simp [State.mechanismFree, service]
  have waits : k.ca.slot .directive = some ⟨kind, u.ca.levels.directive⟩ := by rw [stands.ca]; rfl
  have still : k.afterDeposit .directive = k := by
    simp only [State.afterDeposit, if_neg taken, waits, kept k stands.tmc stands.cu stands.ca, Bool.false_eq_true, if_false]
  rw [shape, still]
  simpa using stands

end

/-! ### A request directive deposited -/

/-- The request directive deposits its kind, once its operands have passed (R26, R131). -/
theorem exec_request {c : Instr} {q : RequestRow} (row : requestOf c = some q) (s : State)
    (slot : ∀ slot, q.kind = .changeTo slot → slot ≤ 120 ∧ (s.tmc.n = 0 ∨ slot ≤ s.tmc.n)) :
    ∃ owner : State → State × Result, exec c s = .next (s.run (State.takeRow q.code owner)) ∧
      ∀ k : State, k.tmc = s.tmc → k.ca = s.ca → s.ca.slots.directive = none →
        owner k = (k.post [.deposit .directive q.kind], q.result) := by
  have deposits (k : State) (kind : OpKind) (result : Result) (same : k.ca = s.ca) (empty : s.ca.slots.directive = none) :
      k.depositDirective kind result = (k.post [.deposit .directive kind], result) := by
    have none_waits : (k.ca.slot .directive).isSome = false := by rw [same]; simp [Ca.slot, PerSource.get, empty]
    simp [State.depositDirective, none_waits]
  cases c with
  | home =>
    obtain rfl := Option.some.inj row
    exact ⟨dirHome, rfl, fun k _ same empty => deposits k _ _ same empty⟩
  | gotoSlot target =>
    obtain rfl := Option.some.inj row
    refine ⟨dirGotoSlot target, rfl, fun k tray same empty => ?_⟩
    have allowed : k.tmc.slotAllowed target.toNat = true := by
      obtain ⟨small, inside⟩ := slot target.toNat rfl
      simpa [Tmc.slotAllowed, tray, small] using inside
    rw [dirGotoSlot, if_pos allowed]
    exact deposits k _ _ same empty
  | moveBy step =>
    obtain rfl := Option.some.inj row
    refine ⟨dirMoveBy step, rfl, fun k _ same empty => ?_⟩
    have clamped : (if clampStep step.toInt = step.toInt then Result.done else .clamped) =
        if step.toInt < -9 ∨ 9 < step.toInt then .clamped else .done := by
      unfold clampStep
      split <;> split <;> first | rfl | omega
    rw [dirMoveBy, deposits k _ _ same empty, clamped]
    rfl
  | clearGate =>
    obtain rfl := Option.some.inj row
    exact ⟨dirClearGate, rfl, fun k _ same empty => deposits k _ _ same empty⟩
  | _ => exact (Option.some_ne_none _ row.symm).elim

theorem request_runs {c : Instr} {q : RequestRow} (row : requestOf c = some q) (s : State) : ∃ t, exec c s = .next t := by
  cases c <;> first | exact ⟨_, rfl⟩ | exact (Option.some_ne_none _ row.symm).elim

/-- A request directive whose operands pass is answered with their result, and its deposit is taken (R26, R131). -/
theorem request_took {c : Instr} {q : RequestRow} (row : requestOf c = some q) {s t : State} (run : exec c s = .next t)
    (ready : Ready s) (slot : ∀ slot, q.kind = .changeTo slot → slot ≤ 120 ∧ (s.tmc.n = 0 ∨ slot ≤ s.tmc.n))
    (empty : s.ca.slots.directive = none) {u' : State} {later : List (Event × Half)}
    (leads : ∀ dd, Leads Config.cascadeFuel { s with dd := dd } [.deposit .directive q.kind] { u' with dd := dd } later) :
    Took q.code q.result s u' later t := by
  obtain ⟨owner, runs, deposits⟩ := exec_request row s slot
  obtain rfl := Host.Outcome.next.inj (runs.symm.trans run)
  refine row_took (events := []) ready (fun dd k before h => ?_) leads
  rw [deposits k h.tmc h.ca empty]
  exact ⟨rfl, h.post [.deposit .directive q.kind]⟩

/-! ### O9 -/

/-- Settles O9: the grant darkens, or takes the short path. -/
theorem requestsGranted : Obligations.RequestsGranted := by
  refine ⟨fun c s ready state homed idle empty unmasked cutoff q row slots g target far => ?_,
    fun slot s ready state homed idle empty unmasked cutoff tray inside small here loaded => ?_⟩
  · subst target
    have available : s.tmc.available = true := by simp [Tmc.available, state]
    have allowed : s.tmc.refusal? q.kind = none := by
      cases kind : q.kind with
      | changeTo slot => simp [Tmc.refusal?, state, (slots slot kind).2.1]
      | home => simp [Tmc.refusal?, state]
      | moveBy k => simp [Tmc.refusal?, state]
      | clearGate => simp [Tmc.refusal?, state]
    have begins := Tmc.begin_darkens (t := s.tmc) (op := ⟨q.kind, .directive, s.ca.levels.directive⟩) homed far
    obtain ⟨notices, darken, limit, target, op, home⟩ := begins
    have granted (dd : Dd) := handled_deposit_grant (u := { s with dd := dd }) (kind := q.kind) available idle
      (arbiterOpen_iff.mpr cutoff) unmasked empty allowed
    simp only [notices] at granted
    obtain ⟨t, run⟩ := request_runs row s
    have took := request_took (u' := { s with
        ca := { s.ca with inService := some ⟨q.kind, .directive, s.ca.levels.directive⟩ }
        tmc := (s.tmc.begin ⟨q.kind, .directive, s.ca.levels.directive⟩).1
        lc := s.lc.takeDarken s.tmc.outTime s.tmc.blackout }) row run ready
      (fun slot kind => ⟨(slots slot kind).2.2, .inr (slots slot kind).2.1⟩) (empty .directive)
      fun dd => .cons (granted dd) (.cons (handled_darken _ _ _) (.nil _ _))
    refine ⟨t, run, ?_⟩
    rw [took.tmc, took.lc, took.ca]
    refine ⟨darken, limit, target, op, rfl, home, Lc.takeDarken_holdLevel, Lc.takeDarken_dark, Lc.takeDarken_lit,
      took.answered rfl fun p hp => ?_⟩
    cases p <;> simp [Part.same] at hp ⊢
  · have available : s.tmc.available = true := by simp [Tmc.available, state]
    have allowed : s.tmc.refusal? (.changeTo slot.toNat) = none := by simp [Tmc.refusal?, state, inside]
    have short := Tmc.begin_short (t := s.tmc) (op := ⟨.changeTo slot.toNat, .directive, s.ca.levels.directive⟩) rfl here
      loaded
    have granted (dd : Dd) := handled_deposit_grant (u := { s with dd := dd }) (kind := .changeTo slot.toNat) available idle
      (arbiterOpen_iff.mpr cutoff) unmasked empty allowed
    simp only [short] at granted
    obtain ⟨t, run⟩ := request_runs (c := .gotoSlot slot) rfl s
    have took := request_took (c := .gotoSlot slot) (u' := { s with
        ca := { s.ca with inService := none }
        tmc := { s.tmc with
          op := none, fromUnhomed := s.tmc.state == .unhomed, fromDark := s.tmc.gate == .empty && s.tmc.darkenStanding,
          liftRetried := false, seatRetried := false, redirect := false, homing := false, arrivals := 0,
          target := some slot.toNat, state := .ready } }) rfl run ready
      (fun slot' kind => by cases kind; exact ⟨small, .inr inside⟩) (empty .directive)
      fun dd => .cons (granted dd) (leads_outcome_idle (by rfl) (.inl (by rfl)) (by exact empty) .done 509)
    refine ⟨t, run, ?_⟩
    have shown : s.tmc.reportedP = s.tmc.p := by simp [Tmc.reportedP, homed]
    rw [took.tmc, took.ca, ← shown]
    refine ⟨rfl, by rw [shown], loaded, rfl, rfl, rfl, rfl, took.answered rfl fun p hp => ?_⟩
    cases p <;> simp [Part.same] at hp ⊢

end Sys2Proof.Machine
end

section
/-! ## Preemption (R22, R23, R141, R142) -/

namespace Sys2Proof.Machine

open Sys2Proof.Safety

/-! ### What a preempting operation makes of the mechanism -/

/-- The mechanism that a preempting operation is planned on: a HOME in DARKEN begins as one that is granted does (R14, R22). -/
def preemptedBy (t : Tmc) (kind : OpKind) : Tmc :=
  if kind = .home ∧ t.state = .darken then
    { t with homing := true, homed := false, display := 0xFFF, gate := if t.sensors.gslide then .loaded else .empty }
  else t

section

variable {t : Tmc} {op : Operation}

/-- A preempting operation that is not done at once is planned, in DARKEN for the phases that follow and in TURN for the next
arrival. -/
theorem Tmc.preempt_plans (homed : t.homed = true) (phase : t.state = .darken ∨ t.state = .turn)
    (far : ¬ (changesSlide op.kind = true ∧ targetOf t op.kind = t.p ∧ t.gate = .loaded)) :
    t.preempt op = ({ preemptedBy t op.kind with
      op := some op, fromUnhomed := false, liftRetried := false, seatRetried := false, target := some (targetOf t op.kind),
      redirect := if t.state = .turn then true else t.redirect }, []) := by
  obtain ⟨kind, source, level⟩ := op
  rcases phase with darken | turn
  · cases kind
    case home =>
      simp [Tmc.preempt, Tmc.preemptDarken, Tmc.beginHome, Tmc.unhome, Tmc.sampleGate, dashes, preemptedBy, targetOf, darken]
    case clearGate => simp [Tmc.preempt, Tmc.preemptDarken, preemptedBy, targetOf, darken, homed]
    case changeTo slot =>
      have away : ¬ (slot = t.p ∧ t.gate = .loaded) := fun h => far ⟨rfl, h⟩
      simp [Tmc.preempt, Tmc.preemptDarken, Tmc.resolve, preemptedBy, targetOf, darken, away]
    case moveBy k =>
      have away : ¬ (targetOf t (.moveBy k) = t.p ∧ t.gate = .loaded) := fun h => far ⟨rfl, h⟩
      simp only [targetOf] at away
      simp [Tmc.preempt, Tmc.preemptDarken, Tmc.resolve, preemptedBy, targetOf, darken, away]
  · cases kind <;> simp [Tmc.preempt, Tmc.preemptTurn, Tmc.resolve, preemptedBy, targetOf, turn, homed]

/-- A preempting change to the slot that stands in the lit gate is done at once, and the lamp released (R22, R49). -/
theorem Tmc.preempt_short (darken : t.state = .darken) (change : changesSlide op.kind = true)
    (here : targetOf t op.kind = t.p) (loaded : t.gate = .loaded) :
    t.preempt op = ({ t with op := none, fromUnhomed := false, liftRetried := false, seatRetried := false,
                             target := some (targetOf t op.kind), redirect := false, state := .ready, darkenLimit := none,
                             darkenStanding := false },
      [.release t.inTime, .dirty 1, .log .changeDone (argPair op.source.number t.reportedP), .outcome op .done]) := by
  obtain ⟨kind, source, level⟩ := op
  cases kind
  case home => exact absurd change Bool.false_ne_true
  case clearGate => exact absurd change Bool.false_ne_true
  case changeTo slot =>
    simp only [targetOf] at here
    simp [Tmc.preempt, Tmc.preemptDarken, Tmc.resolve, Tmc.shortPath, Tmc.conclude, Tmc.reportedSource, Tmc.reportedP,
      targetOf, darken, here, loaded]
  case moveBy k =>
    simp only [targetOf] at here
    simp [Tmc.preempt, Tmc.preemptDarken, Tmc.resolve, Tmc.shortPath, Tmc.conclude, Tmc.reportedSource, Tmc.reportedP,
      targetOf, darken, here, loaded]

end

/-! ### The arbiter's side -/

section

variable {u : State} {kind : OpKind} {old : Operation}

/-- When a directive's record preempts: it is unmasked and of strictly lower level, the mechanism is homed in DARKEN or TURN,
and the arbiter is open (R22, R141). -/
theorem preempts_iff {k : State} {level : BitVec 2} (service : k.ca.inService = some old) (sound : Mechanism k.tmc)
    (inside : ∀ slot, kind = .changeTo slot → slot ≤ k.tmc.n) :
    k.preempts .directive ⟨kind, level⟩ = true ↔
      k.ca.masks.directive = false ∧ level < old.level ∧ k.tmc.homed = true ∧
        (k.tmc.state = .darken ∨ k.tmc.state = .turn) ∧ (k.cu.flag = false ∨ k.cu.traySel = .ignore) := by
  have asked : k.preempts .directive ⟨kind, level⟩ = (!k.ca.masks.directive && decide (level < old.level) &&
      k.tmc.preemptible && k.tmc.homed && k.arbiterOpen) := by
    cases kind with
    | changeTo slot => simp [State.preempts, service, PerSource.get, inside slot rfl]
    | _ => simp [State.preempts, service, PerSource.get]
  have counts : k.tmc.homed = true → k.tmc.homing = false := fun homed => by
    by_contra seeks
    have := sound.homing (by simpa using seeks)
    simp [homed] at this
  have phase (homed : k.tmc.homed = true) :
      k.tmc.preemptible = true ↔ k.tmc.state = .darken ∨ k.tmc.state = .turn := by
    simp [Tmc.preemptible, counts homed]
  simp only [asked, Bool.and_eq_true, arbiterOpen_iff, decide_eq_true_eq, Bool.not_eq_true']
  constructor
  · rintro ⟨⟨⟨⟨mask, lower⟩, accepts⟩, homed⟩, cutoff⟩
    exact ⟨mask, lower, homed, (phase homed).mp accepts, cutoff⟩
  · rintro ⟨mask, lower, homed, phase', cutoff⟩
    exact ⟨⟨⟨⟨mask, lower⟩, (phase homed).mpr phase'⟩, homed⟩, cutoff⟩

/-- A deposit that preempts is moved into service over the operation there, which is told so (R142). -/
theorem handled_deposit_preempt (empty : u.ca.slots.directive = none) (service : u.ca.inService = some old)
    (source : old.source = .directive ∨ old.source = .remote ∨ old.source = .tape)
    (preempts : ∀ k : State, k.tmc = u.tmc → k.cu = u.cu → k.ca = u.ca.deposited kind →
      k.preempts .directive ⟨kind, u.ca.levels.directive⟩ = true) :
    Handled (.deposit .directive kind) u
      { u with ca := { u.ca with inService := some ⟨kind, .directive, u.ca.levels.directive⟩ },
               tmc := (u.tmc.preempt ⟨kind, .directive, u.ca.levels.directive⟩).1 }
      ((.preempted, argPair old.source.number u.tmc.reportedP) ::
        loggedOf (u.tmc.preempt ⟨kind, .directive, u.ca.levels.directive⟩).2)
      (queuedOf (u.tmc.preempt ⟨kind, .directive, u.ca.levels.directive⟩).2) := by
  intro s before queue h
  obtain ⟨k, stands, shape⟩ := h.deposit (kind := kind) empty
  have serves : k.ca.inService = some old := by rw [stands.ca]; exact service
  have taken : k.mechanismFree ≠ true := by simp [State.mechanismFree, serves]
  have waits : k.ca.slot .directive = some ⟨kind, u.ca.levels.directive⟩ := by rw [stands.ca]; rfl
  have emptied : k.ca.empty .directive = u.ca := by
    rw [stands.ca]
    exact congrArg (fun slots => ({ u.ca with slots := slots } : Ca))
      (PerSource.set_none_set (source := .directive) empty (some ⟨kind, u.ca.levels.directive⟩))
  have acts : k.afterDeposit .directive =
      (k.putCa ({ u.ca with inService := some ⟨kind, .directive, u.ca.levels.directive⟩ },
        [.log .preempted (argPair old.source.number k.tmc.reportedP), .dirty 6])).putTmc
        (k.tmc.preempt ⟨kind, .directive, u.ca.levels.directive⟩) := by
    simp [State.afterDeposit, taken, waits, preempts k stands.tmc stands.cu stands.ca, State.preemptWith, serves,
      deliverNotice_unnotified source, emptied, slotEmptyNotice, Source.notified]
  have moved := (stands.putCa ({ u.ca with inService := some ⟨kind, .directive, u.ca.levels.directive⟩ },
    [.log .preempted (argPair old.source.number k.tmc.reportedP), .dirty 6])).putTmc
    (k.tmc.preempt ⟨kind, .directive, u.ca.levels.directive⟩)
  rw [shape, acts]
  rw [stands.tmc] at moved ⊢
  simpa [queuedOf_log] using moved

end

/-! ### O38 -/

/-- Settles O38, by whether the record preempts and whether its target stands in the lit gate. -/
theorem preemption : Obligations.Preemption := by
  rintro c s ready sound q row old service serves empty tray inside g rfl new rfl may may_iff standing standing_iff
  have small : ∀ slot, q.kind = .changeTo slot → slot ≤ 120 ∧ (s.tmc.n = 0 ∨ slot ≤ s.tmc.n) := fun slot kind =>
    ⟨(inside slot kind).trans (sound.size ▸ codeSize_le _), .inr (inside slot kind)⟩
  have asks : ∀ k : State, k.tmc = s.tmc → k.cu = s.cu → k.ca = s.ca.deposited q.kind →
      k.preempts .directive ⟨q.kind, s.ca.levels.directive⟩ = may := fun k tmc cu ca => by
    rw [Bool.eq_iff_iff, preempts_iff (old := old) (by rw [ca]; exact serves) (by rw [tmc]; exact sound)
      (by rw [tmc]; exact inside), may_iff, decide_eq_true_iff, tmc, cu, ca]
    rfl
  obtain ⟨t, run⟩ := request_runs row s
  refine ⟨t, run, ?_, ?_⟩
  · rintro rfl from_
    obtain ⟨_, _, homed, phase, _⟩ := decide_eq_true_iff.mp may_iff.symm
    have shown : s.tmc.reportedP = s.tmc.p := by simp [Tmc.reportedP, homed]
    have taken (dd : Dd) := handled_deposit_preempt (u := { s with dd := dd }) empty serves from_ asks
    simp only [shown] at taken
    refine ⟨?_, ?_⟩
    · rintro rfl m rfl
      have plans := Tmc.preempt_plans (op := ⟨q.kind, .directive, s.ca.levels.directive⟩) homed phase
        (of_decide_eq_false standing_iff.symm)
      simp only [congrArg Prod.snd plans] at taken
      have took := request_took (u' := { s with
          ca := { s.ca with inService := some ⟨q.kind, .directive, s.ca.levels.directive⟩ }
          tmc := (s.tmc.preempt ⟨q.kind, .directive, s.ca.levels.directive⟩).1 }) row run ready small empty
        fun dd => .cons (taken dd) (.nil _ _)
      refine ⟨took.ca, took.tmc.trans (congrArg Prod.fst plans), took.answered rfl fun p hp => ?_⟩
      cases p <;> simp [Part.same] at hp ⊢
    · rintro rfl
      obtain ⟨change, here, loaded⟩ := decide_eq_true_iff.mp standing_iff.symm
      have darken : s.tmc.state = .darken := phase.resolve_right fun turn => by simp [(sound.lifted turn).2] at loaded
      have short := Tmc.preempt_short (op := ⟨q.kind, .directive, s.ca.levels.directive⟩) darken change here loaded
      refine ⟨darken, fun alone => ?_⟩
      simp only [congrArg Prod.snd short, shown] at taken
      have took := request_took (u' := { s with
          ca := { s.ca with inService := none }
          tmc := (s.tmc.preempt ⟨q.kind, .directive, s.ca.levels.directive⟩).1
          lc := s.lc.takeRelease s.tmc.inTime }) row run ready small empty
        fun dd => .cons (taken dd) (.cons (handled_release _ _)
          (leads_outcome_idle (by rfl) (.inl (by rfl)) (by exact alone) .done 508))
      refine ⟨took.ca, took.tmc.trans (congrArg Prod.fst short), fun dark => took.lc ▸ Lc.takeRelease_hold dark _,
        fun lit held => took.lc ▸ Lc.takeRelease_lit lit held _, took.answered rfl fun p hp => ?_⟩
      cases p <;> simp [Part.same] at hp ⊢
  · rintro rfl
    have took := request_took (u' := { s with ca := s.ca.deposited q.kind }) row run ready small empty
      fun dd => .cons (handled_deposit_waits (u := { s with dd := dd }) empty (by simp [serves]) asks) (.nil _ _)
    refine ⟨took.ca, took.answered rfl fun p hp => ?_⟩
    cases p <;> simp [Part.same] at hp ⊢

end Sys2Proof.Machine
end

section
/-! ## The arbiter's choice (R133 to R136) and ARB_MASK -/

namespace Sys2Proof.Machine

open Sys2Proof.Safety

/-! ### The candidates and the best of them -/

/-- A candidate is a record of an unmasked source (R135). -/
theorem Ca.mem_candidates {ca : Ca} {source : Source} {r : Request} :
    (source, r) ∈ ca.candidates ↔ ca.masks.get source = false ∧ ca.slots.get source = some r := by
  have all : source ∈ Source.all := by cases source <;> decide
  simp only [Ca.candidates, List.mem_filterMap, Ca.slot]
  constructor
  · rintro ⟨from_, _, found⟩
    cases masked : ca.masks.get from_ <;> simp only [masked, Bool.false_eq_true, if_false, if_true, reduceCtorEq,
      Option.map_eq_some_iff, Prod.mk.injEq] at found
    obtain ⟨q, waits, rfl, rfl⟩ := found
    exact ⟨masked, waits⟩
  · rintro ⟨masked, waits⟩
    exact ⟨source, all, by simp [masked, waits]⟩

/-- The candidates stand in rank order (R135). -/
theorem Ca.candidates_ranked (ca : Ca) : ca.candidates.Pairwise fun a b => a.1.number < b.1.number := by
  have ranked : Source.all.Pairwise fun a b => a.number < b.number := by decide
  refine ranked.filterMap _ ?_
  intro a b lower x hx y hy
  have from_ {c : Source} {z : Source × Request}
      (h : (if ca.masks.get c then none else (ca.slot c).map fun r => (c, r)) = some z) : z.1 = c := by
    split at h
    · cases h
    · obtain ⟨r, _, rfl⟩ := Option.map_eq_some_iff.mp h
      rfl
  rw [from_ hx, from_ hy]
  exact lower

/-- `b` comes before `x` in a choice: it has the lower level number, or the same and no higher rank (R136). -/
def Before (b x : Source × Request) : Prop :=
  b.2.level < x.2.level ∨ b.2.level = x.2.level ∧ b.1.number ≤ x.1.number

/-- The best of a ranked list is one of its members and comes before all of them. -/
theorem foldl_better (rest : List (Source × Request)) (c : Source × Request)
    (ranked : (c :: rest).Pairwise fun a b => a.1.number < b.1.number) :
    rest.foldl better c ∈ c :: rest ∧ ∀ x ∈ c :: rest, Before (rest.foldl better c) x := by
  induction rest generalizing c with
  | nil => exact ⟨List.mem_singleton_self c, fun x hx => by rw [List.mem_singleton.mp hx]; exact .inr ⟨rfl, le_rfl⟩⟩
  | cons d rest ih =>
    obtain ⟨above, dr⟩ := List.pairwise_cons.mp ranked
    obtain ⟨_, rr⟩ := List.pairwise_cons.mp dr
    rw [List.foldl_cons]
    by_cases lower : d.2.level < c.2.level
    · rw [better, if_pos lower]
      obtain ⟨member, first⟩ := ih d dr
      refine ⟨List.mem_cons_of_mem _ member, fun x hx => ?_⟩
      rcases List.mem_cons.mp hx with rfl | hx
      · refine .inl ?_
        rcases first d List.mem_cons_self with less | ⟨same, _⟩
        · exact BitVec.lt_trans less lower
        · rw [same]; exact lower
      · exact first x hx
    · rw [better, if_neg lower]
      obtain ⟨member, first⟩ := ih c (List.pairwise_cons.mpr ⟨fun a ha => above a (List.mem_cons_of_mem _ ha), rr⟩)
      have standing : c.2.level ≤ d.2.level := BitVec.not_lt.mp lower
      refine ⟨?_, fun x hx => ?_⟩
      · rcases List.mem_cons.mp member with same | later
        · rw [same]; exact List.mem_cons_self
        · exact List.mem_cons_of_mem _ (List.mem_cons_of_mem _ later)
      · rcases List.mem_cons.mp hx with rfl | hx
        · exact first x List.mem_cons_self
        · rcases List.mem_cons.mp hx with rfl | hx
          · have rank := above x List.mem_cons_self
            rcases first c List.mem_cons_self with less | ⟨same, order⟩
            · exact .inl (show (rest.foldl better c).2.level.toNat < x.2.level.toNat from lt_of_lt_of_le less standing)
            · by_cases equal : c.2.level = x.2.level
              · exact .inr ⟨same.trans equal, order.trans rank.le⟩
              · exact .inl (same ▸ show c.2.level.toNat < x.2.level.toNat from
                  lt_of_le_of_ne standing fun e => equal (BitVec.eq_of_toNat_eq e))
          · exact first x (List.mem_cons_of_mem _ hx)

/-- There is a choice exactly where an unmasked source holds a record (R135). -/
theorem Ca.best?_none {ca : Ca} :
    ca.best? = none ↔ ∀ source, ca.masks.get source = true ∨ ca.slots.get source = none := by
  have nobody : ca.best? = none ↔ ca.candidates = [] := by
    unfold Ca.best?
    split <;> simp_all
  rw [nobody, List.eq_nil_iff_forall_not_mem]
  constructor
  · intro none_waits source
    cases masked : ca.masks.get source with
    | true => exact .inl rfl
    | false =>
      cases waits : ca.slots.get source with
      | none => exact .inr rfl
      | some r => exact absurd (Ca.mem_candidates.mpr ⟨masked, waits⟩) (none_waits (source, r))
  · rintro still ⟨source, r⟩ member
    obtain ⟨masked, waits⟩ := Ca.mem_candidates.mp member
    rcases still source with h | h
    · rw [masked] at h; cases h
    · rw [waits] at h; cases h

/-- The choice is an unmasked source's record, before every other one (R135, R136). -/
theorem Ca.best?_some {ca : Ca} {best : Source × Request} (chosen : ca.best? = some best) :
    ca.masks.get best.1 = false ∧ ca.slots.get best.1 = some best.2 ∧
      ∀ source, ca.masks.get source = false → ∀ r, ca.slots.get source = some r → Before best (source, r) := by
  have ranked := ca.candidates_ranked
  unfold Ca.best? at chosen
  split at chosen
  · cases chosen
  · next c rest list =>
    rw [list] at ranked
    obtain ⟨member, first⟩ := foldl_better rest c ranked
    obtain rfl := Option.some.inj chosen
    rw [← list] at member first
    obtain ⟨masked, waits⟩ := Ca.mem_candidates.mp member
    exact ⟨masked, waits, fun source unmasked r pending => first _ (Ca.mem_candidates.mpr ⟨unmasked, pending⟩)⟩

/-! ### The owner of a record that leaves its slot (R155, R175) -/

/-- The engine's marker moves into service with its record (R175). -/
def markerMoved (ce : Ce) (source : Source) : Ce :=
  if source = .cue ∧ ce.pendingMarker ≠ none then
    { ce with serviceMarker := ce.pendingMarker, pendingMarker := none }
  else ce

/-- The channels' marker moves into service with its record, and a rotating order steps on (R155). -/
def runMarkerMoved (rcu : Rcu) (source : Source) : Rcu :=
  match source, rcu.pendingMarker with
  | .run, some m => { rcu with
      serviceMarker := some m, pendingMarker := none,
      pointer := if rcu.rotating = true ∧ m.detached = false then m.channel + 1 else rcu.pointer }
  | _, _ => rcu

/-- Without a RUN record, or a marker for it, the channels stay (R155). -/
theorem runMarkerMoved_other {rcu : Rcu} {source : Source} (other : source ≠ .run ∨ rcu.pendingMarker = none) :
    runMarkerMoved rcu source = rcu := by
  unfold runMarkerMoved
  split
  · next marker => simp [marker] at other
  · rfl

/-- No channel waits to be presented beside the one whose record is at the arbiter (R154). -/
def NoneWaits (rcu : Rcu) : Prop := ∀ c, (rcu.channels.get c).mask = true ∨ (rcu.channels.get c).request = false ∨
  rcu.pendingMarker = some ⟨c, false⟩

/-- With no channel to present there is no choice (R154). -/
theorem Rcu.choose_none {u : Rcu} (nobody : ∀ c, u.candidate c = false) : u.choose = (u, []) := by
  have found : u.lookOrder.find? u.candidate = none := List.find?_eq_none.mpr fun c _ => by simp [nobody c]
  unfold Rcu.choose
  split
  · rfl
  · rw [found]

theorem Rcu.slotEmptied_idle {u : Rcu} (idle : NoneWaits u) : u.slotEmptied = (runMarkerMoved u .run, []) := by
  cases marker : u.pendingMarker with
  | none =>
    have nobody (c : BitVec 2) : u.candidate c = false := by
      rcases idle c with h | h | h
      · simp [Rcu.candidate, h]
      · simp [Rcu.candidate, h]
      · rw [marker] at h; cases h
    simp [Rcu.slotEmptied, runMarkerMoved, marker, Rcu.choose_none nobody]
  | some m =>
    have nobody (c : BitVec 2) : (runMarkerMoved u .run).candidate c = false := by
      rcases idle c with h | h | h
      · simp [Rcu.candidate, runMarkerMoved, marker, h]
      · simp [Rcu.candidate, runMarkerMoved, marker, h]
      · rw [marker] at h
        obtain rfl := Option.some.inj h
        simp [Rcu.candidate, Rcu.placed, RunMarker.names, runMarkerMoved, marker]
    have moved := Rcu.choose_none nobody
    simp only [runMarkerMoved, marker] at moved ⊢
    simp only [Rcu.slotEmptied, marker, moved]

theorem Ce.slotEmptied_idle {ce : Ce} (idle : ¬ (ce.showState = .running ∧ ce.phase = .held)) (free : Bool) :
    ce.slotEmptied free = (markerMoved ce .cue, []) := by
  cases marker : ce.pendingMarker <;> simp [Ce.slotEmptied, Ce.offer, markerMoved, marker, idle]

/-- The owner of the record that is granted moves its marker, and the lamp is asked to darken (R46, R155, R175). -/
theorem leads_granted {u : State} {source : Source} (show_ : source = .cue → ¬ (u.ce.showState = .running ∧ u.ce.phase = .held))
    (run : source = .run → NoneWaits u.rcu) (outTime b fuel : Nat) :
    Leads (fuel + 2) u (slotEmptyNotice source ++ [.darken outTime b])
      { u with ce := markerMoved u.ce source, rcu := runMarkerMoved u.rcu source, lc := u.lc.takeDarken outTime b } [] := by
  have plain (quiet : slotEmptyNotice source = []) (ce : markerMoved u.ce source = u.ce)
      (rcu : runMarkerMoved u.rcu source = u.rcu) : Leads (fuel + 2) u (slotEmptyNotice source ++ [.darken outTime b])
      { u with ce := markerMoved u.ce source, rcu := runMarkerMoved u.rcu source, lc := u.lc.takeDarken outTime b } [] := by
    rw [quiet, ce, rcu]
    exact .cons (handled_darken u outTime b) (.nil _ _)
  cases source with
  | directive => exact plain rfl rfl rfl
  | remote => exact plain rfl rfl rfl
  | tape => exact plain rfl rfl rfl
  | cue =>
    have told : Handled (.slotEmpty .cue) u { u with ce := markerMoved u.ce .cue } [] [] := fun s before queue k => by
      rw [State.handle, State.slotEmptied, k.ce, Ce.slotEmptied_idle (show_ rfl)]
      simpa using k.putCe (markerMoved u.ce .cue, [])
    exact .cons told (.cons (handled_darken _ outTime b) (.nil _ _))
  | run =>
    have told : Handled (.slotEmpty .run) u { u with rcu := runMarkerMoved u.rcu .run } [] [] := fun s before queue k => by
      rw [State.handle, State.slotEmptied, k.rcu, Rcu.slotEmptied_idle (run rfl)]
      simpa using k.putRcu (runMarkerMoved u.rcu .run, [])
    exact .cons told (.cons (handled_darken _ outTime b) (.nil _ _))

/-! ### Merging (R133) -/

/-- A step merges with the record that waits, and a change or a CLEAR_GATE replaces it. -/
theorem mergeKinds_cases (n t : Nat) (j : Int) :
    (∀ k : Int, mergeKinds n (.moveBy k) (.moveBy j) = .moveBy (max (-9) (min 9 (k + j)))) ∧
    (n ≠ 0 → t ≤ n → mergeKinds n (.changeTo t) (.moveBy j) = .changeTo (((t : Int) + j) % (n + 1)).toNat) ∧
    (n = 0 ∨ n < t → mergeKinds n (.changeTo t) (.moveBy j) = .moveBy j) ∧
    mergeKinds n .clearGate (.moveBy j) = .moveBy j ∧
    ∀ old slot, mergeKinds n old (.changeTo slot) = .changeTo slot ∧ mergeKinds n old .clearGate = .clearGate := by
  refine ⟨fun _ => rfl, fun tray inside => ?_, fun none => ?_, rfl, fun old slot => ?_⟩
  · simp only [mergeKinds, if_pos (And.intro tray inside)]
  · have outside : ¬ (n ≠ 0 ∧ t ≤ n) := fun h => none.elim h.1 fun above => absurd h.2 (Nat.not_le.mpr above)
    simp only [mergeKinds, if_neg outside]
  · cases old <;> exact ⟨rfl, rfl⟩

/-! ### O37 -/

/-- A mask that is cleared asks for a selection (R134, R135). -/
theorem setMasks_select {ca : Ca} {b : Byte} (small : b.toNat < 32)
    (clears : ∃ source, ca.masks.get source = true ∧ (masksOf b).get source = false) :
    ca.setMasks b = (({ ca with masks := masksOf b }, [.select]), .done) := by
  obtain ⟨source, masked, unmasked⟩ := clears
  have asks : ca.unmasks (masksOf b) = true := by
    refine List.any_eq_true.mpr ⟨source, by cases source <;> decide, by simp [masked, unmasked]⟩
  simp [Ca.setMasks, Nat.not_le.mpr small, asks]

/-- Settles O37: the choice, the merge, and the grant that ARB_MASK leads to. -/
theorem arbiterChoice : Obligations.ArbiterChoice := by
  refine ⟨fun s => ⟨Ca.best?_none, fun best chosen => Ca.best?_some chosen⟩, fun n t j _ _ => mergeKinds_cases n t j, ?_⟩
  rintro b s ready small ca rfl clears state homed idle cutoff ⟨source, r⟩ chosen op rfl g rfl inside far show_ run
  have available : s.tmc.available = true := by simp [Tmc.available, state]
  have allowed : s.tmc.refusal? r.kind = none := by
    cases kind : r.kind with
    | changeTo slot => simp [Tmc.refusal?, state, inside slot kind]
    | home => simp [Tmc.refusal?, state]
    | moveBy k => simp [Tmc.refusal?, state]
    | clearGate => simp [Tmc.refusal?, state]
  have nobody (run_ : source = .run) : NoneWaits s.rcu := run run_
  obtain ⟨notices, darken, limit, target, service, _⟩ := Tmc.begin_darkens (op := ⟨r.kind, source, r.level⟩) homed far
  have granted (dd : Dd) := handled_select_grant (u := { s with ca := { s.ca with masks := masksOf b }, dd := dd }) available
    idle (arbiterOpen_iff.mpr cutoff) chosen allowed
  simp only [notices] at granted
  have took := row_took_ca (code := 0x51) (owner := dirArbMask b) (u' := { s with
      ca := { s.ca with masks := masksOf b, slots := s.ca.slots.set source none,
                        inService := some ⟨r.kind, source, r.level⟩ }
      tmc := (s.tmc.begin ⟨r.kind, source, r.level⟩).1
      ce := markerMoved s.ce source
      rcu := runMarkerMoved s.rcu source
      lc := s.lc.takeDarken s.tmc.outTime s.tmc.blackout }) ready ({ s.ca with masks := masksOf b }, [.select])
    (fun k same => by rw [dirArbMask, same, setMasks_select small clears])
    fun dd => .cons (granted dd) (leads_granted (by exact show_) (by exact nobody) s.tmc.outTime s.tmc.blackout 509)
  refine ⟨_, rfl, ?_⟩
  rw [took.tmc, took.lc, took.ca, took.ce, took.rcu]
  refine ⟨service, darken, limit, target, Lc.takeDarken_holdLevel, rfl, rfl, fun other => ?_, fun m marker from_ => ?_,
    took.answered rfl fun p hp => ?_⟩
  · exact runMarkerMoved_other other
  · obtain rfl : source = .run := from_
    simp [runMarkerMoved, marker]
  · cases source <;> cases p <;> simp [Part.same, markerMoved, runMarkerMoved] at hp ⊢

end Sys2Proof.Machine
end

section
/-! ## The resets (04, 11): the cutoff that a reset enters over blocks at rest -/

namespace Sys2Proof.Machine

open Sys2Proof.Safety

/-! ### The Cutoff Unit's evaluation (R87, R88) -/

/-- The numbers of the level causes that are present, in order. -/
def presentCauses (overheat thermostat interlock trayLost : Bool) : List Nat :=
  (if overheat then [0] else []) ++ (if thermostat then [1] else []) ++ (if interlock then [2] else []) ++
    (if trayLost then [3] else [])

/-- The entries of the causes that arrive at a reset: the first enters cutoff and the others are added (R75, R76). -/
def causeEntries : List Nat → List (Event × Half)
  | [] => []
  | c :: rest => (.cutoffEnter, halfOf c) :: rest.map fun k => (.cutoffCauseAdded, halfOf k)

/-- What the selections of POR lay on the other blocks at entry (R77 to R81). -/
def porImpositions : List Notice :=
  [.lampImposition .off, .trayCutoff .brake, .tapeImposition true, .audioImposition true, .fanImposition true,
    .arbiterCutoff .brake, .showCutoff]

/-- The evaluation at the end of a reset, by the causes present. -/
theorem Cu.evaluate_fresh (thermostat interlock overheat trayLost : Bool) :
    ∀ causes, causes = presentCauses overheat thermostat interlock trayLost → ∀ cut, cut = !causes.isEmpty →
    ∀ fresh, fresh = Cu.fresh thermostat interlock overheat trayLost →
    fresh.evaluate.1 = { fresh with flag := cut, causes := BitVec.ofNat 8 (causes.map (2 ^ ·)).sum,
                                    lampHanded := if cut then .off else .none } ∧
      loggedOf fresh.evaluate.2 = causeEntries causes ∧
      queuedOf fresh.evaluate.2 = if cut then porImpositions else [] := by
  rintro _ rfl _ rfl _ rfl
  revert thermostat interlock overheat trayLost
  decide

/-! ### The impositions over blocks at rest -/

/-- The blocks stand as a reset leaves them: no lamp is lit, the mechanism has no operation, the tape stands, nothing is
pending and no show is active. -/
structure AtRest (u : State) : Prop where
  lamp : u.lc.state = .off ∨ u.lc.state = .exchange ∨ u.lc.state = .failed
  intent : u.lc.restrike = false
  cap : u.lc.capLingers = false
  lampFree : u.lc.imposition = .none
  op : u.tmc.op = none
  trayFree : u.tmc.imposition = none
  motor : u.tmc.motor = .unpowered
  tape : u.ttc.state = .stopped
  level : u.ttc.level = 192
  ramp : u.ttc.ramp = none
  tapeFree : u.ttc.stopImposed = false
  soundFree : u.ttc.muteImposed = false
  fan : if u.fc.demand = 0 then u.fc.state = .stopped else u.fc.state = .spinup ∧ u.fc.grace = 4
  stalls : u.fc.stallWindows = 0
  fanFree : u.fc.full = false
  arbiter : u.ca = Ca.reset
  engine : u.ce = Ce.reset

/-- The blocks with the impositions of a cutoff on them, or with none. -/
def State.imposed (u : State) (cut : Bool) : State :=
  { u with
    lc := { u.lc with imposition := if cut then .off else .none }
    tmc := { u.tmc with imposition := if cut then some .brake else none, motor := if cut then .braked else .unpowered }
    ttc := { u.ttc with stopImposed := cut, muteImposed := cut, ramp := if cut then some ⟨192, 0, 100, 0, 0⟩ else none }
    fc := { u.fc with full := cut, demand := if cut then 255 else u.fc.demand,
                      state := if cut then .spinup else u.fc.state, grace := if cut then 4 else u.fc.grace } }

section

variable {u : State}

theorem AtRest.imposed_false (rest : AtRest u) : u.imposed false = u := by
  have lc : { u.lc with imposition := .none } = u.lc := by rw [← rest.lampFree]
  have tmc : { u.tmc with imposition := none, motor := .unpowered } = u.tmc := by rw [← rest.trayFree, ← rest.motor]
  have ttc : { u.ttc with stopImposed := false, muteImposed := false, ramp := none } = u.ttc := by
    obtain ⟨_, _, _, _, _, _, _, _, _, ramp, tape, sound, _, _, _, _, _⟩ := rest
    generalize u.ttc = t at *
    cases t
    cases ramp; cases tape; cases sound
    rfl
  have fc : { u.fc with full := false } = u.fc := by rw [← rest.fanFree]
  show ({ u with lc := { u.lc with imposition := .none }
                 tmc := { u.tmc with imposition := none, motor := .unpowered }
                 ttc := { u.ttc with stopImposed := false, muteImposed := false, ramp := none }
                 fc := { u.fc with full := false } } : State) = u
  rw [lc, tmc, ttc, fc]

/-- A lamp that is not lit takes the imposition OFF alone (R51). -/
theorem AtRest.lampOff (rest : AtRest u) (blackout inTime : Nat) :
    u.lc.impose .off blackout inTime = ({ u.lc with imposition := .off }, []) := by
  rcases rest.lamp with state | state | state <;>
    simp [Lc.impose, rest.lampFree, rest.intent, rest.cap, state, Lc.clearIntent]

/-- A fan at rest goes to FULL with its spin-up (R61, R64). -/
theorem AtRest.fanFull (rest : AtRest u) (h ds : Nat) (active : Bool) :
    u.fc.impose true h ds active = ({ u.fc with full := true, demand := 255, state := .spinup, grace := 4 }, []) := by
  have fan := rest.fan
  by_cases off : u.fc.demand = 0
  · rw [if_pos off] at fan
    simp [Fc.impose, Fc.compute, Fc.computed, Fc.follow, Fc.spinUp, off, fan, rest.stalls]
  · rw [if_neg off] at fan
    simp [Fc.impose, Fc.compute, Fc.computed, Fc.follow, off, fan]

/-- The impositions that a reset's cutoff lays on blocks at rest (R77 to R81). -/
theorem AtRest.leads (rest : AtRest u) (fuel : Nat) : Leads (fuel + 7) u porImpositions (u.imposed true) [] := by
  have lamp : Handled (.lampImposition .off) u { u with lc := { u.lc with imposition := .off } } [] [] :=
    handled_lamp (fun s e => by
      have off := rest.lampOff s.tmc.blackout s.tmc.inTime
      rw [← e] at off
      rw [State.handle, off, e]) rfl rfl rfl
  have tray (v : State) (same : v.tmc = u.tmc) : Handled (.trayCutoff .brake) v
      { v with tmc := { v.tmc with imposition := some .brake, motor := .braked } } [] [] := fun s before queue k => by
    have idle := Tmc.cutoff_idle (sel := .brake) rest.op
    rw [← same] at idle
    rw [State.handle, k.tmc, idle]
    simpa [cutoffDrive] using k.putTmc ({ v.tmc with imposition := some .brake, motor := .braked }, [])
  have tape (v : State) (same : v.ttc = u.ttc) : Handled (.tapeImposition true) v
      { v with ttc := { v.ttc with stopImposed := true } } [] [] := fun s before queue k => by
    have stands : v.ttc.imposeTape true = ({ v.ttc with stopImposed := true }, []) := by
      simp [Ttc.imposeTape, Ttc.stop, same, rest.tape]
    rw [State.handle, k.ttc, stands]
    simpa using k.putTtc ({ v.ttc with stopImposed := true }, [])
  have sound (v : State) (same : v.ttc = { u.ttc with stopImposed := true }) : Handled (.audioImposition true) v
      { v with ttc := { v.ttc with muteImposed := true, ramp := some ⟨192, 0, 100, 0, 0⟩ } } [] [] :=
      fun s before queue k => by
    have stands : v.ttc.imposeAudio true = { v.ttc with muteImposed := true, ramp := some ⟨192, 0, 100, 0, 0⟩ } := by
      simp [Ttc.imposeAudio, Ttc.startRamp, same, rest.soundFree, rest.level]
    rw [State.handle, k.ttc, stands]
    simpa using k.putTtc ({ v.ttc with muteImposed := true, ramp := some ⟨192, 0, 100, 0, 0⟩ }, [])
  have fan (v : State) (same : v.fc = u.fc) : Handled (.fanImposition true) v
      { v with fc := { v.fc with full := true, demand := 255, state := .spinup, grace := 4 } } [] [] :=
      fun s before queue k => by
    have full := rest.fanFull s.lc.h s.lc.derateStart s.lc.lampActive
    rw [← same] at full
    rw [State.handle, k.fc, full]
    simpa using k.putFc ({ v.fc with full := true, demand := 255, state := .spinup, grace := 4 }, [])
  have arbiter (v : State) (same : v.ca = u.ca) : Handled (.arbiterCutoff .brake) v v [] [] := fun s before queue k => by
    have stands : s.ca.cutoff .brake = (v.ca, []) := by rw [k.ca, same, rest.arbiter]; rfl
    rw [State.handle, stands]
    simpa using k.putCa (v.ca, [])
  have show_ (v : State) (same : v.ce = u.ce) : Handled .showCutoff v v [] [] := fun s before queue k => by
    have stands : s.ce.halt .cutoff = (v.ce, []) := by rw [k.ce, same, rest.engine]; rfl
    rw [State.handle, stands]
    simpa using k.putCe (v.ce, [])
  exact .cons lamp (.cons (tray _ (by rfl)) (.cons (tape _ (by rfl)) (.cons (sound _ (by rfl)) (.cons (fan _ (by rfl)) (.cons (arbiter _ (by rfl))
    (.cons (show_ _ (by rfl)) (.nil fuel _)))))))

/-- A reset that stands at rest before the Cutoff Unit's evaluation, with all that this leads to (R87, R88). -/
theorem AtRest.evaluated (rest : AtRest u) {s k : State} {f : State → State} {before : List (Event × Half)}
    (stands : StandsAt u before [] k) (act : f s = k.putCu k.cu.evaluate) {thermostat interlock overheat trayLost : Bool}
    (fresh : u.cu = Cu.fresh thermostat interlock overheat trayLost) {causes : List Nat}
    (present : causes = presentCauses overheat thermostat interlock trayLost) {cut : Bool} (enters : cut = !causes.isEmpty) :
    StandsAt
      (State.imposed { u with cu := { u.cu with flag := cut, causes := BitVec.ofNat 8 (causes.map (2 ^ ·)).sum,
                                                lampHanded := if cut then .off else .none } } cut)
      (before ++ causeEntries causes) [] (s.carry f) := by
  obtain ⟨cu, logged, queued⟩ := Cu.evaluate_fresh thermostat interlock overheat trayLost causes present cut enters u.cu fresh
  have evaluated := stands.putCu u.cu.evaluate
  rw [← stands.cu, ← act, stands.cu, logged, queued, cu, List.nil_append] at evaluated
  have rest' : AtRest { u with cu := { u.cu with flag := cut, causes := BitVec.ofNat 8 (causes.map (2 ^ ·)).sum,
                                                 lampHanded := if cut then .off else .none } } := by
    obtain ⟨a, b, c, d, e, f, g, h, i, j, k, l, m, n, o, p, q⟩ := rest
    exact ⟨a, b, c, d, e, f, g, h, i, j, k, l, m, n, o, p, q⟩
  rw [← List.append_nil (before ++ causeEntries causes)]
  cases cut
  · rw [rest'.imposed_false]
    exact (Leads.nil Config.cascadeFuel _) _ _ evaluated.act
  · exact rest'.leads 505 _ _ evaluated.act

end

end Sys2Proof.Machine
end

section
/-! ## POWER_ON_RESET (11) -/

namespace Sys2Proof.Machine

open Sys2Proof.Safety

/-! ### O51 -/

/-- TRAY_LOST at a fresh mechanism is the code 3 (R72). -/
theorem Tmc.fresh_trayLost (tcode : BitVec 2) (sensors : Sensors) : (Tmc.fresh tcode sensors).1.trayLost = (tcode == 3) := by
  simp [Tmc.fresh, Tmc.trayLost, Tmc.reset]

theorem Tmc.fresh_notices (tcode : BitVec 2) (sensors : Sensors) : queuedOf (Tmc.fresh tcode sensors).2 = [] ∧
    loggedOf (Tmc.fresh tcode sensors).2 = if tcode = 3 then [(.trayCodeBad, 3)] else [] := by
  show queuedOf (if tcode = 3 then [.log .trayCodeBad 3] else []) = [] ∧
    loggedOf (if tcode = 3 then [.log .trayCodeBad 3] else []) = if tcode = 3 then [(.trayCodeBad, 3)] else []
  split <;> exact ⟨rfl, rfl⟩

/-- The mechanism of the tray code and of GSLIDE after a reset (R29, R30). -/
theorem Tmc.fresh_record (tcode : BitVec 2) (sensors : Sensors) : (Tmc.fresh tcode sensors).1 = { Tmc.reset with
    tcode := tcode, sensors := sensors, state := if tcode = 1 ∨ tcode = 2 then .unhomed else .noTray
    n := if tcode = 1 then 80 else if tcode = 2 then 120 else 0
    gate := if sensors.gslide then .loaded else .empty } := by
  have sizes : ∀ code : BitVec 2, (codeSize code = if code = 1 then 80 else if code = 2 then 120 else 0) ∧
      ((if codeSize code = 0 then MechState.noTray else .unhomed) = if code = 1 ∨ code = 2 then .unhomed else .noTray) := by
    decide
  obtain ⟨size, state⟩ := sizes tcode
  rw [← state, ← size]
  rfl

/-- The blocks of POR stand at rest. -/
theorem porBlocks_atRest (s : State) (pins : Pins) : AtRest (s.porBlocks pins) where
  lamp := .inl rfl
  intent := rfl
  cap := rfl
  lampFree := rfl
  op := rfl
  trayFree := rfl
  motor := rfl
  tape := rfl
  level := rfl
  ramp := rfl
  tapeFree := rfl
  soundFree := rfl
  fan := ⟨rfl, rfl⟩
  stalls := rfl
  fanFree := rfl
  arbiter := rfl
  engine := rfl

/-- Where POWER_ON_RESET ends. -/
theorem powerOn_stands (pins : Pins) (s : State) {causes : List Nat}
    (present : causes = presentCauses false pins.thsw pins.ilockOpen (pins.tcode == 3)) {cut : Bool}
    (enters : cut = !causes.isEmpty) :
    StandsAt
      (State.imposed { s.porBlocks pins with
        cu := { (s.porBlocks pins).cu with flag := cut, causes := BitVec.ofNat 8 (causes.map (2 ^ ·)).sum,
                                           lampHanded := if cut then .off else .none } } cut)
      ((if pins.tcode = 3 then [(.trayCodeBad, 3)] else []) ++ causeEntries causes) []
      (s.carry fun k => k.powerOn pins) := by
  obtain ⟨queued, logged⟩ := Tmc.fresh_notices pins.tcode pins.sensors
  have stands := (StandsAt.refl (s := s.porBlocks pins) rfl).post (Tmc.fresh pins.tcode pins.sensors).2
  rw [queued, logged, List.append_nil, List.nil_append] at stands
  refine (porBlocks_atRest s pins).evaluated stands rfl ?_ present enters
  rw [← Tmc.fresh_trayLost pins.tcode pins.sensors]
  rfl

/-- The entries of a reset's causes, one by one (R75, R76). -/
theorem causeEntries_present (thermostat interlock trayLost : Bool) :
    ((causeEntries (presentCauses false thermostat interlock trayLost)).map fun e => (e.1, e.2, (0 : Word))) =
      (if thermostat then [(Event.cutoffEnter, 1, 0)] else []) ++
      (if interlock then [(if thermostat then .cutoffCauseAdded else .cutoffEnter, 2, 0)] else []) ++
      (if trayLost then [(if thermostat || interlock then .cutoffCauseAdded else .cutoffEnter, 3, 0)] else []) := by
  revert thermostat interlock trayLost
  decide

/-- The cause set of the level causes without OVERHEAT (R74). -/
theorem presentCauses_mask (thermostat interlock trayLost : Bool) :
    BitVec.ofNat 8 ((presentCauses false thermostat interlock trayLost).map (2 ^ ·)).sum =
      (if thermostat then 2 else 0) ||| (if interlock then 4 else 0) ||| (if trayLost then 8 else 0) := by
  revert thermostat interlock trayLost
  decide

/-- An act that changes no field shown on a line marks none (R211). -/
theorem act_unshown {s : State} {f : State → State} (same : ∀ n, s.lineData n = (f s).lineData n) : s.act f = f s := by
  have marks (ns : List Nat) (rw : Rw) :
      ns.foldl (fun rw n => if s.lineData n = (f s).lineData n then rw else rw.markDirty n) rw = rw := by
    induction ns with
    | nil => rfl
    | cons n ns ih => rw [List.foldl_cons, if_pos (same n), ih]
  show ({ f s with rw := _ } : State) = f s
  rw [marks]

theorem presentCauses_length (overheat thermostat interlock trayLost : Bool) :
    (presentCauses overheat thermostat interlock trayLost).length ≤ 4 := by
  revert overheat thermostat interlock trayLost
  decide

theorem causeEntries_length (causes : List Nat) : (causeEntries causes).length = causes.length := by
  cases causes <;> simp [causeEntries]

/-- Settles O51: the blocks of POR, with the impositions of the cutoff that its evaluation enters. -/
theorem powerOnReset : Obligations.PowerOnReset := by
  refine ⟨fun pins s cut cut_eq => ⟨_, rfl, ?_⟩, fun s calm => ?_⟩
  · have enters : cut = !(presentCauses false pins.thsw pins.ilockOpen (pins.tcode == 3)).isEmpty := by
      rw [cut_eq]
      cases pins.thsw <;> cases pins.ilockOpen <;> cases pins.tcode == 3 <;> rfl
    have k := powerOn_stands pins s rfl enters
    have few := presentCauses_length false pins.thsw pins.ilockOpen (pins.tcode == 3)
    have room : ((if pins.tcode = 3 then [(Event.trayCodeBad, (3 : Half))] else []) ++
        causeEntries (presentCauses false pins.thsw pins.ilockOpen (pins.tcode == 3))).length ≤ 8 := by
      rw [List.length_append, causeEntries_length]
      have one : (if pins.tcode = 3 then [(Event.trayCodeBad, (3 : Half))] else []).length ≤ 1 := by split <;> simp
      omega
    have rw := k.rw (show Rw.reset.Marked by unfold Rw.Marked; decide) (by rw [Nat.add_comm]; exact room)
    generalize s.carry (fun k => k.powerOn pins) = t at k rw
    refine ⟨fun a => by rw [k.mem]; rfl, k.pending, k.notices, by rw [k.pu]; rfl, by rw [k.pu]; rfl, by rw [k.pu]; rfl,
      by rw [k.pu]; rfl, by rw [k.pu]; rfl, by rw [k.pu]; rfl, by rw [k.pu]; rfl, by rw [k.pu]; rfl, by rw [k.dd]; rfl,
      by rw [rw]; rfl, by rw [rw]; rfl, by rw [rw]; rfl, by rw [rw]; rfl, by rw [rw]; rfl, by rw [rw]; rfl, by rw [rw]; rfl,
      by rw [rw]; rfl, ?_, by rw [k.ca]; rfl, by rw [k.rcu]; rfl, by rw [k.rcu]; rfl, by rw [k.rcu]; rfl, by rw [k.rcu]; rfl,
      by rw [k.rcu]; rfl, by rw [k.ce]; rfl, ?_, by rw [k.lc]; rfl, ?_, ?_, ?_, by rw [k.rr]; rfl⟩
    · rw [rw]
      refine List.map_map.trans ?_
      show (_ ++ causeEntries _).map (fun e => (e.1, e.2, (0 : Word))) = _
      rw [List.map_append, causeEntries_present]
      simp only [beq_iff_eq, List.append_assoc, apply_ite (List.map fun e : Event × Half => (e.1, e.2, (0 : Word)))]
      rfl
    · rw [k.tmc]
      show ({ (Tmc.fresh pins.tcode pins.sensors).1 with
        imposition := if cut then some .brake else none, motor := if cut then .braked else .unpowered } : Tmc) = _
      rw [Tmc.fresh_record]
      rfl
    · rw [k.fc]
      cases cut <;> rfl
    · rw [k.cu]
      show ({ Cu.fresh pins.thsw pins.ilockOpen false (Tmc.fresh pins.tcode pins.sensors).1.trayLost with
        flag := cut, lampHanded := if cut then .off else .none
        causes := BitVec.ofNat 8
          ((presentCauses false pins.thsw pins.ilockOpen (pins.tcode == 3)).map (2 ^ ·)).sum } : Cu) = _
      rw [Tmc.fresh_trayLost, presentCauses_mask]
      simp only [beq_iff_eq]
      rfl
    · rw [k.ttc]
      rfl
  · have still : (s.act fun k => { k with pu := k.pu.hold }) = { s with pu := s.pu.hold } :=
      act_unshown fun n => rfl
    show Host.Outcome.next (State.drain _ (s.act _)) = _
    rw [still]
    exact congrArg Host.Outcome.next (State.drain_nil { s with pu := s.pu.hold } _ calm)

end Sys2Proof.Machine
end

section
/-! ## PART_RESET (11) -/

namespace Sys2Proof.Machine

open Sys2Proof.Safety

/-! ### The blocks after PRST -/

/-- The derate limit of an H against the default thresholds (R54, R58). -/
theorem derateOf_default (h : Nat) :
    derateOf h 19968 28160 = if h ≤ 19968 then 1023 else 1023 - (min h 28159 - 19968) * 767 / 8192 := by
  unfold derateOf derateBetween
  by_cases cool : h ≤ 19968
  · rw [if_pos cool, if_pos cool]
  · rw [if_neg cool, if_neg cool]
    by_cases below : h < 28160
    · rw [if_pos below, Nat.min_eq_left (by omega)]
    · rw [if_neg below, Nat.min_eq_right (by omega)]

/-- A lamp that neither burns nor strikes nor darkens has no output and no failure watch (R36, R41). -/
theorem Lc.recompute_dark {lc : Lc} (dark : ¬ (lc.state = .lit ∨ lc.state = .striking)) (hold : lc.hold ≠ .darkening) :
    lc.recompute = { lc with output := 0, failureWatch := none } := by
  have out : lc.computedOutput = 0 := if_neg dark
  have unlit : (lc.state == .lit) = false := by simpa using fun lit => dark (.inl lit)
  simp [Lc.recompute, Lc.checkDark, Lc.rewatch, Lc.watched, hold, out, unlit]

/-- The lamp's record after PRST (R58; assumption logs 15, 31). -/
theorem partReset_lamp (s : State) : s.lc.partReset.1 = { s.lc with
    state := if s.lc.state = .exchange then .exchange
      else if s.lc.goodA = true ∨ s.lc.goodB = true then .off else .failed
    restrike := false, output := 0, fade := none, stored := none, strike := none, failureWatch := none, hold := .none
    holdLevel := none, report := false, heldRelease := none, capLevel := 0, capLingers := false
    imposition := .none, showLevel := 900, ceiling := 1023
    derate := derateAfterPrst s, overheat := hotAfterPrst s, lampGain := 32, fanGain := 8, derateStart := 19968
    overheatLevel := 28160, restrikeMax := 8192 } := by
  rw [Lc.partReset, Lc.recompute_dark]
  · have state : (if (s.lc.state == .exchange) = true then LampState.exchange else if s.lc.anyGood = true then .off else .failed) =
        if s.lc.state = .exchange then .exchange
        else if s.lc.goodA = true ∨ s.lc.goodB = true then .off else .failed := by
      simp [Lc.anyGood]
    have derate : derateOf s.lc.h Lc.reset.derateStart Lc.reset.overheatLevel = derateAfterPrst s := derateOf_default _
    dsimp only
    rw [state, derate]
    rfl
  · dsimp only
    (repeat' split) <;> simp
  · exact nofun

/-- The notices of the lamp's PRST: the derate limit leaves 1023 or returns (R54, R58). -/
theorem partReset_lamp_notices (s : State) : queuedOf s.lc.partReset.2 = [] ∧ loggedOf s.lc.partReset.2 =
    if s.lc.derate = 1023 ∧ derateAfterPrst s ≠ 1023 then [(.derateBegin, halfOf s.lc.h)]
    else if s.lc.derate ≠ 1023 ∧ derateAfterPrst s = 1023 then [(.derateEnd, halfOf s.lc.h)] else [] := by
  have derate : derateOf s.lc.h Lc.reset.derateStart Lc.reset.overheatLevel = derateAfterPrst s := derateOf_default _
  have notices : s.lc.partReset.2 = derateEvents s.lc.derate (derateAfterPrst s) s.lc.h := by rw [← derate]; rfl
  rw [notices, derateEvents]
  (repeat' split) <;> exact ⟨rfl, rfl⟩

/-- The fan's record after PRST, before cutoff may raise it (R71). -/
theorem partReset_fan (s : State) :
    s.fc.partReset s.lc.partReset.1.h s.lc.partReset.1.derateStart s.lc.partReset.1.lampActive = { s.fc with
      state := if demandAfterPrst s ≠ 0 then .spinup else .stopped, demand := demandAfterPrst s
      grace := if demandAfterPrst s ≠ 0 then 4 else 0, stallWindows := 0, pulses := 0
      minimum := 96, coolDone := 3072, full := false } := by
  have active : s.lc.partReset.1.lampActive = (s.lc.state == .exchange) := by
    simp only [partReset_lamp, Lc.lampActive]
    by_cases moving : s.lc.state = .exchange
    · simp [moving]
    · rw [if_neg moving, show (s.lc.state == .exchange) = false by simpa using moving]
      split <;> rfl
  have h : s.lc.partReset.1.h = s.lc.h := by rw [partReset_lamp]
  have ds : s.lc.partReset.1.derateStart = 19968 := by rw [partReset_lamp]
  have demand : Fc.computed { s.fc with pulses := 0, stallWindows := 0, minimum := 96, coolDone := 3072, full := false }
      s.lc.h 19968 (s.lc.state == .exchange) = demandAfterPrst s := by
    simp [Fc.computed, baseDemand, demandAfterPrst]
  rw [active, h, ds, Fc.partReset]
  dsimp only
  rw [demand]
  by_cases off : demandAfterPrst s = 0 <;> simp [off, Fc.stop, Fc.spinUp]

/-! ### O52 -/

/-- PRST reads neither the decoder nor the ring, the buffer and the dropped count (R209, R215). -/
theorem partReset_congr {s : State} {rw : Rw} (same : rw.partReset = s.rw.partReset) (dd : Dd) :
    State.partReset { s with dd := dd, rw := rw } = s.partReset := by
  simp only [State.partReset, same]

/-- A directive that is open is abandoned without a trace in the reset state (R209, R215). -/
theorem abandon_partReset (s : State) : s.abandon.partReset = s.partReset := by
  unfold State.abandon
  split
  · have lines : (s.rw.lines.modify 0 fun l => { l with dirty := true }).map (fun l => { l with dirty := true, full := true }) =
        s.rw.lines.map fun l => { l with dirty := true, full := true } := by
      cases s.rw.lines <;> rfl
    have rw (event : Event) (arg : Half) : ((s.rw.handOver event arg).markDirty 0).partReset = s.rw.partReset := by
      unfold Rw.handOver
      split <;> simp only [Rw.markDirty, Rw.partReset, lines]
    exact partReset_congr (rw .directiveAbandoned _) _
  · rfl

/-- The blocks of PRST, with PART_RESET answered. -/
def State.prstBlocks (s : State) : State :=
  { s with pu := s.pu.partReset, dd := Dd.reset.answer 0x01 .done, rw := s.rw.partReset, ce := Ce.reset, ca := Ca.reset
           rcu := Rcu.reset, tmc := (Tmc.fresh s.tmc.tcode s.tmc.sensors).1, lc := s.lc.partReset.1
           fc := s.fc.partReset s.lc.partReset.1.h s.lc.partReset.1.derateStart s.lc.partReset.1.lampActive
           cu := Cu.fresh s.cu.thswRaw s.cu.ilockRaw s.lc.partReset.1.overheat
             (Tmc.fresh s.tmc.tcode s.tmc.sensors).1.trayLost
           ttc := s.ttc.partReset, rr := s.rr.partReset, notices := [] }

theorem prstBlocks_atRest (s : State) : AtRest s.prstBlocks where
  lamp := by
    show s.lc.partReset.1.state = _ ∨ s.lc.partReset.1.state = _ ∨ s.lc.partReset.1.state = _
    rw [partReset_lamp]
    dsimp only
    (repeat' split) <;> simp
  intent := congrArg Lc.restrike (partReset_lamp s)
  cap := congrArg Lc.capLingers (partReset_lamp s)
  lampFree := congrArg Lc.imposition (partReset_lamp s)
  op := rfl
  trayFree := rfl
  motor := rfl
  tape := rfl
  level := rfl
  ramp := rfl
  tapeFree := rfl
  soundFree := rfl
  fan := by
    show if (s.fc.partReset _ _ _).demand = 0 then (s.fc.partReset _ _ _).state = _ else
      (s.fc.partReset _ _ _).state = _ ∧ (s.fc.partReset _ _ _).grace = 4
    rw [partReset_fan]
    by_cases off : demandAfterPrst s = 0 <;> simp [off]
  stalls := congrArg Fc.stallWindows (partReset_fan s)
  fanFree := congrArg Fc.full (partReset_fan s)
  arbiter := rfl
  engine := rfl

theorem eventsAfterPrst_eq (s : State) : eventsAfterPrst s =
    (if s.tmc.tcode = 3 then [(.trayCodeBad, 3)] else []) ++
      (if s.lc.derate = 1023 ∧ derateAfterPrst s ≠ 1023 then [(.derateBegin, halfOf s.lc.h)]
        else if s.lc.derate ≠ 1023 ∧ derateAfterPrst s = 1023 then [(.derateEnd, halfOf s.lc.h)] else []) ++
      causeEntries (causesAfterPrst s) := by
  rw [eventsAfterPrst]
  cases causesAfterPrst s <;> rfl

/-- Where PART_RESET ends. -/
theorem partReset_stands {s : State} (running : s.pu.inReset = false) :
    StandsAt
      (State.imposed { s.prstBlocks with
        cu := { s.prstBlocks.cu with flag := cutAfterPrst s
                                     causes := BitVec.ofNat 8 ((causesAfterPrst s).map (2 ^ ·)).sum
                                     lampHanded := if cutAfterPrst s then .off else .none } } (cutAfterPrst s))
      (eventsAfterPrst s) [] (s.carry State.resetRow) := by
  obtain ⟨queued, logged⟩ := Tmc.fresh_notices s.tmc.tcode s.tmc.sensors
  obtain ⟨queued', logged'⟩ := partReset_lamp_notices s
  have row : State.resetRow s = s.partReset := by
    rw [State.resetRow, running]
    exact abandon_partReset s
  have stands := ((StandsAt.refl (s := { s.prstBlocks with dd := Dd.reset }) rfl).post
    ((Tmc.fresh s.tmc.tcode s.tmc.sensors).2 ++ s.lc.partReset.2)).answer 0x01 .done
  rw [queuedOf_append, loggedOf_append, queued, logged, queued', logged', List.append_nil, List.nil_append] at stands
  have causes : causesAfterPrst s = presentCauses (hotAfterPrst s) s.cu.thswRaw s.cu.ilockRaw (s.tmc.tcode == 3) := by
    simp [causesAfterPrst, presentCauses]
  have hot : s.lc.partReset.1.overheat = hotAfterPrst s := congrArg Lc.overheat (partReset_lamp s)
  rw [eventsAfterPrst_eq]
  refine (prstBlocks_atRest s).evaluated stands row ?_ causes rfl
  rw [← Tmc.fresh_trayLost s.tmc.tcode s.tmc.sensors, ← hot]
  rfl

/-- At most six entries come with a PRST. -/
theorem eventsAfterPrst_length (s : State) : (eventsAfterPrst s).length ≤ 6 := by
  have causes : (causesAfterPrst s).length ≤ 4 := by
    unfold causesAfterPrst
    (repeat' split) <;> simp
  rw [eventsAfterPrst_eq, List.length_append, causeEntries_length, List.length_append]
  (repeat' split) <;> simp <;> omega

/-- Settles O52: the blocks of PRST, with the impositions of the cutoff that its evaluation enters. -/
theorem partReset : Obligations.PartReset := by
  refine fun s calm => ⟨fun held => ?_, fun running => ⟨_, rfl, ?_⟩⟩
  · have row : State.resetRow s = s := if_pos held
    have still : s.act State.resetRow = s := (act_unshown fun n => by rw [row]).trans row
    show Host.Outcome.next (State.drain _ (s.act _)) = _
    rw [still, State.drain_nil _ _ calm]
  · have k := partReset_stands running
    have few := eventsAfterPrst_length s
    have rw := k.rw (fun l member => by obtain ⟨_, _, rfl⟩ := List.mem_map.mp member; rfl)
      (by show 1 + _ ≤ 8; omega)
    generalize s.carry State.resetRow = t at k rw
    have lamp := k.lc
    have hot : t.lc.overheat = hotAfterPrst s := (congrArg Lc.overheat lamp).trans (congrArg Lc.overheat (partReset_lamp s))
    refine ⟨fun a => by rw [k.mem]; rfl, k.pending, k.notices, by rw [k.pu]; rfl, ?_, by rw [k.pu]; rfl,
      by rw [k.pu]; rfl, by rw [k.pu]; rfl, by rw [k.pu]; rfl, by rw [k.pu]; rfl, ?_, ?_, ⟨by rw [k.dd]; rfl, k.ce, k.ca, k.rcu,
      ?_, ?_, ?_, ?_, by rw [k.ttc]; rfl, by rw [k.rr]; rfl⟩, by rw [rw]; rfl, ?_⟩
    · rw [k.pu]; exact running
    · rw [k.pu]
      show ((s.pu.own.map _).map _) = _
      rw [Option.map_map]; rfl
    · rw [k.pu]
      intro c own
      obtain ⟨_, _, rfl⟩ := Option.map_eq_some_iff.mp own
      rfl
    · rw [k.tmc]
      show ({ (Tmc.fresh s.tmc.tcode s.tmc.sensors).1 with
        imposition := if cutAfterPrst s then some .brake else none
        motor := if cutAfterPrst s then .braked else .unpowered } : Tmc) = _
      rw [Tmc.fresh_record]
      rfl
    · rw [lamp]
      show ({ s.lc.partReset.1 with imposition := if cutAfterPrst s then .off else .none } : Lc) = _
      rw [partReset_lamp]
    · rw [k.fc]
      show ({ s.fc.partReset _ _ _ with
        full := cutAfterPrst s, demand := if cutAfterPrst s then 255 else (s.fc.partReset _ _ _).demand
        state := if cutAfterPrst s then .spinup else (s.fc.partReset _ _ _).state
        grace := if cutAfterPrst s then 4 else (s.fc.partReset _ _ _).grace } : Fc) = _
      rw [partReset_fan]
      cases cutAfterPrst s <;> simp
    · rw [k.cu]
      show ({ Cu.fresh s.cu.thswRaw s.cu.ilockRaw s.lc.partReset.1.overheat
          (Tmc.fresh s.tmc.tcode s.tmc.sensors).1.trayLost with
        flag := cutAfterPrst s, causes := BitVec.ofNat 8 ((causesAfterPrst s).map (2 ^ ·)).sum
        lampHanded := if cutAfterPrst s then .off else .none } : Cu) = _
      rw [Tmc.fresh_trayLost, congrArg Lc.overheat (partReset_lamp s)]
      rfl
    · rw [k.cu, hot]
      show cutAfterPrst s = true ↔ _
      simp only [cutAfterPrst, causesAfterPrst, Bool.not_eq_true', List.isEmpty_eq_false_iff, ne_eq, List.append_eq_nil_iff,
        ite_eq_right_iff, reduceCtorEq, imp_false]
      tauto

end Sys2Proof.Machine
end

section
/-! ## What routine notices leave

A cascade that raises no cause leaves the cutoff and every imposition as they are, and the mechanism takes only grants and
preemptions. -/

namespace Sys2Proof.Machine

open Sys2Proof.Safety

/-! ### The arbiter's acts -/

/-- Arbiter and mechanism alone differ. -/
structure ArbiterActs (s t : State) : Prop where
  ce : t.ce = s.ce
  rcu : t.rcu = s.rcu
  lc : t.lc = s.lc
  fc : t.fc = s.fc
  cu : t.cu = s.cu
  ttc : t.ttc = s.ttc

theorem ArbiterActs.refl (s : State) : ArbiterActs s s := by constructor <;> rfl

theorem ArbiterActs.trans {s t u : State} (h : ArbiterActs s t) (k : ArbiterActs t u) : ArbiterActs s u :=
  ⟨k.ce.trans h.ce, k.rcu.trans h.rcu, k.lc.trans h.lc, k.fc.trans h.fc, k.cu.trans h.cu, k.ttc.trans h.ttc⟩

section

variable (s : State)

theorem putCa_arbiterActs (r : Reaction Ca) : ArbiterActs s (s.putCa r) := by constructor <;> simp

theorem putTmc_arbiterActs (r : Reaction Tmc) : ArbiterActs s (s.putTmc r) := by constructor <;> simp

theorem selectLoop_arbiterActs (fuel : Nat) : ArbiterActs s (s.selectLoop fuel) := by
  induction fuel generalizing s with
  | zero => exact .refl s
  | succ fuel ih =>
    unfold State.selectLoop
    split
    · exact .refl s
    · split
      · exact (putCa_arbiterActs s _).trans (ih _)
      · exact (putCa_arbiterActs s _).trans (putTmc_arbiterActs _ _)

theorem select_arbiterActs : ArbiterActs s s.select := by
  unfold State.select
  split
  · exact selectLoop_arbiterActs s 5
  · exact .refl s

theorem preemptWith_arbiterActs (source : Source) (r : Request) : ArbiterActs s (s.preemptWith source r) := by
  unfold State.preemptWith
  split
  · exact .refl s
  · exact (putCa_arbiterActs s _).trans (putTmc_arbiterActs _ _)

theorem afterDeposit_arbiterActs (source : Source) : ArbiterActs s (s.afterDeposit source) := by
  unfold State.afterDeposit
  split
  · exact select_arbiterActs s
  · split
    · split
      · exact preemptWith_arbiterActs s _ _
      · exact .refl s
    · exact .refl s

theorem deposit_arbiterActs (source : Source) (kind : OpKind) : ArbiterActs s (s.deposit source kind) := by
  unfold State.deposit
  split
  · exact (putCa_arbiterActs s _).trans (afterDeposit_arbiterActs _ source)
  · exact .refl s

end

/-- The mechanism stands, takes a grant that nothing refuses, or a preemption in DARKEN or TURN (R136, R137, R141). -/
def Served (t t' : Tmc) : Prop :=
  t' = t ∨ (∃ op : Operation, t.available = true ∧ t.refusal? op.kind = none ∧ t' = (t.begin op).1) ∨
    ∃ op : Operation, t.preemptible = true ∧ t' = (t.preempt op).1

theorem selectLoop_served (fuel : Nat) {s : State} (free : s.tmc.available = true) :
    Served s.tmc (s.selectLoop fuel).tmc := by
  induction fuel generalizing s with
  | zero => exact .inl rfl
  | succ fuel ih =>
    unfold State.selectLoop
    split
    · exact .inl rfl
    · next source r _ =>
      split
      · have refused : (s.refuse source ‹_›).tmc = s.tmc := by simp [State.refuse]
        have later := ih (s := s.refuse source ‹_›) (by rw [refused]; exact free)
        rwa [refused] at later
      · next allowed =>
        exact .inr (.inl ⟨⟨r.kind, source, r.level⟩, free, allowed, by simp [State.grant]⟩)

theorem select_served (s : State) : Served s.tmc s.select.tmc := by
  unfold State.select
  split
  · next h =>
    rw [Bool.and_eq_true] at h
    have free : s.tmc.available = true := by
      have mechanism := h.1
      rw [State.mechanismFree, Bool.and_eq_true] at mechanism
      exact mechanism.1
    exact selectLoop_served 5 free
  · exact .inl rfl

theorem afterDeposit_served (s : State) (source : Source) : Served s.tmc (s.afterDeposit source).tmc := by
  unfold State.afterDeposit
  split
  · exact select_served s
  · split
    · next r _ =>
      split
      · next preempts =>
        have accepts := (State.preempts_accepts preempts).1
        unfold State.preemptWith
        split
        · exact .inl rfl
        · exact .inr (.inr ⟨⟨r.kind, source, r.level⟩, accepts, by simp⟩)
      · exact .inl rfl
    · exact .inl rfl

theorem deposit_served (s : State) (source : Source) (kind : OpKind) : Served s.tmc (s.deposit source kind).tmc := by
  unfold State.deposit
  split
  · next ca _ => simpa using afterDeposit_served (s.putCa (ca, if (s.ca.slot source).isNone then [.dirty 6] else [])) source
  · exact .inl rfl

/-! ### The acts of the engine, of the channels and of the outcomes -/

/-- Mechanism, lamp, fan and cutoff stand, and the deck but for its cue FIFO. -/
structure EngineActs (s t : State) : Prop where
  lc : t.lc = s.lc
  fc : t.fc = s.fc
  cu : t.cu = s.cu
  tmc : t.tmc = s.tmc
  ttc : t.ttc = { s.ttc with fifo := t.ttc.fifo }

theorem EngineActs.refl (s : State) : EngineActs s s := by constructor <;> rfl

theorem EngineActs.trans {s t u : State} (h : EngineActs s t) (k : EngineActs t u) : EngineActs s u :=
  ⟨k.lc.trans h.lc, k.fc.trans h.fc, k.cu.trans h.cu, k.tmc.trans h.tmc, by rw [k.ttc, h.ttc]⟩

section

variable (s : State)

theorem putCe_engineActs (r : Reaction Ce) : EngineActs s (s.putCe r) := by constructor <;> simp

theorem putRcu_engineActs (r : Reaction Rcu) : EngineActs s (s.putRcu r) := by constructor <;> simp

theorem putCa_engineActs (r : Reaction Ca) : EngineActs s (s.putCa r) := by constructor <;> simp

theorem lookTape_engineActs : EngineActs s s.lookTape := by
  unfold State.lookTape
  split
  · exact .refl s
  · have looked (fifo : List CueEntry) (ns : List Notice) :
        EngineActs s ((s.putTtc ({ s.ttc with fifo := fifo }, [])).post ns) := by constructor <;> simp
    dsimp only
    split
    · exact (looked _ _).trans (putCe_engineActs _ _)
    · exact looked _ _

theorem consumeRun_engineActs : EngineActs s s.consumeRun := by
  unfold State.consumeRun
  split
  · exact .refl s
  · split
    · exact (putRcu_engineActs s _).trans (putCe_engineActs _ _)
    · exact .refl s

theorem terminalCount_engineActs (c : BitVec 2) : EngineActs s (s.terminalCount c) := by
  unfold State.terminalCount
  split
  · split
    · exact consumeRun_engineActs s
    · exact .refl s
  · exact .refl s

theorem progress_engineActs : EngineActs s s.progress := by
  unfold State.progress
  split
  · split
    · exact putCe_engineActs s _
    · split
      · exact putCe_engineActs s _
      · split
        · exact lookTape_engineActs s
        · split
          · exact consumeRun_engineActs s
          · exact .refl s
  · split <;> exact putCe_engineActs s _

theorem deliver_engineActs (source : Source) (result : OpOutcome) : EngineActs s (s.deliver source result) := by
  cases source with
  | cue => exact putCe_engineActs s _
  | run => exact putRcu_engineActs s _
  | _ => exact .refl s

theorem slotEmptied_engineActs (source : Source) : EngineActs s (s.slotEmptied source) := by
  cases source with
  | cue => exact putCe_engineActs s _
  | run => exact putRcu_engineActs s _
  | _ => exact .refl s

theorem takeOutcome_engineActs (op : Operation) (result : OpOutcome) : EngineActs s (s.takeOutcome op result) := by
  unfold State.takeOutcome
  split
  · exact putCa_engineActs s _
  · exact .refl s

end

/-! ### A routine notice -/

theorem Lc.recompute_imposition (lc : Lc) : lc.recompute.imposition = lc.imposition := by
  simp only [Lc.recompute, Lc.rewatch, Lc.checkDark]; split <;> rfl

theorem Lc.takeDarken_imposition (lc : Lc) (outTime b : Nat) : (lc.takeDarken outTime b).imposition = lc.imposition := by
  unfold Lc.takeDarken
  dsimp only
  (repeat' split) <;> simp [Lc.startFade, Lc.recompute_imposition]

theorem Lc.takeRelease_imposition (lc : Lc) (inTime : Nat) : (lc.takeRelease inTime).imposition = lc.imposition := by
  unfold Lc.takeRelease Lc.returnFade
  (repeat' split) <;> simp [Lc.endHold, Lc.startFade, Lc.recompute_imposition]

theorem Lc.order_imposition (lc : Lc) (now : Bool) (level curve duration : Nat) :
    (lc.order now level curve duration).imposition = lc.imposition := by
  unfold Lc.order
  dsimp only
  (repeat' split) <;> simp [Lc.startFade, Lc.recompute_imposition]

/-- The impositions on the deck stand. -/
def SameImpositions (t t' : Ttc) : Prop := t'.stopImposed = t.stopImposed ∧ t'.muteImposed = t.muteImposed

theorem Ttc.startRamp_impositions (t : Ttc) (target time : Nat) : SameImpositions t (t.startRamp target time) := by
  unfold Ttc.startRamp
  (repeat' split) <;> exact ⟨rfl, rfl⟩

theorem Ttc.brake_impositions (t : Ttc) (latched : Option TapeRequest) : SameImpositions t (t.brake latched).1 := by
  unfold Ttc.brake Ttc.leaveRecording
  dsimp only
  split <;> exact ⟨rfl, rfl⟩

theorem Ttc.stop_impositions (t : Ttc) : SameImpositions t t.stop.1 := by
  unfold Ttc.stop
  split
  · exact ⟨rfl, rfl⟩
  · exact ⟨rfl, rfl⟩
  · exact t.brake_impositions none

theorem Ttc.play_impositions (t : Ttc) : SameImpositions t (t.request .play).1.1 := by
  unfold Ttc.request
  split
  · exact ⟨rfl, rfl⟩
  · split
    · exact ⟨rfl, rfl⟩
    · exact ⟨rfl, rfl⟩
    · unfold Ttc.redirect
      split
      · exact ⟨rfl, rfl⟩
      · cases t.state <;> exact t.brake_impositions _

theorem Ttc.audioLevel_impositions (t : Ttc) (level time : Nat) : SameImpositions t (t.audioLevel level time) := by
  unfold Ttc.audioLevel
  dsimp only
  split
  · exact ⟨rfl, rfl⟩
  · exact Ttc.startRamp_impositions { t with setLevel := level } level time

theorem Ttc.write_impositions (t : Ttc) (cls : CueClass) : SameImpositions t (t.write cls).1 := by
  unfold Ttc.write
  (repeat' split) <;> exact ⟨rfl, rfl⟩

theorem Fc.compute_full (fc : Fc) (h ds : Nat) (active : Bool) : (fc.compute h ds active).1.full = fc.full := by
  unfold Fc.compute Fc.follow Fc.spinUp Fc.stop
  dsimp only
  (repeat' split) <;> rfl

/-- What a routine notice leaves: the cutoff and every imposition, and the mechanism but for a grant or a preemption. -/
structure RoutineStep (s t : State) : Prop where
  cu : t.cu = s.cu
  lamp : t.lc.imposition = s.lc.imposition
  deck : SameImpositions s.ttc t.ttc
  full : t.fc.full = s.fc.full
  served : Served s.tmc t.tmc

theorem ArbiterActs.routine {s t : State} (h : ArbiterActs s t) (served : Served s.tmc t.tmc) : RoutineStep s t :=
  ⟨h.cu, by rw [h.lc], by rw [h.ttc]; exact ⟨rfl, rfl⟩, by rw [h.fc], served⟩

theorem EngineActs.routine {s t : State} (h : EngineActs s t) : RoutineStep s t :=
  ⟨h.cu, by rw [h.lc], by rw [h.ttc]; exact ⟨rfl, rfl⟩, by rw [h.fc], .inl h.tmc⟩

theorem handle_routine (s : State) {n : Notice} (routine : n.routine = true) : RoutineStep s (State.handle n s) := by
  have lamp (r : Reaction Lc) (same : r.1.imposition = s.lc.imposition) : RoutineStep s (s.putLc r) :=
    ⟨by simp, by simpa using same, by simpa using ⟨rfl, rfl⟩, by simp, .inl (by simp)⟩
  have deck (r : Reaction Ttc) (same : SameImpositions s.ttc r.1) : RoutineStep s (s.putTtc r) :=
    ⟨by simp, by simp, by simpa using same, by simp, .inl (by simp)⟩
  have posted (ns : List Notice) : RoutineStep s (s.post ns) :=
    ⟨by simp, by simp, by simpa using ⟨rfl, rfl⟩, by simp, .inl (by simp)⟩
  cases n with
  | log e arg => exact posted _
  | dirty line => exact posted _
  | deposit source kind => exact (deposit_arbiterActs s source kind).routine (deposit_served s source kind)
  | select => exact (select_arbiterActs s).routine (select_served s)
  | outcome op result => exact (takeOutcome_engineActs s op result).routine
  | withdraw => exact (putCa_engineActs s _).routine
  | deliver source result => exact (deliver_engineActs s source result).routine
  | slotEmpty source => exact (slotEmptied_engineActs s source).routine
  | darken outTime level => exact lamp (_, []) (s.lc.takeDarken_imposition outTime level)
  | release inTime => exact lamp (_, []) (s.lc.takeRelease_imposition inTime)
  | lampAction now level curve duration => exact lamp (_, []) (s.lc.order_imposition now level curve duration)
  | fanCompute h ds active =>
    exact ⟨by simp [State.handle], by simp [State.handle], by simpa [State.handle] using ⟨rfl, rfl⟩,
      by simpa [State.handle] using s.fc.compute_full h ds active, .inl (by simp [State.handle])⟩
  | tapePlay => exact deck _ s.ttc.play_impositions
  | tapeStop => exact deck _ s.ttc.stop_impositions
  | audioAction level => exact deck (_, []) (s.ttc.audioLevel_impositions level 0)
  | writeCue cls => exact deck (_, []) (s.ttc.write_impositions cls)
  | runTrigger c => exact (putRcu_engineActs s _).routine
  | terminalCount c => exact (terminalCount_engineActs s c).routine
  | fifoJoined => exact (lookTape_engineActs s).routine
  | progress => exact (progress_engineActs s).routine
  | refire => exact (putCe_engineActs s _).routine
  | askRead offset => exact (EngineActs.routine (by constructor <;> rfl))
  | dropRead => exact (EngineActs.routine (by constructor <;> rfl))
  | _ => cases routine

/-- What the steps of routine notices keep, a drain of them keeps. -/
theorem drain_routine {P : State → Prop} (inert : Inert P) (step : ∀ k t, P k → RoutineStep k t → Makes k t → P t)
    (fuel : Nat) {s : State} (routine : Routine s.notices) (h : P s) : P (State.drain fuel s) :=
  drain_keeps inert (C := fun n => n.routine = true)
    (fun n plain k kept => by
      have makes := handle_makes k (Notice.raises_of_routine plain)
      exact ⟨step k _ kept (handle_routine k plain) makes, makes.1⟩) fuel routine h

end Sys2Proof.Machine
end

section
/-! ## The wind-up of a cascade without a show

With no show active, what the arbiter, the channels and the mechanism still have to tell each other reaches neither the
deck nor the fan nor the cutoff; with the arbiter closed it does not reach the lamp and the mechanism either. -/

namespace Sys2Proof.Machine

open Sys2Proof.Safety

/-- A notice between arbiter, channels, engine and mechanism; with `granting` also one of the mechanism to the lamp. -/
def Notice.follows (granting : Bool) : Notice → Bool
  | .outcome _ _ | .deliver _ _ | .slotEmpty _ | .select | .terminalCount _ | .dropRead => true
  | .deposit .run (.changeTo _) => true
  | .darken _ _ | .release _ => granting
  | _ => false

/-- These notices are of the wind-up, or the Report Writer takes them at once. -/
def FollowUps (granting : Bool) (ns : List Notice) : Prop := ∀ n ∈ ns, n.immediate = true ∨ n.follows granting = true

section

variable {g : Bool}

@[simp] theorem followUps_nil : FollowUps g [] := nofun

@[simp] theorem followUps_cons (n : Notice) (ns : List Notice) :
    FollowUps g (n :: ns) ↔ (n.immediate = true ∨ n.follows g = true) ∧ FollowUps g ns := List.forall_mem_cons

@[simp] theorem followUps_append (a b : List Notice) : FollowUps g (a ++ b) ↔ FollowUps g a ∧ FollowUps g b :=
  List.forall_mem_append

theorem FollowUps.queued {ns : List Notice} (h : FollowUps g ns) : ∀ n ∈ queuedOf ns, n.follows g = true := by
  intro n hn
  obtain ⟨member, waits⟩ := List.mem_filter.mp hn
  exact (h n member).resolve_left fun now => by simp [now] at waits

/-! ### The engine without a show -/

/-- With no show active the engine takes an outcome into its markers alone (R175). -/
theorem Ce.takeOutcome_inactive {ce : Ce} (idle : ce.active = false) (result : OpOutcome) :
    ∃ pending service, ce.takeOutcome result = ({ ce with pendingMarker := pending, serviceMarker := service }, []) := by
  have halted (pending service : Option Bool) (reason : HaltReason) :
      Ce.halt { ce with pendingMarker := pending, serviceMarker := service } reason =
        ({ ce with pendingMarker := pending, serviceMarker := service }, []) :=
    if_neg fun active => Bool.false_ne_true (idle.symm.trans (show ce.active = true from active))
  unfold Ce.takeOutcome
  dsimp only
  by_cases pending : freesPending result = true
  · simp only [if_pos pending]
    split
    · exact ⟨_, _, halted _ _ _⟩
    · exact ⟨_, _, rfl⟩
  · simp only [if_neg pending]
    split
    · exact ⟨_, _, halted _ _ _⟩
    · exact ⟨_, _, rfl⟩

theorem Ce.running_inactive {ce : Ce} (idle : ce.active = false) : ce.showState ≠ .running := by
  intro running
  simp [Ce.active, running] at idle

theorem Ce.slotEmptied_inactive {ce : Ce} (idle : ce.active = false) (free : Bool) :
    ∃ pending service, ce.slotEmptied free = ({ ce with pendingMarker := pending, serviceMarker := service }, []) := by
  have stopped := Ce.running_inactive idle
  unfold Ce.slotEmptied Ce.offer
  split
  · exact ⟨_, _, if_neg fun h => stopped h.1⟩
  · exact ⟨_, _, if_neg fun h => stopped h.1⟩

theorem Ce.awaits?_inactive {ce : Ce} (idle : ce.active = false) (form : Nat) : ce.awaits? form = none := by
  have still : ce.waiting? = none := if_neg fun h => Ce.running_inactive idle h.1
  rw [Ce.awaits?, still]

/-! ### What is made -/

theorem Rcu.choose_followUps (u : Rcu) : FollowUps g u.choose.2 := by
  unfold Rcu.choose
  (repeat' split) <;> simp [Notice.follows]

theorem Rcu.slotEmptied_followUps (u : Rcu) : FollowUps g u.slotEmptied.2 := by
  unfold Rcu.slotEmptied
  split <;> exact Rcu.choose_followUps _

theorem Rcu.settleMarker_followUps (u : Rcu) (m : Option RunMarker) (result : OpOutcome) (n : Nat) :
    FollowUps g (u.settleMarker m result n).2 := by
  unfold Rcu.settleMarker Rcu.apply Rcu.complete
  dsimp only
  (repeat' split) <;> simp [Notice.follows, Notice.immediate]

theorem Rcu.takeOutcome_followUps (u : Rcu) (result : OpOutcome) (n : Nat) : FollowUps g (u.takeOutcome result n).2 := by
  unfold Rcu.takeOutcome
  split
  · exact Rcu.settleMarker_followUps _ _ _ _
  · exact (followUps_append _ _).mpr ⟨Rcu.settleMarker_followUps _ _ _ _, Rcu.choose_followUps _⟩

theorem deliverNotice_followUps (source : Source) (result : OpOutcome) : FollowUps g (deliverNotice source result) := by
  unfold deliverNotice
  split <;> simp [Notice.follows]

theorem slotEmptyNotice_followUps (source : Source) : FollowUps g (slotEmptyNotice source) := by
  unfold slotEmptyNotice
  split <;> simp [Notice.follows]

theorem Tmc.conclude_followUps (t : Tmc) (result : OpOutcome) {events : List Notice} (h : FollowUps g events) :
    FollowUps g (t.conclude result events).2 := by
  unfold Tmc.conclude
  split
  · exact h
  · simpa [Notice.follows] using h

theorem Tmc.begin_followUps (t : Tmc) (op : Operation) : FollowUps true (t.begin op).2 := by
  unfold Tmc.begin Tmc.shortPath Tmc.enterDarken
  dsimp only
  split
  · simp [Notice.follows]
  · simp [Notice.follows]
  · split
    · exact Tmc.conclude_followUps _ _ (by simp [Notice.immediate])
    · simp [Notice.follows]

theorem Tmc.preempt_followUps (t : Tmc) (op : Operation) : FollowUps true (t.preempt op).2 := by
  unfold Tmc.preempt Tmc.preemptDarken Tmc.preemptTurn Tmc.shortPath
  dsimp only
  split
  · split
    · simp
    · simp
    · split
      · exact (followUps_cons _ _).mpr ⟨.inr rfl, Tmc.conclude_followUps _ _ (by simp [Notice.immediate])⟩
      · simp
  · simp

theorem Ca.cutoff_followUps (ca : Ca) (sel : TraySelection) : FollowUps g (ca.cutoff sel).2 := by
  unfold Ca.cutoff
  split
  · simp
  · simp only [followUps_append]
    refine ⟨⟨fun n hn => ?_, by simp [discardedLog, Notice.immediate]⟩, fun n hn => ?_⟩ <;>
      obtain ⟨source, _, hn⟩ := List.mem_flatMap.mp hn
    · exact deliverNotice_followUps _ _ n hn
    · exact slotEmptyNotice_followUps _ n hn

end

/-! ### The arbiter in a wind-up -/

/-- The notices of `t` are those of `s`, and behind them notices of the wind-up. -/
def Winds (g : Bool) (s t : State) : Prop := ∃ made, t.notices = s.notices ++ made ∧ ∀ n ∈ made, n.follows g = true

theorem Winds.refl (g : Bool) (s : State) : Winds g s s := ⟨[], by simp⟩

theorem Winds.trans {g : Bool} {s t u : State} (first : Winds g s t) (second : Winds g t u) : Winds g s u := by
  obtain ⟨a, ha, ia⟩ := first
  obtain ⟨b, hb, ib⟩ := second
  exact ⟨a ++ b, by rw [hb, ha, List.append_assoc], List.forall_mem_append.mpr ⟨ia, ib⟩⟩

/-- The arbiter's masks stand, and a slot that is empty stays empty but for that of the channels. -/
structure CaStep (ca ca' : Ca) : Prop where
  masks : ca'.masks = ca.masks
  slots : ∀ source, source ≠ .run → ca.slots.get source = none → ca'.slots.get source = none

theorem CaStep.refl (ca : Ca) : CaStep ca ca := ⟨rfl, fun _ _ h => h⟩

theorem CaStep.trans {a b c : Ca} (h : CaStep a b) (k : CaStep b c) : CaStep a c :=
  ⟨k.masks.trans h.masks, fun source other empty => k.slots source other (h.slots source other empty)⟩

theorem CaStep.emptied (ca : Ca) (source : Source) (service : Option Operation) :
    CaStep ca { ca.empty source with inService := service } := by
  refine ⟨rfl, fun other _ empty => ?_⟩
  show (ca.slots.set source none).get other = none
  rw [PerSource.get_set, empty, ite_self]

/-- What the arbiter does in a wind-up. -/
structure ArbiterWinds (s t : State) : Prop where
  acts : ArbiterActs s t
  ca : CaStep s.ca t.ca
  winds : Winds true s t

theorem ArbiterWinds.refl (s : State) : ArbiterWinds s s := ⟨.refl s, .refl _, .refl _ s⟩

theorem ArbiterWinds.trans {s t u : State} (h : ArbiterWinds s t) (k : ArbiterWinds t u) : ArbiterWinds s u :=
  ⟨h.acts.trans k.acts, h.ca.trans k.ca, h.winds.trans k.winds⟩

section

variable (s : State)

theorem putCa_winds {g : Bool} {r : Reaction Ca} (made : FollowUps g r.2) : Winds g s (s.putCa r) :=
  ⟨_, State.putCa_notices s r, made.queued⟩

theorem putCa_arbiterWinds {r : Reaction Ca} (step : CaStep s.ca r.1) (made : FollowUps true r.2) :
    ArbiterWinds s (s.putCa r) :=
  ⟨putCa_arbiterActs s r, by simpa using step, putCa_winds s made⟩

theorem putTmc_arbiterWinds {r : Reaction Tmc} (made : FollowUps true r.2) : ArbiterWinds s (s.putTmc r) :=
  ⟨putTmc_arbiterActs s r, by simpa using .refl s.ca, _, State.putTmc_notices s r, made.queued⟩

theorem selectLoop_arbiterWinds (fuel : Nat) : ArbiterWinds s (s.selectLoop fuel) := by
  induction fuel generalizing s with
  | zero => exact .refl s
  | succ fuel ih =>
    unfold State.selectLoop
    split
    · exact .refl s
    · split
      · refine (putCa_arbiterWinds s (.emptied _ _ _) ?_).trans (ih _)
        simp [deliverNotice_followUps, slotEmptyNotice_followUps, discardedLog, Notice.immediate]
      · refine (putCa_arbiterWinds s (.emptied _ _ _) ?_).trans (putTmc_arbiterWinds _ (Tmc.begin_followUps _ _))
        simp [slotEmptyNotice_followUps, Notice.immediate]

theorem select_arbiterWinds : ArbiterWinds s s.select := by
  unfold State.select
  split
  · exact selectLoop_arbiterWinds s 5
  · exact .refl s

theorem preemptWith_arbiterWinds (source : Source) (r : Request) : ArbiterWinds s (s.preemptWith source r) := by
  unfold State.preemptWith
  split
  · exact .refl s
  · refine (putCa_arbiterWinds s (.emptied _ _ _) ?_).trans (putTmc_arbiterWinds _ (Tmc.preempt_followUps _ _))
    simp [deliverNotice_followUps, slotEmptyNotice_followUps, Notice.immediate]

theorem afterDeposit_arbiterWinds (source : Source) : ArbiterWinds s (s.afterDeposit source) := by
  unfold State.afterDeposit
  split
  · exact select_arbiterWinds s
  · split
    · split
      · exact preemptWith_arbiterWinds s _ _
      · exact .refl s
    · exact .refl s

/-- The channels' record goes into their slot where that is empty (R130). -/
theorem Ca.accept_run {ca ca' : Ca} {n : Nat} {kind : OpKind} (accepted : ca.accept n .run kind = some ca') :
    ca.slots.get .run = none ∧ ca' = ca.fill .run kind := by
  unfold Ca.accept at accepted
  split at accepted
  · next empty => exact ⟨empty, (Option.some.inj accepted).symm⟩
  · rw [if_neg (by decide)] at accepted
    cases accepted

theorem CaStep.filled (ca : Ca) (kind : OpKind) : CaStep ca (ca.fill .run kind) := by
  refine ⟨rfl, fun source other empty => ?_⟩
  show (ca.slots.set .run _).get source = none
  rw [PerSource.get_set, if_neg other.symm, empty]

theorem select_closed (closed : s.arbiterOpen = false) : s.select = s := by
  rw [State.select, closed, Bool.and_false]
  rfl

end

/-- With the arbiter closed a deposit waits (R135, R141). -/
theorem afterDeposit_closed {s : State} (closed : s.arbiterOpen = false) (source : Source) : s.afterDeposit source = s := by
  have kept (r : Request) : s.preempts source r = false := by
    unfold State.preempts
    split
    · rfl
    · simp [closed]
  unfold State.afterDeposit
  split
  · exact select_closed s closed
  · split
    · next r _ => rw [kept r]; rfl
    · rfl

/-! ### A step of the wind-up -/

/-- A step of the wind-up reaches the arbiter, the channels, the engine's markers and, when granting, mechanism and lamp. -/
structure WindStep (g : Bool) (s t : State) : Prop where
  cu : t.cu = s.cu
  fc : t.fc = s.fc
  ttc : t.ttc = s.ttc
  ce : ∃ pending service, t.ce = { s.ce with pendingMarker := pending, serviceMarker := service }
  ca : CaStep s.ca t.ca
  winds : Winds g s t
  closed : g = false → t.lc = s.lc ∧ t.tmc = s.tmc ∧ (s.ca.inService = none → t.ca.inService = none)

theorem WindStep.refl (g : Bool) (s : State) : WindStep g s s :=
  ⟨rfl, rfl, rfl, ⟨_, _, rfl⟩, .refl _, .refl g s, fun _ => ⟨rfl, rfl, id⟩⟩

theorem ArbiterWinds.windStep {s t : State} (h : ArbiterWinds s t) : WindStep true s t :=
  ⟨h.acts.cu, h.acts.fc, h.acts.ttc, ⟨_, _, h.acts.ce⟩, h.ca, h.winds, nofun⟩

/-- A notice of the wind-up, with no show active. -/
theorem handle_winds {g : Bool} {s : State} {n : Notice} (idle : s.ce.active = false) (follows : n.follows g = true)
    (closed : g = false → s.arbiterOpen = false) : WindStep g s (State.handle n s) := by
  have engine {r : Reaction Ce} (h : ∃ pending service, r = ({ s.ce with pendingMarker := pending, serviceMarker := service }, [])) :
      WindStep g s (s.putCe r) := by
    obtain ⟨pending, service, rfl⟩ := h
    exact ⟨by simp, by simp, by simp, ⟨pending, service, by simp⟩, by simpa using .refl s.ca, ⟨[], by simp [State.putCe_notices]⟩,
      fun _ => by simp⟩
  have channels {r : Reaction Rcu} (made : FollowUps g r.2) : WindStep g s (s.putRcu r) :=
    ⟨by simp, by simp, by simp, ⟨_, _, by simp; rfl⟩, by simpa using .refl s.ca, ⟨_, State.putRcu_notices s r, made.queued⟩,
      fun _ => by simp⟩
  have lamp {lc : Lc} (state : lc.state = s.lc.state) (h : lc.h = s.lc.h) (ds : lc.derateStart = s.lc.derateStart)
      (granting : g = true) : WindStep g s (s.putLc (lc, [])) :=
    ⟨by simp, by simp, by simp, ⟨_, _, by simp; rfl⟩, by simpa using .refl s.ca,
      ⟨[], by simp [State.putLc_notices, fanNotices_eq_nil state h ds]⟩, fun shut => by rw [granting] at shut; cases shut⟩
  cases n with
  | outcome op result =>
    simp only [State.handle, State.takeOutcome]
    split
    · refine ⟨by simp, by simp, by simp, ⟨_, _, by simp; rfl⟩, by simpa using ⟨rfl, fun _ _ h => h⟩,
        putCa_winds s (by simp [deliverNotice_followUps, Notice.follows]), fun _ => by simp⟩
    · exact .refl g s
  | deliver source result =>
    cases source with
    | cue => exact engine (Ce.takeOutcome_inactive idle result)
    | run => exact channels (Rcu.takeOutcome_followUps _ _ _)
    | _ => exact .refl g s
  | slotEmpty source =>
    cases source with
    | cue => exact engine (Ce.slotEmptied_inactive idle _)
    | run => exact channels (Rcu.slotEmptied_followUps _)
    | _ => exact .refl g s
  | select =>
    cases g with
    | true => exact (select_arbiterWinds s).windStep
    | false => rw [State.handle, select_closed s (closed rfl)]; exact .refl _ s
  | terminalCount c =>
    rw [State.handle, State.terminalCount, Ce.awaits?_inactive idle]
    exact .refl g s
  | dropRead => exact ⟨rfl, rfl, rfl, ⟨_, _, rfl⟩, .refl _, ⟨[], by simp [State.handle]⟩, fun _ => ⟨rfl, rfl, id⟩⟩
  | deposit source kind =>
    obtain rfl : source = .run := by cases source <;> first | rfl | cases follows
    simp only [State.handle, State.deposit]
    split
    · next ca accepted =>
      obtain ⟨_, rfl⟩ := Ca.accept_run accepted
      have made (g : Bool) : FollowUps g (if (s.ca.slot .run).isNone then [.dirty 6] else []) := by
        split <;> simp [Notice.immediate]
      have filled := putCa_arbiterWinds s (r := (s.ca.fill .run kind, _)) (.filled s.ca kind) (made true)
      cases g with
      | true => exact (filled.trans (afterDeposit_arbiterWinds _ .run)).windStep
      | false =>
        rw [afterDeposit_closed (by simpa [State.arbiterOpen] using closed rfl)]
        exact ⟨by simp, by simp, by simp, ⟨_, _, by simp; rfl⟩, by simpa using .filled s.ca kind,
          putCa_winds s (made false), fun _ => ⟨by simp, by simp, by simp [Ca.fill]⟩⟩
    · exact .refl g s
  | darken outTime level =>
    obtain ⟨state, h, ds⟩ := s.lc.takeDarken_heat outTime level
    exact lamp state h ds follows
  | release inTime =>
    obtain ⟨state, h, ds⟩ := s.lc.takeRelease_heat inTime
    exact lamp state h ds follows
  | _ => cases follows

/-- What the steps of a wind-up keep, a drain of it keeps. -/
theorem drain_winds {P : State → Prop} (inert : Inert P) {g : Bool} (step : ∀ k t, P k → WindStep g k t → P t) (fuel : Nat)
    {s : State} (idle : s.ce.active = false) (closed : g = false → s.arbiterOpen = false)
    (follows : ∀ n ∈ s.notices, n.follows g = true) (h : P s) : P (State.drain fuel s) := by
  have kept := drain_keeps (P := fun k => P k ∧ k.ce.active = false ∧ (g = false → k.arbiterOpen = false))
    (C := fun n => n.follows g = true) (fun k notices lines h => ⟨inert k notices lines h.1, h.2⟩)
    (fun n member k ⟨h, still, shut⟩ => by
      have wind := handle_winds still member shut
      obtain ⟨pending, service, ce⟩ := wind.ce
      refine ⟨⟨step k _ h wind, by rw [ce]; exact still, fun no => ?_⟩, wind.winds⟩
      rw [State.arbiterOpen, wind.cu]
      exact shut no) fuel follows ⟨h, idle, closed⟩
  exact kept.1

/-! ### A mechanism that waits for a HOME -/

/-- The mechanism is UNHOMED, and every unmasked request that waits is a change (R137). -/
structure NoHome (s : State) : Prop where
  state : s.tmc.state = .unhomed
  slots : ∀ source q, s.ca.slots.get source = some q → s.ca.masks.get source = true ∨ changesSlide q.kind = true

theorem NoHome.emptied {s : State} (h : NoHome s) (source : Source) {ns : List Notice} :
    NoHome (s.putCa (s.ca.empty source, ns)) := by
  refine ⟨by simpa using h.state, fun other q waits => ?_⟩
  simp only [State.putCa_ca] at waits ⊢
  refine h.slots other q ?_
  have found : (s.ca.slots.set source none).get other = some q := waits
  rw [PerSource.get_set] at found
  split at found
  · cases found
  · exact found

/-- An UNHOMED mechanism refuses every change (R137). -/
theorem NoHome.select {s : State} (h : NoHome s) : NoHome s.select := by
  have loop (fuel : Nat) {k : State} (h : NoHome k) : NoHome (k.selectLoop fuel) := by
    induction fuel generalizing k with
    | zero => exact h
    | succ fuel ih =>
      unfold State.selectLoop
      split
      · exact h
      · next source r chosen =>
        obtain ⟨unmasked, waits, _⟩ := Ca.best?_some chosen
        have change : changesSlide r.kind = true := (h.slots source r waits).resolve_left (by simp [unmasked])
        have refused : k.tmc.refusal? r.kind = some .refusedUnhomed := by
          cases kind : r.kind <;> simp [kind, changesSlide] at change <;> simp [Tmc.refusal?, h.state]
        rw [refused]
        exact ih (h.emptied source)
  unfold State.select
  split
  · exact loop 5 h
  · exact h

theorem NoHome.afterDeposit {s : State} (h : NoHome s) (source : Source) : NoHome (s.afterDeposit source) := by
  have moving : s.tmc.preemptible = false := by simp [Tmc.preemptible, h.state]
  unfold State.afterDeposit
  split
  · exact h.select
  · split
    · next r _ =>
      have kept : s.preempts source r ≠ true := fun preempts => by simpa [moving] using (State.preempts_accepts preempts).1
      rw [if_neg kept]
      exact h
    · exact h

/-- A wind-up without a show brings no HOME and no CLEAR_GATE. -/
theorem NoHome.handle {s : State} (h : NoHome s) (idle : s.ce.active = false) {n : Notice} (follows : n.follows true = true) :
    NoHome (State.handle n s) := by
  have same {t : State} (tmc : t.tmc = s.tmc) (ca : t.ca.slots = s.ca.slots ∧ t.ca.masks = s.ca.masks) : NoHome t :=
    ⟨by rw [tmc]; exact h.state, by rw [ca.1, ca.2]; exact h.slots⟩
  cases n with
  | outcome op result =>
    simp only [State.handle, State.takeOutcome]
    split
    · exact same (by simp) (by simp)
    · exact h
  | deliver source result =>
    cases source with
    | cue => exact same (by simp [State.handle, State.deliver]) (by simp [State.handle, State.deliver])
    | run => exact same (by simp [State.handle, State.deliver]) (by simp [State.handle, State.deliver])
    | _ => exact h
  | slotEmpty source =>
    cases source with
    | cue => exact same (by simp [State.handle, State.slotEmptied]) (by simp [State.handle, State.slotEmptied])
    | run => exact same (by simp [State.handle, State.slotEmptied]) (by simp [State.handle, State.slotEmptied])
    | _ => exact h
  | select => exact h.select
  | terminalCount c =>
    rw [State.handle, State.terminalCount, Ce.awaits?_inactive idle]
    exact h
  | dropRead => exact same rfl ⟨rfl, rfl⟩
  | deposit source kind =>
    obtain rfl : source = .run := by cases source <;> first | rfl | cases follows
    have change : changesSlide kind = true := by cases kind <;> first | rfl | cases follows
    simp only [State.handle, State.deposit]
    split
    · next ca accepted =>
      obtain ⟨_, rfl⟩ := Ca.accept_run accepted
      refine NoHome.afterDeposit ⟨by simpa using h.state, fun source q waits => ?_⟩ .run
      simp only [State.putCa_ca] at waits ⊢
      have found : (s.ca.slots.set .run (some ⟨kind, s.ca.levels.get .run⟩)).get source = some q := waits
      rw [PerSource.get_set] at found
      split at found
      · cases found
        exact .inr change
      · exact h.slots source q found
    · exact h
  | darken outTime level => exact same (by simp [State.handle]) (by simp [State.handle])
  | release inTime => exact same (by simp [State.handle]) (by simp [State.handle])
  | _ => cases follows

/-- So the mechanism stays UNHOMED through it. -/
theorem drain_noHome (fuel : Nat) {s : State} (idle : s.ce.active = false) (follows : ∀ n ∈ s.notices, n.follows true = true)
    (h : NoHome s) : (State.drain fuel s).tmc.state = .unhomed := by
  have kept := drain_keeps (P := fun k => NoHome k ∧ k.ce.active = false) (C := fun n => n.follows true = true)
    (fun k notices lines h => ⟨⟨h.1.state, h.1.slots⟩, h.2⟩)
    (fun n member k ⟨h, still⟩ => by
      have wind := handle_winds (g := true) still member nofun
      obtain ⟨pending, service, ce⟩ := wind.ce
      exact ⟨⟨h.handle still member, by rw [ce]; exact still⟩, wind.winds⟩) fuel follows ⟨h, idle⟩
  exact kept.1.state

end Sys2Proof.Machine
end

section
/-! ## Stretches of a cascade -/

namespace Sys2Proof.Machine

open Sys2Proof.Safety

/-- These notices, at the front of the queue, take `u` to `u'`, with these entries and these notices made. -/
def Stretch (front : List Notice) (u u' : State) (events : List (Event × Half)) (made : List Notice) : Prop :=
  ∀ fuel rest s before, StandsAt u before (front ++ rest) s →
    ∃ s', StandsAt u' (before ++ events) (rest ++ made) s' ∧ State.drain (fuel + front.length) s = State.drain fuel s'

theorem Stretch.nil (u : State) : Stretch [] u u [] [] := fun fuel rest s before h => ⟨s, by simpa using h, rfl⟩

theorem Stretch.one {n : Notice} {u u' : State} {events : List (Event × Half)} {made : List Notice}
    (h : Handled n u u' events made) : Stretch [n] u u' events made := fun fuel rest s _ k =>
  ⟨_, (h _ _ _ k.pop).act, State.drain_cons s fuel n rest k.notices⟩

theorem Stretch.append {a b : List Notice} {u v w : State} {first later : List (Event × Half)} {made more : List Notice}
    (h : Stretch a u v first made) (k : Stretch b v w later more) :
    Stretch (a ++ b) u w (first ++ later) (made ++ more) := by
  intro fuel rest s before stands
  rw [List.append_assoc] at stands
  obtain ⟨s₁, stands₁, drains₁⟩ := h (fuel + b.length) (b ++ rest) s before stands
  rw [List.append_assoc] at stands₁
  obtain ⟨s₂, stands₂, drains₂⟩ := k fuel (rest ++ made) s₁ _ stands₁
  refine ⟨s₂, by simpa only [List.append_assoc] using stands₂, ?_⟩
  rw [List.length_append, Nat.add_comm a.length, ← Nat.add_assoc, drains₁, drains₂]

/-- A drain goes through a stretch. -/
theorem Stretch.drains {front rest : List Notice} {u v : State} {events : List (Event × Half)} {made : List Notice}
    (h : Stretch front u v events made) {fuel : Nat} (enough : front.length ≤ fuel) {s : State} {before : List (Event × Half)}
    (stands : StandsAt u before (front ++ rest) s) :
    ∃ left s', StandsAt v (before ++ events) (rest ++ made) s' ∧ left = fuel - front.length ∧
      State.drain fuel s = State.drain left s' := by
  obtain ⟨s', stands', drains⟩ := h (fuel - front.length) rest s before stands
  rw [Nat.sub_add_cancel enough] at drains
  exact ⟨_, s', stands', rfl, drains⟩

/-- A stretch that makes nothing is all that its notices lead to. -/
theorem Stretch.leads {front : List Notice} {u v : State} {events : List (Event × Half)} (h : Stretch front u v events [])
    {fuel : Nat} (enough : front.length ≤ fuel) : Leads fuel u front v events := by
  intro s before stands
  obtain ⟨left, s', stands', _, drains⟩ := h.drains (rest := []) enough (by simpa using stands)
  rw [drains, State.drain_nil s' left (by simpa using stands'.notices)]
  simpa using stands'

/-- A notice, left out where it is skipped. -/
def spare (skip : Bool) (n : Notice) : List Notice := if skip then [] else [n]

theorem spare_length (skip : Bool) (n : Notice) : (spare skip n).length ≤ 1 := by cases skip <;> simp [spare]

/-- A notice that is left out where it has nothing to say. -/
theorem Stretch.skip {n : Notice} {u u' : State} {events : List (Event × Half)} {made : List Notice} {skip : Bool}
    (skipped : skip = true → u' = u ∧ events = [] ∧ made = [])
    (h : skip = false → Handled n u u' events made) : Stretch (spare skip n) u u' events made := by
  cases skip with
  | true =>
    obtain ⟨rfl, rfl, rfl⟩ := skipped rfl
    exact .nil _
  | false => exact .one (h rfl)

/-! ### What holds of every cascade without a cause -/

/-- A cascade without a cause hands its entries over behind those of its act (R213). -/
theorem drain_appends (fuel : Nat) {s : State} (quiet : ∀ n ∈ s.notices, n.raises = false) :
    ∃ later, (State.drain fuel s).rw.buffer = s.rw.buffer ++ later := by
  refine drain_keeps (P := fun k => ∃ later, k.rw.buffer = s.rw.buffer ++ later) (C := fun n => n.raises = false)
    (fun _ _ _ h => h) (fun n still k ⟨later, joined⟩ => ?_) fuel quiet ⟨[], by simp⟩
  obtain ⟨⟨made, notices, routine⟩, more, buffer⟩ := handle_makes k still
  exact ⟨⟨later ++ more, by rw [buffer, joined, List.append_assoc]⟩, made, notices,
    fun m hm => Notice.raises_of_routine (routine m hm)⟩

theorem logsFirst_run {s u : State} {f : State → State} {events : List (Event × Half)} {queue : List Notice}
    (stands : StandsAt u events queue (f s)) (same : u.rw = s.rw) (quiet : ∀ n ∈ queue, n.raises = false) :
    LogsFirst events s (s.run f) := by
  intro busy room
  obtain ⟨later, joined⟩ := drain_appends Config.cascadeFuel (s := s.act f)
    (by rw [State.act_notices, stands.notices]; exact quiet)
  have job : (s.carry f).rw.job = s.rw.job := by rw [(s.carry_kept f).job, stands.job, same]
  refine ⟨later, ?_⟩
  rw [State.run, State.settle_rw_buffer _ (by rw [job]; exact busy), State.carry, joined, State.act_rw_buffer,
    stands.buffer (by rw [same]; exact room), same]

/-- What no cascade reaches stays as the act left it. -/
theorem unchanged_run {s u : State} {f : State → State} {events : List (Event × Half)} {queue : List Notice}
    (stands : StandsAt u events queue (f s)) (mem : u.mem = s.mem) (pu : u.pu = s.pu) (rw : u.rw = s.rw) (rr : u.rr = s.rr)
    (pending : u.pending = s.pending) : Unchanged
      [.decoder, .cutoff, .lamp, .mechanism, .arbiter, .channels, .deck, .fan, .engine, .waitCount] s (s.run f) := by
  intro p hp
  cases p <;> simp at hp <;> simp [Part.same, stands.mem, stands.pu, stands.rr, stands.pending, stands.uptime,
    stands.writeIndex, stands.readIndex, mem, pu, rw, rr, pending]

/-! ### A directive of the cutoff, where it stands -/

/-- Notices that all wait. -/
theorem queued_waiting {ns : List Notice} (waits : ∀ n ∈ ns, n.immediate = false) : queuedOf ns = ns ∧ loggedOf ns = [] := by
  refine ⟨List.filter_eq_self.mpr fun n hn => by simp [waits n hn], List.filterMap_eq_nil_iff.mpr fun n hn => ?_⟩
  have waiting := waits n hn
  cases n <;> first | rfl | cases waiting

/-- A directive of the cutoff, before its notices are taken. -/
theorem row_stands_cu {s : State} (ready : Ready s) {code : Byte} {owner : State → State × Result} {result : Result}
    (r : Reaction Cu) (act : ∀ k : State, k.cu = s.cu → owner k = (k.putCu r, result)) :
    ∃ dd : Dd, dd.taken = s.dd.taken ∧ StandsAt { s with cu := r.1, dd := dd.answer code result }
      (abandoned code s ++ loggedOf r.2) (queuedOf r.2) (State.takeRow code owner s) := by
  refine row_stands (u := { s with cu := r.1 }) ready fun dd k before h => ?_
  rw [act k h.cu]
  exact ⟨rfl, h.putCu r⟩

end Sys2Proof.Machine
end

section
/-! ## CUTOFF_CLEAR (04) -/

namespace Sys2Proof.Machine

open Sys2Proof.Safety

/-! ### The Cutoff Unit's answer (R85, R86) -/

/-- The level causes of the set that are present, as a number (R85). -/
theorem Cu.blocking_toNat (cu : Cu) {held : Cause → Bool} (law : held = fun c => cu.inSet c && cu.present c) :
    cu.blocking.toNat = flagBit (held .overheat) 0 + flagBit (held .thermostat) 1 + flagBit (held .interlock) 2 +
      flagBit (held .trayLost) 3 := by
  have sum : ∀ a b c d : Bool,
      ((([(Cause.overheat, a), (.thermostat, b), (.interlock, c), (.trayLost, d)].filter (·.2)).foldl
        (fun byte p => byte ||| p.1.bit) (0 : Byte)).toNat = flagBit a 0 + flagBit b 1 + flagBit c 2 + flagBit d 3) := by
    decide
  have shape : cu.blocking = ([(Cause.overheat, held .overheat), (.thermostat, held .thermostat),
      (.interlock, held .interlock), (.trayLost, held .trayLost)].filter (·.2)).foldl
        (fun byte p => byte ||| p.1.bit) (0 : Byte) := by
    subst law
    simp only [Cu.blocking, Cause.levels, List.filter]
    (repeat' split) <;> rfl
  rw [shape, sum]

/-- The Cutoff Unit after the clear (R86). -/
def Cu.cleared (cu : Cu) : Cu := { cu with flag := false, causes := 0, lampHanded := .none }

/-- The clear's own act (R86). -/
theorem Cu.clear_done {cu : Cu} (flag : cu.flag = true) (free : cu.blocking = 0) :
    cu.clear = ((cu.cleared, .log .cutoffCleared (halfOf cu.causes.toNat) ::
      (spare (cu.lampHanded == .none) (.lampImposition .none) ++ cu.clearNotices)), .done) := by
  have none_now : Cu.lampImposition { cu with flag := false, causes := 0 } = .none := by simp [Cu.lampImposition]
  unfold Cu.clear Cu.handLamp
  simp only [flag, not_true_eq_false, if_false, free, ne_eq, none_now]
  by_cases handed : cu.lampHanded = .none
  · simp [handed, Cu.cleared, spare]
  · simp [handed, Ne.symm handed, Cu.cleared, spare]

/-! ### The impositions lifted -/

/-- The lamp without its imposition (R51). -/
theorem Lc.impose_none (lc : Lc) (blackout inTime : Nat) : (lc.impose .none blackout inTime).2 = [] ∧
    (lc.impose .none blackout inTime).1.imposition = .none ∧
    (lc.impose .none blackout inTime).1.state = lc.state ∧ (lc.impose .none blackout inTime).1.h = lc.h ∧
    (lc.impose .none blackout inTime).1.derateStart = lc.derateStart := by
  unfold Lc.impose
  dsimp only
  (repeat' split) <;> simp_all [Lc.recompute_imposition, Lc.startFade]

/-- The lamp's record once the imposition that it was handed is lifted. -/
def State.litAgain (s : State) : Lc :=
  if s.cu.lampHanded == .none then s.lc else (s.lc.impose .none s.tmc.blackout s.tmc.inTime).1

/-- The deck's record once its impositions are lifted (R79). -/
def State.heardAgain (s : State) : Ttc :=
  let t := if s.cu.tapeIgnore then s.ttc else { s.ttc with stopImposed := false }
  if s.cu.audioIgnore then t else t.imposeAudio false

/-- The fan's answer once its imposition is lifted (R80). -/
def State.fanAgain (s : State) : Reaction Fc :=
  if s.cu.fanIgnore then (s.fc, []) else Fc.compute { s.fc with full := false } s.lc.h s.lc.derateStart s.lc.lampActive

/-- The blocks with every imposition lifted (R86). -/
def State.lifted (s : State) : State :=
  { s with cu := s.cu.cleared, lc := s.litAgain, ttc := s.heardAgain, fc := s.fanAgain.1, tmc := s.tmc.clear.1 }

theorem State.litAgain_heat (s : State) : s.litAgain.state = s.lc.state ∧ s.litAgain.h = s.lc.h ∧
    s.litAgain.derateStart = s.lc.derateStart ∧ s.litAgain.lampActive = s.lc.lampActive := by
  obtain ⟨_, _, state, h, ds⟩ := s.lc.impose_none s.tmc.blackout s.tmc.inTime
  unfold State.litAgain
  split
  · exact ⟨rfl, rfl, rfl, rfl⟩
  · exact ⟨state, h, ds, by simp [Lc.lampActive, state]⟩

theorem State.litAgain_free (s : State) (handed : s.lc.imposition = s.cu.lampHanded) : s.litAgain.imposition = .none := by
  obtain ⟨_, imposition, _⟩ := s.lc.impose_none s.tmc.blackout s.tmc.inTime
  unfold State.litAgain
  split
  · next none_handed => exact handed.trans (by simpa using none_handed)
  · exact imposition

/-- A capped lamp that is lit fades back up (R51). -/
theorem State.litAgain_cap {s : State} (cap : s.lc.imposition = .cap) (handed : s.cu.lampHanded = .cap)
    (hold : s.lc.hold = .none) (lit : s.lc.state = .lit) :
    s.litAgain.fade = some ⟨s.lc.output, s.lc.showLevel, 4, s.tmc.inTime, 0⟩ := by
  simp [State.litAgain, Lc.impose, Lc.startFade, cap, handed, hold, lit]

theorem Ttc.imposeAudio_fields (t : Ttc) (mute : Bool) : (t.imposeAudio mute).state = t.state ∧
    (t.imposeAudio mute).stopImposed = t.stopImposed ∧ (t.imposeAudio mute).muteImposed = mute := by
  unfold Ttc.imposeAudio Ttc.startRamp
  by_cases same : mute = t.muteImposed
  · rw [if_pos same]
    exact ⟨rfl, rfl, same.symm⟩
  · rw [if_neg same]
    (repeat' split) <;> exact ⟨rfl, rfl, rfl⟩

theorem State.heardAgain_state (s : State) : s.heardAgain.state = s.ttc.state := by
  unfold State.heardAgain
  dsimp only
  (repeat' split) <;> first | rfl | exact (Ttc.imposeAudio_fields _ _).1

theorem State.heardAgain_stop {s : State} (heard : s.cu.tapeIgnore = false) : s.heardAgain.stopImposed = false := by
  unfold State.heardAgain
  dsimp only
  rw [heard]
  split
  · rfl
  · exact (Ttc.imposeAudio_fields _ _).2.1

theorem State.heardAgain_mute {s : State} (heard : s.cu.audioIgnore = false) : s.heardAgain.muteImposed = false := by
  unfold State.heardAgain
  dsimp only
  rw [heard]
  exact (Ttc.imposeAudio_fields _ _).2.2

/-- The sound ramps back to its level (R79, R109). -/
theorem State.heardAgain_ramp {s : State} (heard : s.cu.audioIgnore = false) (muted : s.ttc.muteImposed = true) :
    s.heardAgain.level = s.ttc.level ∧ s.heardAgain.setLevel = s.ttc.setLevel ∧
      s.heardAgain.ramp = if s.ttc.level = s.ttc.setLevel then none else some ⟨s.ttc.level, s.ttc.setLevel, 100, 0, 0⟩ := by
  have level (t : Ttc) (mute : t.muteImposed = true) : (t.imposeAudio false).level = t.level ∧
      (t.imposeAudio false).setLevel = t.setLevel ∧ (t.imposeAudio false).ramp =
        if t.level = t.setLevel then none else some ⟨t.level, t.setLevel, 100, 0, 0⟩ := by
    by_cases same : t.level = t.setLevel <;> simp [Ttc.imposeAudio, Ttc.startRamp, mute, same]
  simp only [State.heardAgain, heard, Bool.false_eq_true, if_false]
  split
  · exact level _ muted
  · exact level { s.ttc with stopImposed := false } muted

/-- The clear's notices up to the selection (R86). -/
def Cu.lifts (cu : Cu) : List Notice :=
  spare (cu.lampHanded == .none) (.lampImposition .none) ++ spare cu.tapeIgnore (.tapeImposition false) ++
    spare cu.audioIgnore (.audioImposition false) ++ spare cu.fanIgnore (.fanImposition false) ++ [.trayClear]

theorem Cu.lifts_length (cu : Cu) : cu.lifts.length ≤ 5 := by
  have lamp := spare_length (cu.lampHanded == .none) (.lampImposition .none)
  have tape := spare_length cu.tapeIgnore (.tapeImposition false)
  have sound := spare_length cu.audioIgnore (.audioImposition false)
  have fan := spare_length cu.fanIgnore (.fanImposition false)
  simp only [Cu.lifts, List.length_append, List.length_cons, List.length_nil]
  omega

/-- They lift every imposition. -/
theorem lifting (s : State) (dd : Dd) :
    Stretch s.cu.lifts { s with dd := dd, cu := s.cu.cleared } { s.lifted with dd := dd } (loggedOf s.fanAgain.2) [] := by
  obtain ⟨state, h, ds, active⟩ := s.litAgain_heat
  have lamp : Stretch (spare (s.cu.lampHanded == .none) (.lampImposition .none))
      { s with dd := dd, cu := s.cu.cleared } { s with dd := dd, cu := s.cu.cleared, lc := s.litAgain } [] [] :=
    .skip (fun handed => by simp [State.litAgain, handed]) fun handed k before queue stands => by
      obtain ⟨quiet, _⟩ := s.lc.impose_none s.tmc.blackout s.tmc.inTime
      have lit : s.litAgain = (s.lc.impose .none s.tmc.blackout s.tmc.inTime).1 := by simp [State.litAgain, handed]
      have put := stands.putLc (s.lc.impose .none s.tmc.blackout s.tmc.inTime)
      rw [quiet, ← lit, fanNotices_eq_nil state h ds] at put
      rw [State.handle, stands.lc, stands.tmc]
      exact put
  have tape : Stretch (spare s.cu.tapeIgnore (.tapeImposition false))
      { s with dd := dd, cu := s.cu.cleared, lc := s.litAgain }
      { s with dd := dd, cu := s.cu.cleared, lc := s.litAgain
               ttc := if s.cu.tapeIgnore then s.ttc else { s.ttc with stopImposed := false } } [] [] :=
    .skip (fun ignored => by simp [ignored]) fun heard k before queue stands => by
      rw [State.handle, stands.ttc, if_neg (by simp [heard])]
      exact stands.putTtc ({ s.ttc with stopImposed := false }, [])
  have sound : Stretch (spare s.cu.audioIgnore (.audioImposition false))
      { s with dd := dd, cu := s.cu.cleared, lc := s.litAgain
               ttc := if s.cu.tapeIgnore then s.ttc else { s.ttc with stopImposed := false } }
      { s with dd := dd, cu := s.cu.cleared, lc := s.litAgain, ttc := s.heardAgain } [] [] :=
    .skip (fun ignored => by simp [State.heardAgain, ignored]) fun heard k before queue stands => by
      rw [State.handle, stands.ttc, State.heardAgain, if_neg (by simp [heard])]
      exact stands.putTtc (_, [])
  have fan : Stretch (spare s.cu.fanIgnore (.fanImposition false))
      { s with dd := dd, cu := s.cu.cleared, lc := s.litAgain, ttc := s.heardAgain }
      { s with dd := dd, cu := s.cu.cleared, lc := s.litAgain, ttc := s.heardAgain, fc := s.fanAgain.1 }
      (loggedOf s.fanAgain.2) [] :=
    .skip (fun ignored => by simp [State.fanAgain, ignored]) fun driven k before queue stands => by
      have again : s.fanAgain = Fc.impose s.fc false s.litAgain.h s.litAgain.derateStart s.litAgain.lampActive := by
        rw [State.fanAgain, if_neg (by simp [driven]), h, ds, active]
        rfl
      have put := stands.putFc s.fanAgain
      rw [show queuedOf s.fanAgain.2 = [] by rw [again]; exact Fc.compute_quiet _ _ _ _] at put
      rw [State.handle, stands.fc, stands.lc]
      rw [again] at put ⊢
      exact put
  have tray : Handled .trayClear
      { s with dd := dd, cu := s.cu.cleared, lc := s.litAgain, ttc := s.heardAgain, fc := s.fanAgain.1 }
      { s.lifted with dd := dd } [] [] := fun k before queue stands => by
    have put := stands.putTmc s.tmc.clear
    rw [show s.tmc.clear.2 = [] by rw [Tmc.clear_eq]] at put
    rw [State.handle, stands.tmc]
    exact put
  simpa only [Cu.lifts, List.append_nil, List.nil_append] using (((lamp.append tape).append sound).append fan).append (.one tray)

/-- The clear's notices in their order: those that lift, then the selection. -/
theorem Cu.clear_queue (cu : Cu) :
    spare (cu.lampHanded == .none) (.lampImposition .none) ++ cu.clearNotices = cu.lifts ++ [.select] := by
  simp [Cu.clearNotices, Cu.lifts, spare]

theorem Cu.clear_waits (cu : Cu) : ∀ n ∈ cu.lifts ++ [.select], n.immediate = false ∧ n.raises = false := by
  have one {skip : Bool} {n : Notice} (h : n.immediate = false ∧ n.raises = false) :
      ∀ m ∈ spare skip n, m.immediate = false ∧ m.raises = false := by cases skip <;> simp [spare, h]
  simp only [Cu.lifts, List.forall_mem_append]
  exact ⟨⟨⟨⟨⟨one ⟨rfl, rfl⟩, one ⟨rfl, rfl⟩⟩, one ⟨rfl, rfl⟩⟩, one ⟨rfl, rfl⟩⟩, by simp [Notice.immediate, Notice.raises]⟩,
    by simp [Notice.immediate, Notice.raises]⟩

/-- A clear that is taken, before its notices are. -/
theorem cutoffClear_acts {s : State} (ready : Ready s) (flag : s.cu.flag = true) (free : s.cu.blocking = 0) :
    ∃ dd : Dd, dd.taken = s.dd.taken ∧ StandsAt { s with cu := s.cu.cleared, dd := dd.answer 0x3B .done }
      (abandoned 0x3B s ++ [(.cutoffCleared, halfOf s.cu.causes.toNat)]) (s.cu.lifts ++ [.select])
      (State.takeRow 0x3B dirCutoffClear s) := by
  have done := Cu.clear_done flag free
  rw [Cu.clear_queue] at done
  obtain ⟨queued, logged⟩ := queued_waiting fun n hn => (s.cu.clear_waits n hn).1
  obtain ⟨dd, taken, stands⟩ := row_stands_cu (code := 0x3B) (owner := dirCutoffClear) (result := .done) ready
    (s.cu.cleared, .log .cutoffCleared (halfOf s.cu.causes.toNat) :: (s.cu.lifts ++ [.select]))
    (fun k same => by rw [dirCutoffClear, same, done])
  rw [loggedOf_log, queuedOf_log, queued, logged] at stands
  exact ⟨dd, taken, stands⟩

/-- A clear that is taken: where its selection is due, with every imposition lifted. -/
theorem cutoffClear_stands {s : State} (ready : Ready s) (flag : s.cu.flag = true) (free : s.cu.blocking = 0) :
    ∃ (dd : Dd) (left : Nat) (k : State), dd.taken = s.dd.taken ∧
      StandsAt { s.lifted with dd := dd.answer 0x3B .done }
        (abandoned 0x3B s ++ [(.cutoffCleared, halfOf s.cu.causes.toNat)] ++ loggedOf s.fanAgain.2) [.select] k ∧
      s.carry (State.takeRow 0x3B dirCutoffClear) = State.drain left k := by
  obtain ⟨dd, taken, stands⟩ := cutoffClear_acts ready flag free
  obtain ⟨left, k, here, _, drains⟩ := (lifting s (dd.answer 0x3B .done)).drains (fuel := Config.cascadeFuel)
    (s.cu.lifts_length.trans (by decide)) stands.act
  rw [List.append_nil] at here
  exact ⟨dd, left, k, taken, here, drains⟩

/-- With nothing pending the clear ends with every imposition lifted. -/
theorem cutoffClear_took {s : State} (ready : Ready s) (flag : s.cu.flag = true) (free : s.cu.blocking = 0)
    (empty : ∀ source, s.ca.slots.get source = none) :
    Took 0x3B .done s s.lifted ([(.cutoffCleared, halfOf s.cu.causes.toNat)] ++ loggedOf s.fanAgain.2)
      (s.run (State.takeRow 0x3B dirCutoffClear)) := by
  obtain ⟨dd, taken, stands⟩ := cutoffClear_acts ready flag free
  have few := s.cu.lifts_length
  have idle : Handled .select { s.lifted with dd := dd.answer 0x3B .done } { s.lifted with dd := dd.answer 0x3B .done } [] [] :=
    handled_select_idle empty
  have all := ((lifting s (dd.answer 0x3B .done)).append (.one idle)).leads (fuel := Config.cascadeFuel)
    (by rw [List.length_append]; exact Nat.le_trans (Nat.add_le_add_right few 1) (by decide))
  rw [List.append_nil] at all
  exact ⟨dd, taken, by simpa only [List.append_assoc] using run_ran stands all⟩

/-! ### The mechanism after the clear -/

/-- No cutoff holds the mechanism, and it is not JAMMED. -/
structure Unheld (t : Tmc) : Prop where
  imposition : t.imposition = none
  motor : t.motor ≠ .braked
  state : t.state ≠ .jammed

theorem Tmc.clear_unheld (t : Tmc) : Unheld t.clear.1 := by
  rw [Tmc.clear_eq]
  refine ⟨rfl, ?_, ?_⟩
  · dsimp only; split <;> simp_all
  · dsimp only; (repeat' split) <;> simp_all

theorem Tmc.conclude_fields (t : Tmc) (result : OpOutcome) (events : List Notice) :
    (t.conclude result events).1.imposition = t.imposition ∧ (t.conclude result events).1.motor = t.motor ∧
      (t.conclude result events).1.state = t.state := by
  unfold Tmc.conclude
  split <;> exact ⟨rfl, rfl, rfl⟩

theorem Tmc.begin_fields (t : Tmc) (op : Operation) : (t.begin op).1.imposition = t.imposition ∧
    (t.begin op).1.motor = t.motor ∧ ((t.begin op).1.state = .darken ∨ (t.begin op).1.state = .ready) := by
  unfold Tmc.begin Tmc.shortPath Tmc.enterDarken
  dsimp only
  split
  · exact ⟨rfl, rfl, .inl rfl⟩
  · exact ⟨rfl, rfl, .inl rfl⟩
  · split
    · obtain ⟨imposition, motor, state⟩ := Tmc.conclude_fields _ _ _
      exact ⟨imposition, motor, .inr state⟩
    · exact ⟨rfl, rfl, .inl rfl⟩

theorem Tmc.preempt_fields (t : Tmc) (op : Operation) (accepts : t.preemptible = true) :
    (t.preempt op).1.imposition = t.imposition ∧ (t.preempt op).1.motor = t.motor ∧
      ((t.preempt op).1.state = .darken ∨ (t.preempt op).1.state = .turn ∨ (t.preempt op).1.state = .ready) := by
  unfold Tmc.preempt
  split
  · next darken =>
    unfold Tmc.preemptDarken Tmc.shortPath
    dsimp only
    split
    · exact ⟨rfl, rfl, .inl darken⟩
    · exact ⟨rfl, rfl, .inl darken⟩
    · split
      · obtain ⟨imposition, motor, state⟩ := Tmc.conclude_fields _ _ _
        exact ⟨imposition, motor, .inr (.inr state)⟩
      · exact ⟨rfl, rfl, .inl darken⟩
  · next other =>
    have turn : t.state = .turn := by
      simp only [Tmc.preemptible, beq_eq_false_iff_ne.mpr other, Bool.false_or, Bool.and_eq_true, beq_iff_eq] at accepts
      exact accepts.1
    exact ⟨rfl, rfl, .inr (.inl turn)⟩

/-- Neither a grant nor a preemption brings a hold or a jam. -/
theorem Unheld.served {t t' : Tmc} (h : Unheld t) (served : Served t t') : Unheld t' := by
  rcases served with rfl | ⟨op, _, _, rfl⟩ | ⟨op, accepts, rfl⟩
  · exact h
  · obtain ⟨imposition, motor, state⟩ := t.begin_fields op
    refine ⟨imposition.trans h.imposition, by rw [motor]; exact h.motor, ?_⟩
    rcases state with state | state <;> simp [state]
  · obtain ⟨imposition, motor, state⟩ := t.preempt_fields op accepts
    refine ⟨imposition.trans h.imposition, by rw [motor]; exact h.motor, ?_⟩
    rcases state with state | state | state <;> simp [state]

/-- A mechanism without a tray takes neither (R137). -/
theorem Served.noTray {t t' : Tmc} (served : Served t t') (bare : t.state = .noTray) : t'.state = .noTray := by
  rcases served with rfl | ⟨op, _, allowed, _⟩ | ⟨op, accepts, _⟩
  · exact bare
  · simp [Tmc.refusal?, bare] at allowed
  · simp [Tmc.preemptible, bare] at accepts

/-! ### O23 -/

/-- Settles O23: the clear lifts every imposition, and what its selection leads to brings none of them back. -/
theorem cutoffClear : Obligations.CutoffClear := by
  intro s ready held law
  have sum := s.cu.blocking_toNat law
  refine ⟨_, rfl, fun clear => ?_, fun flag blocked => ?_, fun flag free => ?_⟩
  · have refused : s.cu.clear = ((s.cu, []), .refusedState) := if_pos (by simp [clear])
    have took := row_took_cu (u' := s) (code := 0x3B) (owner := dirCutoffClear) ready (s.cu, [])
      (fun k same => by rw [dirCutoffClear, same, refused]) fun dd => .nil _ _
    exact took.answered rfl fun p _ => by cases p <;> simp [Part.same]
  · have blocks : s.cu.blocking ≠ 0 := by
      intro none_held
      rw [none_held] at sum
      obtain ⟨c, blocks⟩ := blocked
      have present : s.cu.present c = true := by
        rw [law] at blocks
        exact (Bool.and_eq_true_iff.mp blocks).2
      have some_bit (n : Nat) : 0 < flagBit true n := Nat.two_pow_pos n
      have nothing : (0 : Byte).toNat = 0 := rfl
      rw [nothing] at sum
      cases c with
      | overheat => rw [blocks] at sum; have := some_bit 0; omega
      | thermostat => rw [blocks] at sum; have := some_bit 1; omega
      | interlock => rw [blocks] at sum; have := some_bit 2; omega
      | trayLost => rw [blocks] at sum; have := some_bit 3; omega
      | _ => cases present
    have refused : s.cu.clear = ((s.cu, [.log .clearRefused (halfOf s.cu.blocking.toNat)]), .refusedState) :=
      (if_neg (by simp [flag])).trans (if_pos blocks)
    have took := row_took_cu (u' := s) (code := 0x3B) (owner := dirCutoffClear) ready
      (s.cu, [.log .clearRefused (halfOf s.cu.blocking.toNat)])
      (fun k same => by rw [dirCutoffClear, same, refused]) fun dd => .nil _ _
    rw [sum] at took
    exact took.answered rfl fun p _ => by cases p <;> simp [Part.same]
  · have unblocked : s.cu.blocking = 0 := BitVec.eq_of_toNat_eq (by rw [sum]; simp [free, flagBit])
    obtain ⟨dd, left, k, _, stands, drains⟩ := cutoffClear_stands ready flag unblocked
    obtain ⟨_, _, acts⟩ := cutoffClear_acts ready flag unblocked
    have ends : s.run (State.takeRow 0x3B dirCutoffClear) = (State.drain left k).settle := by rw [State.run, drains]
    have first : LogsFirst (abandoned 0x3B s ++ [(.cutoffCleared, halfOf s.cu.causes.toNat)]) s
        (s.run (State.takeRow 0x3B dirCutoffClear)) :=
      logsFirst_run acts rfl fun n hn => (s.cu.clear_waits n hn).2
    have elsewhere := unchanged_run acts rfl rfl rfl rfl rfl
    have routine : Routine k.notices := by rw [stands.notices]; simp [Notice.routine]
    have follows : ∀ n ∈ k.notices, n.follows true = true := by rw [stands.notices]; simp [Notice.follows]
    have cu : (State.drain left k).cu = s.cu.cleared :=
      drain_routine (P := fun x => x.cu = s.cu.cleared) (fun _ _ _ h => h) (fun x t h step _ => step.cu.trans h) left routine
        stands.cu
    have dd_eq : (State.drain left k).dd = dd.answer 0x3B .done := (State.drain_kept left k).dd.trans stands.dd
    have unheld : Unheld (State.drain left k).tmc :=
      drain_routine (P := fun x => Unheld x.tmc) (fun _ _ _ h => h) (fun x t h step _ => h.served step.served) left routine
        (by rw [stands.tmc]; exact s.tmc.clear_unheld)
    refine ⟨by rw [ends, State.settle_cu, cu]; rfl, by rw [ends, State.settle_cu, cu]; rfl,
      by rw [ends, State.settle_dd, dd_eq]; rfl, by rw [ends, State.settle_dd, dd_eq]; rfl, fun handed => ?_, fun heard => ?_,
      fun heard => ?_, fun driven => ?_, by rw [ends, State.settle_tmc]; exact unheld.imposition,
      by rw [ends, State.settle_tmc]; exact unheld.motor, by rw [ends, State.settle_tmc]; exact unheld.state, first,
      fun jammed bare => ?_, fun jammed tray idle waiting => ?_, fun heard muted calm => ?_, fun empty fan fan_eq => ?_, elsewhere⟩
    · rw [ends, State.settle_lc]
      exact drain_routine (P := fun x => x.lc.imposition = .none) (fun _ _ _ h => h) (fun x t h step _ => step.lamp.trans h)
        left routine (by rw [stands.lc]; exact s.litAgain_free handed)
    · rw [ends, State.settle_ttc]
      exact drain_routine (P := fun x => x.ttc.stopImposed = false) (fun _ _ _ h => h)
        (fun x t h step _ => step.deck.1.trans h) left routine (by rw [stands.ttc]; exact State.heardAgain_stop heard)
    · rw [ends, State.settle_ttc]
      exact drain_routine (P := fun x => x.ttc.muteImposed = false) (fun _ _ _ h => h)
        (fun x t h step _ => step.deck.2.trans h) left routine (by rw [stands.ttc]; exact State.heardAgain_mute heard)
    · rw [ends, State.settle_fc]
      refine drain_routine (P := fun x => x.fc.full = false) (fun _ _ _ h => h) (fun x t h step _ => step.full.trans h) left
        routine ?_
      rw [stands.fc]
      show s.fanAgain.1.full = false
      rw [State.fanAgain, driven]
      exact Fc.compute_full _ _ _ _
    · rw [ends, State.settle_tmc]
      refine drain_routine (P := fun x => x.tmc.state = .noTray) (fun _ _ _ h => h) (fun x t h step _ => step.served.noTray h)
        left routine ?_
      rw [stands.tmc]
      show s.tmc.clear.1.state = .noTray
      simp [Tmc.clear_eq, jammed, bare]
    · rw [ends, State.settle_tmc]
      refine drain_noHome left (by rw [stands.ce]; exact idle) follows ⟨?_, ?_⟩
      · rw [stands.tmc]
        show s.tmc.clear.1.state = .unhomed
        simp [Tmc.clear_eq, jammed, tray]
      · rw [stands.ca]
        exact waiting
    · have heard_again : (s.run (State.takeRow 0x3B dirCutoffClear)).ttc = s.heardAgain := by
        rcases calm with idle | empty
        · rw [ends, State.settle_ttc]
          exact drain_winds (g := true) (P := fun x => x.ttc = s.heardAgain) (fun _ _ _ h => h) (fun x t h step => step.ttc.trans h) left
            (by rw [stands.ce]; exact idle) nofun follows stands.ttc
        · exact (cutoffClear_took ready flag unblocked empty).ttc
      show (s.run _).ttc.level = _ ∧ (s.run _).ttc.setLevel = _ ∧ (s.run _).ttc.ramp = _
      rw [heard_again]
      exact State.heardAgain_ramp heard muted
    · have took := cutoffClear_took ready flag unblocked empty
      have same_fan : fan = s.fanAgain := fan_eq
      refine ⟨took.cu, took.tmc.trans ?_, by rw [took.ttc]; exact s.heardAgain_state, by rw [took.lc]; exact s.litAgain_heat.1,
        fun cap handed hold lit => by rw [took.lc]; exact State.litAgain_cap cap handed hold lit, by rw [took.fc, same_fan]; rfl,
        ?_⟩
      · exact congrArg Prod.fst s.tmc.clear_eq
      · rw [same_fan]
        exact took.answered rfl fun p hp => by cases p <;> simp [Part.same, State.lifted] at hp ⊢

end Sys2Proof.Machine
end

section
/-! ## CUTOFF_FORCE: the entry (04) -/

namespace Sys2Proof.Machine

open Sys2Proof.Safety

/-! ### The Cutoff Unit's answer (R75 to R77, R84) -/

/-- FORCED does not join or leave the other causes. -/
theorem Cu.inSet_forced (cu : Cu) {c : Cause} (other : c ≠ .forced) :
    Cu.inSet { cu with causes := cu.causes ||| 0x40 } c = cu.inSet c := by
  have apart : (0x40 : Byte) &&& c.bit = 0 := by
    cases c with
    | forced => exact absurd rfl other
    | _ => decide
  have same : (cu.causes ||| 0x40) &&& c.bit = cu.causes &&& c.bit := by
    rw [BitVec.and_or_distrib_right, apart]
    exact BitVec.or_zero
  simp only [Cu.inSet, same]

/-- FORCED is no heat cause, so a lamp imposition that stands is not changed by it (R77). -/
theorem Cu.lampImposition_forced (cu : Cu) :
    Cu.lampImposition { cu with causes := cu.causes ||| 0x40 } = cu.lampImposition := by
  have heat : Cu.heatInSet { cu with causes := cu.causes ||| 0x40 } = cu.heatInSet := by
    simp only [Cu.heatInSet, Cause.heat, List.any_cons, List.any_nil, Cu.inSet_forced cu (c := .overheat) nofun,
      Cu.inSet_forced cu (c := .thermostat) nofun, Cu.inSet_forced cu (c := .fanStall) nofun]
  simp only [Cu.lampImposition, heat]

/-- FORCED is added to the set of a cutoff in force (R76). -/
theorem Cu.force_added {cu : Cu} (sound : Cutoff cu) (enabled : cu.enabled .forced = true) (flag : cu.flag = true)
    (fresh : cu.inSet .forced = false) :
    cu.force = (({ cu with causes := cu.causes ||| 0x40 }, [.log .cutoffCauseAdded 6]), .done) := by
  have handed : Cu.handLamp { cu with causes := cu.causes ||| 0x40 } = ({ cu with causes := cu.causes ||| 0x40 }, []) :=
    if_pos ((Cu.lampImposition_forced cu).trans sound.handed.symm)
  have take : cu.take .forced = ({ cu with causes := cu.causes ||| 0x40 }, [.log .cutoffCauseAdded 6]) := by
    refine (if_neg (by simp [flag])).trans ((if_neg (by simp [fresh])).trans ?_)
    rw [show Cause.bit .forced = 0x40 from rfl, handed]
    rfl
  rw [Cu.force, if_pos enabled, Cu.arrive, if_pos enabled, take]

/-- The lamp imposition of the selection alone (R77). -/
def Cu.forcedLamp (cu : Cu) : LampImposition :=
  match cu.lampSel with
  | .off => .off
  | .holdBlackout => .cap
  | .ignore => .none

/-- The Cutoff Unit in a cutoff that FORCED has entered (R75, R77). -/
def Cu.entered (cu : Cu) : Cu := { cu with flag := true, causes := 0x40, lampHanded := cu.forcedLamp }

/-- What the entry lays on the other blocks (R77 to R81). -/
def Cu.imposes (cu : Cu) : List Notice :=
  spare (cu.forcedLamp == .none) (.lampImposition cu.forcedLamp) ++ spare (cu.traySel == .ignore) (.trayCutoff cu.traySel) ++
    spare cu.tapeIgnore (.tapeImposition true) ++ spare cu.audioIgnore (.audioImposition true) ++
    spare cu.fanIgnore (.fanImposition true) ++ [.arbiterCutoff cu.traySel] ++ [.showCutoff]

theorem Cu.imposes_length (cu : Cu) : cu.imposes.length ≤ 7 := by
  have lamp := spare_length (cu.forcedLamp == .none) (.lampImposition cu.forcedLamp)
  have tray := spare_length (cu.traySel == .ignore) (.trayCutoff cu.traySel)
  have tape := spare_length cu.tapeIgnore (.tapeImposition true)
  have sound := spare_length cu.audioIgnore (.audioImposition true)
  have fan := spare_length cu.fanIgnore (.fanImposition true)
  simp only [Cu.imposes, List.length_append, List.length_cons, List.length_nil]
  omega

theorem Cu.imposes_waits (cu : Cu) : ∀ n ∈ cu.imposes, n.immediate = false ∧ n.raises = false := by
  have one {skip : Bool} {n : Notice} (h : n.immediate = false ∧ n.raises = false) :
      ∀ m ∈ spare skip n, m.immediate = false ∧ m.raises = false := by cases skip <;> simp [spare, h]
  simp only [Cu.imposes, List.forall_mem_append]
  exact ⟨⟨⟨⟨⟨⟨one ⟨rfl, rfl⟩, one ⟨rfl, rfl⟩⟩, one ⟨rfl, rfl⟩⟩, one ⟨rfl, rfl⟩⟩, one ⟨rfl, rfl⟩⟩,
    by simp [Notice.immediate, Notice.raises]⟩, by simp [Notice.immediate, Notice.raises]⟩

/-- FORCED enters cutoff (R75, R84). -/
theorem Cu.force_enters {cu : Cu} (sound : Cutoff cu) (enabled : cu.enabled .forced = true) (flag : cu.flag = false) :
    cu.force = ((cu.entered, .log .cutoffEnter 6 :: cu.imposes), .done) := by
  have causes : cu.causes = 0 := sound.flag.mp flag
  have handed : cu.lampHanded = .none := by rw [sound.handed]; simp [Cu.lampImposition, flag]
  have bit : cu.causes ||| Cause.bit .forced = 0x40 := by rw [causes]; rfl
  have now : Cu.lampImposition { cu with flag := true, causes := 0x40 } = cu.forcedLamp := by
    have cool : Cu.heatInSet { cu with flag := true, causes := 0x40 } = false := by
      have apart : ∀ c ∈ Cause.heat, (0x40 : Byte) &&& c.bit = 0 := by decide
      simpa [Cu.heatInSet, Cu.inSet] using apart
    exact (if_neg (by simp)).trans (if_neg (by rw [cool]; nofun))
  have lamp : Cu.handLamp { cu with flag := true, causes := 0x40 } =
      (cu.entered, spare (cu.forcedLamp == .none) (.lampImposition cu.forcedLamp)) := by
    unfold Cu.handLamp
    rw [now, handed]
    by_cases free : cu.forcedLamp = .none
    · simp [free, spare, Cu.entered]
    · simp [free, spare, Cu.entered]
  have entry : spare (cu.forcedLamp == .none) (.lampImposition cu.forcedLamp) ++ cu.entered.entryNotices = cu.imposes := by
    have tray : spare (cu.traySel == .ignore) (.trayCutoff cu.traySel) =
        if cu.traySel = .ignore then [] else [.trayCutoff cu.traySel] := by
      by_cases ignored : cu.traySel = .ignore <;> simp [ignored, spare]
    rw [Cu.imposes, tray]
    simp only [Cu.entryNotices, List.append_assoc]
    rfl
  have take : cu.take .forced = (cu.entered, .log .cutoffEnter 6 :: cu.imposes) := by
    refine (if_pos (by simp [flag])).trans ?_
    rw [bit, lamp, ← entry]
    rfl
  rw [Cu.force, if_pos enabled, Cu.arrive, if_pos enabled, take]

/-! ### The lamp (R51, R77) -/

/-- The lamp's answer to the entry (R77). -/
def State.lampCut (s : State) : Reaction Lc :=
  if s.cu.forcedLamp == .none then (s.lc, []) else s.lc.impose s.cu.forcedLamp s.tmc.blackout s.tmc.inTime

theorem Lc.impose_quiet (lc : Lc) (new : LampImposition) (blackout inTime : Nat) :
    queuedOf (lc.impose new blackout inTime).2 = [] := by
  unfold Lc.impose
  dsimp only
  (repeat' split) <;> rfl

/-- A recompute neither begins nor ends a hold (R47). -/
theorem Lc.recompute_unheld (lc : Lc) : lc.recompute.hold = .none ↔ lc.hold = .none := by
  simp only [Lc.recompute, Lc.rewatch, Lc.checkDark]
  split
  · next dark => simp [dark.1]
  · rfl

@[simp] theorem Lc.recompute_restrike (lc : Lc) : lc.recompute.restrike = lc.restrike := by
  simp only [Lc.recompute, Lc.rewatch, Lc.checkDark]; split <;> rfl

/-- An imposition neither begins nor ends a hold (R51). -/
theorem Lc.impose_unheld (lc : Lc) (new : LampImposition) (blackout inTime : Nat) :
    (lc.impose new blackout inTime).1.hold = .none ↔ lc.hold = .none := by
  unfold Lc.impose
  dsimp only
  (repeat' split) <;> simp [Lc.enterOff, Lc.clearIntent, Lc.startFade, Lc.recompute_unheld]

/-- No imposition strikes the lamp (R51). -/
theorem Lc.impose_striking {lc : Lc} (other : lc.state ≠ .striking) (new : LampImposition) (blackout inTime : Nat) :
    (lc.impose new blackout inTime).1.state ≠ .striking := by
  unfold Lc.impose
  dsimp only
  (repeat' split) <;> simp_all [Lc.enterOff, Lc.clearIntent, Lc.startFade]

theorem Lc.impose_imposition (lc : Lc) (new : LampImposition) (blackout inTime : Nat) :
    (lc.impose new blackout inTime).1.imposition = new := by
  unfold Lc.impose
  dsimp only
  (repeat' split) <;> simp_all [Lc.enterOff, Lc.clearIntent, Lc.startFade, Lc.recompute_imposition]

/-- A lamp that burns or strikes goes out under OFF (R51). -/
theorem Lc.impose_off {lc : Lc} (free : lc.imposition = .none)
    (burns : lc.state = .striking ∨ lc.state = .lit ∨ lc.state = .waitCool) (blackout inTime : Nat) :
    lc.impose .off blackout inTime = (Lc.recompute { lc with
      imposition := .off, capLingers := false, state := .off, fade := none, stored := none, strike := none },
        [.log .lampOff 1]) := by
  rcases burns with burns | burns | burns <;> simp [Lc.impose, free, burns, Lc.enterOff]

/-- A release to a lamp that neither burns nor strikes (R49). -/
theorem Lc.takeRelease_out {lc : Lc} (lit : lc.state ≠ .lit) (striking : lc.state ≠ .striking) (inTime : Nat) :
    lc.takeRelease inTime = if lc.hold = .none then lc else Lc.recompute { lc.endHold with stored := none } := by
  unfold Lc.takeRelease
  split
  · rfl
  · split <;> first | contradiction | rfl

/-! ### The deck (R79, R109, R110) -/

/-- The deck's answer to the STOP imposition of the entry (R79). -/
def State.tapeCut (s : State) : Reaction Ttc := if s.cu.tapeIgnore then (s.ttc, []) else s.ttc.imposeTape true

/-- The deck's record once both impositions are laid on it (R79). -/
def State.deckCut (s : State) : Ttc := if s.cu.audioIgnore then s.tapeCut.1 else s.tapeCut.1.imposeAudio true

/-- The brake, with the record drive left (R92, R102, R107). -/
theorem Ttc.brake_brakes (t : Ttc) (latched : Option TapeRequest) : (t.brake latched).1 = brakes t latched := by
  cases state : t.state <;> simp [Ttc.brake, brakes, Ttc.leaveRecording, recordingEnds, Ttc.listen, brakingTime, state]

theorem brakes_fields (t : Ttc) (latched : Option TapeRequest) : (brakes t latched).state = .braking ∧
    (brakes t latched).level = t.level ∧ (brakes t latched).setLevel = t.setLevel ∧
    (brakes t latched).muteImposed = t.muteImposed := by
  unfold brakes recordingEnds
  split <;> exact ⟨rfl, rfl, rfl, rfl⟩

/-- A moving tape brakes at a stop (R92). -/
theorem Ttc.stop_moving {t : Ttc} (moving : t.state.moving = true) : t.stop = t.brake none := by
  cases state : t.state <;> simp_all [Ttc.stop, Transport.moving]

/-- The stop itself, by the tape's state (R92). -/
theorem Ttc.stop_fields (t : Ttc) : t.stop.1.state.moving = false ∧ t.stop.1.level = t.level ∧
    t.stop.1.setLevel = t.setLevel ∧ t.stop.1.muteImposed = t.muteImposed := by
  cases moving : t.state.moving with
  | true =>
    rw [Ttc.stop_moving moving, Ttc.brake_brakes]
    obtain ⟨state, level, setLevel, mute⟩ := brakes_fields t none
    exact ⟨by rw [state]; rfl, level, setLevel, mute⟩
  | false => cases state : t.state <;> simp_all [Ttc.stop, Transport.moving]

theorem Ttc.stop_quiet (t : Ttc) : queuedOf t.stop.2 = [] := by
  unfold Ttc.stop Ttc.brake Ttc.leaveRecording
  (repeat' split) <;> rfl

theorem State.tapeCut_quiet (s : State) : queuedOf s.tapeCut.2 = [] := by
  unfold State.tapeCut
  split
  · rfl
  · exact Ttc.stop_quiet _

/-- The tape under STOP stands or brakes (R79, R110). -/
theorem State.deckCut_stops {s : State} (heard : s.cu.tapeIgnore = false) :
    s.deckCut.stopImposed = true ∧ s.deckCut.state.moving = false := by
  have stops : s.tapeCut.1.stopImposed = true ∧ s.tapeCut.1.state.moving = false := by
    rw [State.tapeCut, heard]
    exact ⟨(Ttc.stop_impositions _).1, (Ttc.stop_fields _).1⟩
  unfold State.deckCut
  split
  · exact stops
  · obtain ⟨state, stop, _⟩ := s.tapeCut.1.imposeAudio_fields true
    rw [state, stop]
    exact stops

theorem State.deckCut_mute {s : State} (heard : s.cu.audioIgnore = false) : s.deckCut.muteImposed = true := by
  rw [State.deckCut, heard]
  exact (Ttc.imposeAudio_fields _ _).2.2

/-- A moving tape brakes with nothing latched (R110). -/
theorem State.deckCut_brakes {s : State} (heard : s.cu.tapeIgnore = false) (silent : s.cu.audioIgnore = true)
    (moving : s.ttc.state.moving = true) : s.deckCut = brakes { s.ttc with stopImposed := true } none := by
  rw [State.deckCut, State.tapeCut, heard, silent]
  exact (congrArg Prod.fst (Ttc.stop_moving (t := { s.ttc with stopImposed := true }) moving)).trans (Ttc.brake_brakes _ _)

/-- The sound ramps down from its level over 100 ms (R109). -/
theorem State.deckCut_ramp {s : State} (heard : s.cu.audioIgnore = false) (loud : s.ttc.muteImposed = false) :
    s.deckCut.level = s.ttc.level ∧ s.deckCut.setLevel = s.ttc.setLevel ∧
      s.deckCut.ramp = if s.ttc.level = 0 then none else some ⟨s.ttc.level, 0, 100, 0, 0⟩ := by
  have same : s.tapeCut.1.level = s.ttc.level ∧ s.tapeCut.1.setLevel = s.ttc.setLevel ∧
      s.tapeCut.1.muteImposed = s.ttc.muteImposed := by
    unfold State.tapeCut
    split
    · exact ⟨rfl, rfl, rfl⟩
    · exact (Ttc.stop_fields _).2
  obtain ⟨level, setLevel, mute⟩ := same
  rw [State.deckCut, heard, ← level, ← setLevel]
  by_cases silent : s.tapeCut.1.level = 0 <;> simp [Ttc.imposeAudio, Ttc.startRamp, mute, loud, silent]

/-! ### The fan (R61, R80) -/

/-- The fan's answer to the entry (R80). -/
def State.fanCut (s : State) : Reaction Fc :=
  if s.cu.fanIgnore then (s.fc, [])
  else Fc.impose s.fc true s.lampCut.1.h s.lampCut.1.derateStart s.lampCut.1.lampActive

/-- The fan's answer to what the lamp's going out leads to (R61). -/
def State.fanFollows (s : State) : Reaction Fc :=
  if Lc.fanNotices s.lc s.lampCut.1 = [] then (s.fanCut.1, [])
  else s.fanCut.1.compute s.lampCut.1.h s.lampCut.1.derateStart s.lampCut.1.lampActive

theorem Fc.compute_demand (fc : Fc) (h ds : Nat) (active : Bool) :
    (fc.compute h ds active).1.demand = fc.computed h ds active := by
  unfold Fc.compute Fc.spinUp Fc.stop
  dsimp only
  (repeat' split) <;> rfl

/-- A fan that is told to run full does (R80). -/
theorem State.fanFollows_full {s : State} (driven : s.cu.fanIgnore = false) :
    s.fanFollows.1.full = true ∧ s.fanFollows.1.demand = 255 := by
  have full (fc : Fc) (h ds : Nat) (active : Bool) (told : fc.full = true) :
      (fc.compute h ds active).1.full = true ∧ (fc.compute h ds active).1.demand = 255 := by
    rw [Fc.compute_full, Fc.compute_demand, Fc.computed, if_pos told]
    exact ⟨told, rfl⟩
  have told : s.fanCut.1.full = true ∧ s.fanCut.1.demand = 255 := by
    rw [State.fanCut, driven]
    exact full _ _ _ _ rfl
  unfold State.fanFollows
  split
  · exact told
  · exact full _ _ _ _ told.1

/-! ### The engine, the arbiter and the mechanism (R24, R25, R143) -/

/-- A cutoff halts a show that is active (R189). -/
theorem Ce.halt_active {ce : Ce} (active : ce.active = true) : (ce.halt .cutoff).1.showState = .halted ∧
    (ce.halt .cutoff).1.reason = .cutoff ∧ (ce.halt .cutoff).1.queue = [] := by
  rw [Ce.halt, if_pos active]
  exact ⟨rfl, rfl, rfl⟩

theorem Ce.halt_idle {ce : Ce} (idle : ce.active = false) (reason : HaltReason) : ce.halt reason = (ce, []) := by
  rw [Ce.halt, if_neg (by simp [idle])]

theorem Ce.halt_inactive (ce : Ce) (reason : HaltReason) : (ce.halt reason).1.active = false := by
  unfold Ce.halt
  split
  · rfl
  · next idle => simpa using idle

theorem Ce.halt_queue (ce : Ce) : ∀ n ∈ queuedOf (ce.halt .cutoff).2, n = .dropRead := by
  cases active : ce.active with
  | true =>
    rw [Ce.halt, if_pos active]
    exact fun n hn => List.mem_singleton.mp hn
  | false => rw [Ce.halt_idle active]; simp

/-- A tray selection other than IGNORE discards what is pending (R143). -/
theorem Ca.cutoff_empties {ca : Ca} {sel : TraySelection} (held : sel ≠ .ignore) (source : Source) :
    (ca.cutoff sel).1.slots.get source = none := by
  unfold Ca.cutoff
  by_cases nobody : ca.holders = []
  · rw [if_pos (.inr nobody)]
    have free := List.filter_eq_nil_iff.mp nobody source (by cases source <;> decide)
    simpa [Ca.slot] using free
  · rw [if_neg (by simp [held, nobody])]
    cases source <;> rfl

theorem Ca.cutoff_service (ca : Ca) (sel : TraySelection) : (ca.cutoff sel).1.inService = ca.inService := by
  unfold Ca.cutoff
  split <;> rfl

/-- The mechanism's answer to the entry (R24, R25). -/
def State.trayCut (s : State) : Reaction Tmc :=
  if s.cu.traySel == .ignore then (s.tmc, []) else s.tmc.cutoff s.cu.traySel

/-- The phases in which the entry ends the hold (R24). -/
def Tmc.endsHold (t : Tmc) : Bool := t.op.isSome && (t.state == .settle || t.state == .darken && !t.fromDark)

/-- The entry releases the hold. -/
def State.releases (s : State) : Bool := s.cu.traySel != .ignore && s.tmc.endsHold

/-- The outcome of the operation that the entry ends (R24). -/
def State.cutOutcome (s : State) : List Notice :=
  if s.cu.traySel == .ignore then [] else s.tmc.op.toList.map (.outcome · .abortedCutoff)

/-- The notices of the entry's end of an operation (R24). -/
theorem State.trayCut_queue (s : State) :
    queuedOf s.trayCut.2 = spare (!s.releases) (.release s.tmc.inTime) ++ s.cutOutcome := by
  unfold State.trayCut State.releases State.cutOutcome Tmc.endsHold
  by_cases ignored : s.cu.traySel = .ignore
  · simp [ignored, spare]
  · cases service : s.tmc.op with
    | none => simp [ignored, Tmc.cutoff_idle service, spare]
    | some op =>
      by_cases darken : s.tmc.state = .darken
      · rw [Tmc.cutoff_darken service darken]
        cases dark : s.tmc.fromDark <;> simp [ignored, darken, spare, cutNotices] <;> rfl
      · by_cases settle : s.tmc.state = .settle
        · rw [Tmc.cutoff_settle service settle]
          simp [ignored, settle, spare, cutNotices]
          rfl
        · rw [Tmc.cutoff_moving service darken settle]
          simp [ignored, darken, settle, spare, cutNotices]
          rfl

end Sys2Proof.Machine
end

section
/-! ## The cascade of a cutoff entry (04) -/

namespace Sys2Proof.Machine

open Sys2Proof.Safety

/-! ### What the impositions do -/

/-- The blocks with every imposition laid on them (R77 to R81, R143). -/
def State.underCutoff (s : State) : State :=
  { s with cu := s.cu.entered, lc := s.lampCut.1, tmc := s.trayCut.1, ttc := s.deckCut, fc := s.fanCut.1,
           ca := (s.ca.cutoff s.cu.traySel).1, ce := (s.ce.halt .cutoff).1 }

/-- The entries that the impositions hand over. -/
def State.imposedLog (s : State) : List (Event × Half) :=
  loggedOf s.lampCut.2 ++ loggedOf s.trayCut.2 ++ loggedOf s.tapeCut.2 ++ loggedOf s.fanCut.2 ++
    loggedOf (s.ca.cutoff s.cu.traySel).2 ++ loggedOf (s.ce.halt .cutoff).2

/-- The notices that lamp and mechanism make of the lamp and the fan. -/
def State.cutFollows (s : State) : List Notice :=
  Lc.fanNotices s.lc s.lampCut.1 ++ spare (!s.releases) (.release s.tmc.inTime)

/-- The notices of arbiter and engine. -/
def State.cutRest (s : State) : List Notice :=
  queuedOf (s.ca.cutoff s.cu.traySel).2 ++ queuedOf (s.ce.halt .cutoff).2

theorem fanNotices_waits (before after : Lc) : queuedOf (Lc.fanNotices before after) = Lc.fanNotices before after ∧
    loggedOf (Lc.fanNotices before after) = [] := by
  unfold Lc.fanNotices
  split <;> exact ⟨rfl, rfl⟩

/-- The impositions of the entry. -/
theorem imposing (s : State) (dd : Dd) : Stretch s.cu.imposes { s with dd := dd, cu := s.cu.entered }
    { s.underCutoff with dd := dd } s.imposedLog (s.cutFollows ++ (s.cutOutcome ++ s.cutRest)) := by
  have lamp : Stretch (spare (s.cu.forcedLamp == .none) (.lampImposition s.cu.forcedLamp))
      { s with dd := dd, cu := s.cu.entered } { s with dd := dd, cu := s.cu.entered, lc := s.lampCut.1 }
      (loggedOf s.lampCut.2) (Lc.fanNotices s.lc s.lampCut.1) :=
    .skip (fun free => by simp [State.lampCut, free, fanNotices_eq_nil]) fun held k before queue stands => by
      have cut : s.lampCut = s.lc.impose s.cu.forcedLamp s.tmc.blackout s.tmc.inTime := by simp [State.lampCut, held]
      have put := stands.putLc s.lampCut
      obtain ⟨waits, silent⟩ := fanNotices_waits s.lc s.lampCut.1
      have quiet : queuedOf s.lampCut.2 = [] := by rw [cut]; exact Lc.impose_quiet _ _ _ _
      rw [loggedOf_append, queuedOf_append, quiet, waits, silent, List.append_nil, List.nil_append] at put
      rw [State.handle, stands.lc, stands.tmc]
      rw [cut] at put ⊢
      exact put
  have tray : Stretch (spare (s.cu.traySel == .ignore) (.trayCutoff s.cu.traySel))
      { s with dd := dd, cu := s.cu.entered, lc := s.lampCut.1 }
      { s with dd := dd, cu := s.cu.entered, lc := s.lampCut.1, tmc := s.trayCut.1 }
      (loggedOf s.trayCut.2) (queuedOf s.trayCut.2) :=
    .skip (fun ignored => by simp [State.trayCut, ignored]) fun held k before queue stands => by
      rw [State.handle, stands.tmc, State.trayCut, if_neg (by simp [held])]
      exact stands.putTmc (s.tmc.cutoff s.cu.traySel)
  have tape : Stretch (spare s.cu.tapeIgnore (.tapeImposition true))
      { s with dd := dd, cu := s.cu.entered, lc := s.lampCut.1, tmc := s.trayCut.1 }
      { s with dd := dd, cu := s.cu.entered, lc := s.lampCut.1, tmc := s.trayCut.1, ttc := s.tapeCut.1 }
      (loggedOf s.tapeCut.2) [] :=
    .skip (fun ignored => by simp [State.tapeCut, ignored]) fun heard k before queue stands => by
      have put := stands.putTtc s.tapeCut
      rw [s.tapeCut_quiet] at put
      have cut : s.tapeCut = s.ttc.imposeTape true := by simp [State.tapeCut, heard]
      rw [State.handle, stands.ttc]
      rw [cut] at put ⊢
      exact put
  have sound : Stretch (spare s.cu.audioIgnore (.audioImposition true))
      { s with dd := dd, cu := s.cu.entered, lc := s.lampCut.1, tmc := s.trayCut.1, ttc := s.tapeCut.1 }
      { s with dd := dd, cu := s.cu.entered, lc := s.lampCut.1, tmc := s.trayCut.1, ttc := s.deckCut } [] [] :=
    .skip (fun ignored => by simp [State.deckCut, ignored]) fun heard k before queue stands => by
      rw [State.handle, stands.ttc, State.deckCut, if_neg (by simp [heard])]
      exact stands.putTtc (_, [])
  have fan : Stretch (spare s.cu.fanIgnore (.fanImposition true))
      { s with dd := dd, cu := s.cu.entered, lc := s.lampCut.1, tmc := s.trayCut.1, ttc := s.deckCut }
      { s with dd := dd, cu := s.cu.entered, lc := s.lampCut.1, tmc := s.trayCut.1, ttc := s.deckCut, fc := s.fanCut.1 }
      (loggedOf s.fanCut.2) [] :=
    .skip (fun ignored => by simp [State.fanCut, ignored]) fun driven k before queue stands => by
      have cut : s.fanCut = Fc.impose s.fc true s.lampCut.1.h s.lampCut.1.derateStart s.lampCut.1.lampActive := by
        simp [State.fanCut, driven]
      have put := stands.putFc s.fanCut
      rw [show queuedOf s.fanCut.2 = [] by rw [cut]; exact Fc.compute_quiet _ _ _ _] at put
      rw [State.handle, stands.fc, stands.lc]
      rw [cut] at put ⊢
      exact put
  have arbiter : Handled (.arbiterCutoff s.cu.traySel)
      { s with dd := dd, cu := s.cu.entered, lc := s.lampCut.1, tmc := s.trayCut.1, ttc := s.deckCut, fc := s.fanCut.1 }
      { s with dd := dd, cu := s.cu.entered, lc := s.lampCut.1, tmc := s.trayCut.1, ttc := s.deckCut, fc := s.fanCut.1,
               ca := (s.ca.cutoff s.cu.traySel).1 }
      (loggedOf (s.ca.cutoff s.cu.traySel).2) (queuedOf (s.ca.cutoff s.cu.traySel).2) := fun k before queue stands => by
    rw [State.handle, stands.ca]
    exact stands.putCa (s.ca.cutoff s.cu.traySel)
  have engine : Handled .showCutoff
      { s with dd := dd, cu := s.cu.entered, lc := s.lampCut.1, tmc := s.trayCut.1, ttc := s.deckCut, fc := s.fanCut.1,
               ca := (s.ca.cutoff s.cu.traySel).1 }
      { s.underCutoff with dd := dd } (loggedOf (s.ce.halt .cutoff).2) (queuedOf (s.ce.halt .cutoff).2) :=
    fun k before queue stands => by
      rw [State.handle, stands.ce]
      exact stands.putCe (s.ce.halt .cutoff)
  have all := (((((lamp.append tray).append tape).append sound).append fan).append (.one arbiter)).append (.one engine)
  simpa only [Cu.imposes, State.imposedLog, State.cutFollows, State.cutRest, s.trayCut_queue, List.append_assoc,
    List.append_nil, List.nil_append] using all

/-! ### What lamp and mechanism then ask of lamp and fan -/

/-- The lamp's record once the hold is released, where the entry releases it (R24, R49). -/
def State.lampReleased (s : State) : Lc :=
  if s.releases then s.lampCut.1.takeRelease s.tmc.inTime else s.lampCut.1

/-- The blocks where the outcome of the entry is due. -/
def State.cut (s : State) : State := { s.underCutoff with lc := s.lampReleased, fc := s.fanFollows.1 }

theorem following (s : State) (dd : Dd) : Stretch s.cutFollows { s.underCutoff with dd := dd } { s.cut with dd := dd }
    (loggedOf s.fanFollows.2) [] := by
  have fan : Stretch (Lc.fanNotices s.lc s.lampCut.1) { s.underCutoff with dd := dd }
      { s.underCutoff with dd := dd, fc := s.fanFollows.1 } (loggedOf s.fanFollows.2) [] := by
    by_cases still : Lc.fanNotices s.lc s.lampCut.1 = []
    · rw [still, State.fanFollows, if_pos still]
      exact .nil _
    · have told : Lc.fanNotices s.lc s.lampCut.1 =
          [.fanCompute s.lampCut.1.h s.lampCut.1.derateStart s.lampCut.1.lampActive] := by
        unfold Lc.fanNotices at still ⊢
        split at still
        · exact absurd rfl still
        · next differs => rw [if_neg differs]
      have follows : s.fanFollows =
          s.fanCut.1.compute s.lampCut.1.h s.lampCut.1.derateStart s.lampCut.1.lampActive := if_neg still
      rw [told]
      refine .one fun k before queue stands => ?_
      have put := stands.putFc s.fanFollows
      rw [show queuedOf s.fanFollows.2 = [] by rw [follows]; exact Fc.compute_quiet _ _ _ _] at put
      rw [State.handle, stands.fc]
      rw [follows] at put ⊢
      exact put
  have lamp : Stretch (spare (!s.releases) (.release s.tmc.inTime)) { s.underCutoff with dd := dd, fc := s.fanFollows.1 }
      { s.cut with dd := dd } [] [] := by
    refine .skip (fun none_due => ?_) fun due => ?_
    · have kept : s.lampReleased = s.lampCut.1 := if_neg (by simpa using none_due)
      simp [State.cut, kept, State.underCutoff]
    · have released : s.lampReleased = s.lampCut.1.takeRelease s.tmc.inTime := if_pos (by simpa using due)
      rw [State.cut, released]
      exact handled_release _ _
  simpa only [State.cutFollows, List.append_nil] using fan.append lamp

theorem cutFollows_length (s : State) : s.cutFollows.length ≤ 2 := by
  have lamp := spare_length (!s.releases) (.release s.tmc.inTime)
  have fan : (Lc.fanNotices s.lc s.lampCut.1).length ≤ 1 := by unfold Lc.fanNotices; split <;> simp
  rw [State.cutFollows, List.length_append]
  omega

/-! ### The wind-up of the entry -/

/-- What the rest of the entry leaves: the arbiter takes no request into service, and the show stays halted. -/
structure Wound (u k : State) : Prop where
  cu : k.cu = u.cu
  fc : k.fc = u.fc
  ttc : k.ttc = u.ttc
  lc : k.lc = u.lc
  tmc : k.tmc = u.tmc
  engine : ∃ pending service, k.ce = { u.ce with pendingMarker := pending, serviceMarker := service }
  slots : ∀ source, source ≠ .run → u.ca.slots.get source = none → k.ca.slots.get source = none
  service : u.ca.inService = none → k.ca.inService = none

theorem Wound.refl (u : State) : Wound u u := ⟨rfl, rfl, rfl, rfl, rfl, ⟨_, _, rfl⟩, fun _ _ h => h, id⟩

theorem Wound.step {u k t : State} (h : Wound u k) (step : WindStep false k t) : Wound u t := by
  obtain ⟨lc, tmc, service⟩ := step.closed rfl
  obtain ⟨_, _, before⟩ := h.engine
  obtain ⟨pending, marker, after⟩ := step.ce
  exact ⟨step.cu.trans h.cu, step.fc.trans h.fc, step.ttc.trans h.ttc, lc.trans h.lc, tmc.trans h.tmc,
    ⟨pending, marker, by rw [after, before]⟩, fun source other empty => step.ca.slots source other (h.slots source other empty),
    fun idle => service (h.service idle)⟩

/-- With the arbiter closed and no show active. -/
theorem drain_wound (fuel : Nat) {s : State} (idle : s.ce.active = false) (closed : s.arbiterOpen = false)
    (follows : ∀ n ∈ s.notices, n.follows false = true) : Wound s (State.drain fuel s) :=
  drain_winds (g := false) (P := Wound s) (fun _ _ _ h => ⟨h.cu, h.fc, h.ttc, h.lc, h.tmc, h.engine, h.slots, h.service⟩)
    (fun _ _ h step => h.step step) fuel idle (fun _ => closed) follows (.refl s)

/-- With nothing but a fetch to give up. -/
theorem drain_dropRead (fuel : Nat) {s : State} (only : ∀ n ∈ s.notices, n = .dropRead) : Wound s (State.drain fuel s) :=
  drain_keeps (P := Wound s) (C := (· = .dropRead))
    (fun _ _ _ h => ⟨h.cu, h.fc, h.ttc, h.lc, h.tmc, h.engine, h.slots, h.service⟩)
    (fun n drops k h => by
      subst drops
      exact ⟨⟨h.cu, h.fc, h.ttc, h.lc, h.tmc, h.engine, h.slots, h.service⟩, [], by simp [State.handle]⟩)
    fuel only (.refl s)

theorem State.cut_idle (s : State) : s.cut.ce.active = false := Ce.halt_inactive _ _

theorem State.cut_closed {s : State} (held : s.cu.traySel ≠ .ignore) : s.cut.arbiterOpen = false := by
  show (!true || s.cu.traySel == .ignore) = false
  simpa using held

theorem State.cutRest_follows (s : State) : ∀ n ∈ s.cutRest, n.follows false = true := by
  refine List.forall_mem_append.mpr ⟨(Ca.cutoff_followUps _ _).queued, fun n hn => ?_⟩
  rw [Ce.halt_queue _ n hn]
  rfl

theorem State.cutOutcome_follows (s : State) : ∀ n ∈ s.cutOutcome, n.follows false = true := by
  unfold State.cutOutcome
  split
  · nofun
  · intro n hn
    obtain ⟨op, _, rfl⟩ := List.mem_map.mp hn
    rfl

/-- With the tray selection IGNORE the entry leads to no outcome (R143). -/
theorem State.cut_ignored {s : State} (ignored : s.cu.traySel = .ignore) :
    ∀ n ∈ s.cutOutcome ++ s.cutRest, n = .dropRead := by
  have none_due : s.cutOutcome = [] := if_pos (by simp [ignored])
  have arbiter : (s.ca.cutoff s.cu.traySel).2 = [] := by rw [Ca.cutoff, if_pos (.inl ignored)]
  rw [none_due, State.cutRest, arbiter]
  exact Ce.halt_queue _

/-! ### Where CUTOFF_FORCE ends -/

/-- The act of a CUTOFF_FORCE that enters cutoff. -/
theorem cutoffForce_acts {s : State} (ready : Ready s) (sound : Cutoff s.cu) (enabled : s.cu.enabled .forced = true)
    (flag : s.cu.flag = false) : ∃ dd : Dd, dd.taken = s.dd.taken ∧
      StandsAt { s with cu := s.cu.entered, dd := dd.answer 0x3A .done } (abandoned 0x3A s ++ [(.cutoffEnter, 6)])
        s.cu.imposes (State.takeRow 0x3A dirCutoffForce s) := by
  have enters := Cu.force_enters sound enabled flag
  obtain ⟨queued, logged⟩ := queued_waiting fun n hn => (s.cu.imposes_waits n hn).1
  obtain ⟨dd, taken, stands⟩ := row_stands_cu (code := 0x3A) (owner := dirCutoffForce) (result := .done) ready
    (s.cu.entered, .log .cutoffEnter 6 :: s.cu.imposes) (fun k same => by rw [dirCutoffForce, same, enters])
  rw [loggedOf_log, queuedOf_log, queued, logged] at stands
  exact ⟨dd, taken, stands⟩

/-- The entries of an entry by CUTOFF_FORCE, up to its outcome. -/
def State.forceLog (s : State) : List (Event × Half) :=
  [(.cutoffEnter, 6)] ++ (s.imposedLog ++ loggedOf s.fanFollows.2)

/-- Where the outcome of the entry is due. -/
theorem cutoffForce_stands {s : State} (ready : Ready s) (sound : Cutoff s.cu) (enabled : s.cu.enabled .forced = true)
    (flag : s.cu.flag = false) : ∃ (dd : Dd) (left : Nat) (k : State), dd.taken = s.dd.taken ∧ 500 ≤ left ∧
      StandsAt { s.cut with dd := dd.answer 0x3A .done } (abandoned 0x3A s ++ s.forceLog) (s.cutOutcome ++ s.cutRest) k ∧
      s.carry (State.takeRow 0x3A dirCutoffForce) = State.drain left k := by
  obtain ⟨dd, taken, stands⟩ := cutoffForce_acts ready sound enabled flag
  have few := s.cu.imposes_length
  have two := cutFollows_length s
  have room : Config.cascadeFuel = 512 := rfl
  obtain ⟨one, k₁, stands₁, left₁, drains₁⟩ := (imposing s (dd.answer 0x3A .done)).drains (fuel := Config.cascadeFuel)
    (rest := []) (by omega) (by simpa using stands.act)
  rw [List.nil_append, List.append_assoc] at stands₁
  obtain ⟨left, k, stands₂, left₂, drains₂⟩ := (following s (dd.answer 0x3A .done)).drains (fuel := one)
    (by omega) stands₁
  rw [List.append_nil, List.append_assoc, List.append_assoc] at stands₂
  exact ⟨dd, left, k, taken, by omega, stands₂, drains₁.trans drains₂⟩

/-- What the rest of the entry leaves. -/
theorem cutoffForce_winds {s k : State} {dd : Dd} {events : List (Event × Half)}
    (stands : StandsAt { s.cut with dd := dd } events (s.cutOutcome ++ s.cutRest) k) (left : Nat) :
    Wound { s.cut with dd := dd } (State.drain left k) := by
  have wound : Wound k (State.drain left k) := by
    by_cases ignored : s.cu.traySel = .ignore
    · exact drain_dropRead left (by rw [stands.notices]; exact State.cut_ignored ignored)
    · refine drain_wound left (by rw [stands.ce]; exact s.cut_idle) ?_ ?_
      · rw [State.arbiterOpen, stands.cu]
        exact State.cut_closed ignored
      · rw [stands.notices]
        exact List.forall_mem_append.mpr ⟨s.cutOutcome_follows, s.cutRest_follows⟩
  obtain ⟨_, _, engine⟩ := wound.engine
  exact ⟨wound.cu.trans stands.cu, wound.fc.trans stands.fc, wound.ttc.trans stands.ttc, wound.lc.trans stands.lc,
    wound.tmc.trans stands.tmc, ⟨_, _, by rw [engine, stands.ce]⟩,
    fun source other empty => wound.slots source other (by rw [stands.ca]; exact empty),
    fun idle => wound.service (by rw [stands.ca]; exact idle)⟩

/-- An entry whose rest is known to the end. -/
theorem cutoffForce_took {s u' : State} (ready : Ready s) (sound : Cutoff s.cu) (enabled : s.cu.enabled .forced = true)
    (flag : s.cu.flag = false)
    (rest : ∀ dd fuel, Leads (fuel + 2) { s.cut with dd := dd } (s.cutOutcome ++ s.cutRest) { u' with dd := dd } []) :
    Took 0x3A .done s u' s.forceLog (s.run (State.takeRow 0x3A dirCutoffForce)) := by
  obtain ⟨dd, left, k, taken, enough, stands, drains⟩ := cutoffForce_stands ready sound enabled flag
  obtain ⟨fuel, rfl⟩ : ∃ fuel, left = fuel + 2 := ⟨left - 2, by omega⟩
  have ends := rest _ fuel _ _ stands
  rw [List.append_nil, ← drains] at ends
  exact ⟨dd, taken, _, ends, rfl⟩

end Sys2Proof.Machine
end

section
/-! ## The operation that a cutoff entry ends, and its run channel (R24, R138, R139, R156, R159) -/

namespace Sys2Proof.Machine

open Sys2Proof.Safety

/-! ### The run channels -/

theorem PerChannel.get_set_same {α : Type} (f : PerChannel α) (c : BitVec 2) (v : α) : (f.set c v).get c = v := by
  unfold PerChannel.get PerChannel.set
  generalize c.toNat = n
  match n with
  | 0 | 1 | 2 | _ + 3 => rfl

/-- No RUN record is in service, and the channel asks for nothing (R156). -/
structure Freed (c : BitVec 2) (u : Rcu) : Prop where
  marker : u.serviceMarker = none
  request : (u.channels.get c).request = false
  armed : (u.channels.get c).armed = false
  dwell : (u.channels.get c).dwellTimer = none

theorem Rcu.choose_fields (u : Rcu) :
    u.choose.1.serviceMarker = u.serviceMarker ∧ u.choose.1.channels = u.channels := by
  unfold Rcu.choose
  (repeat' split) <;> exact ⟨rfl, rfl⟩

/-- A channel that is chosen deposits its change (R155). -/
theorem Rcu.choose_deposits (u : Rcu) : ∀ n ∈ u.choose.2, ∃ slot, n = .deposit .run (.changeTo slot) := by
  unfold Rcu.choose
  (repeat' split) <;> simp

/-- An aborted change clears its channel's request, and the next channel is looked for (R156, R159). -/
theorem Rcu.takeOutcome_aborted {u : Rcu} {m : RunMarker} (marker : u.serviceMarker = some m) (attached : m.detached = false)
    (n : Nat) : Freed m.channel (u.takeOutcome .abortedCutoff n).1 ∧
      ∀ made ∈ (u.takeOutcome .abortedCutoff n).2, ∃ slot, made = .deposit .run (.changeTo slot) := by
  have settled : Rcu.settleMarker { u with serviceMarker := none } u.serviceMarker .abortedCutoff n =
      (Rcu.modify { u with serviceMarker := none } m.channel fun k => Channel.disarm { k with request := false }, []) := by
    simp [Rcu.settleMarker, marker, attached, Rcu.apply]
  have shape : u.takeOutcome .abortedCutoff n =
      (Rcu.modify { u with serviceMarker := none } m.channel fun k => Channel.disarm { k with request := false }).choose := by
    rw [Rcu.takeOutcome, if_neg (by decide), settled]
    exact Prod.ext rfl (List.nil_append _)
  rw [shape]
  obtain ⟨service, channels⟩ := Rcu.choose_fields
    (Rcu.modify { u with serviceMarker := none } m.channel fun k => Channel.disarm { k with request := false })
  refine ⟨⟨service, ?_, ?_, ?_⟩, Rcu.choose_deposits _⟩ <;>
    (rw [channels, Rcu.modify, PerChannel.get_set_same]; rfl)

/-! ### The notices of an entry that discards no RUN record -/

/-- Of the blocks behind the sources the show alone is told. -/
theorem State.cutRest_mem {s : State} (free : s.ca.slots.run = none) :
    ∀ n ∈ s.cutRest, n = .dropRead ∨ (∃ result, n = .deliver .cue result) ∨ n = .slotEmpty .cue := by
  have cue {source : Source} (holds : source ∈ s.ca.holders) (told : source.notified = true) : source = .cue := by
    have waits := (List.mem_filter.mp holds).2
    cases source with
    | cue => rfl
    | run => simp [Ca.slot, PerSource.get, free] at waits
    | _ => cases told
  refine List.forall_mem_append.mpr ⟨fun n hn => ?_, fun n hn => .inl (Ce.halt_queue _ n hn)⟩
  obtain ⟨member, waits⟩ := List.mem_filter.mp hn
  unfold Ca.cutoff at member
  split at member
  · cases member
  · simp only [List.mem_append, List.mem_flatMap, List.mem_cons, List.not_mem_nil, or_false] at member
    rcases member with (⟨source, holds, told⟩ | log | mark) | ⟨source, holds, told⟩
    · unfold deliverNotice at told
      split at told
      · next notified =>
        obtain rfl := cue holds notified
        exact .inr (.inl ⟨_, List.mem_singleton.mp told⟩)
      · cases told
    · subst log
      cases waits
    · subst mark
      cases waits
    · unfold slotEmptyNotice at told
      split at told
      · next notified =>
        obtain rfl := cue holds notified
        exact .inr (.inr (List.mem_singleton.mp told))
      · cases told

theorem State.cutRest_length (s : State) : s.cutRest.length ≤ 20 := by
  have few {f : Source → List Notice} (one : ∀ source, (f source).length ≤ 1) : (s.ca.holders.flatMap f).length ≤ 5 := by
    have holders : s.ca.holders.length ≤ 5 := List.length_filter_le _ _
    have sum : (s.ca.holders.map fun source => (f source).length).sum ≤ (s.ca.holders.map fun _ => 1).sum :=
      List.sum_le_sum fun source _ => one source
    rw [List.length_flatMap]
    simp at sum
    omega
  have deliver (source : Source) : (deliverNotice source .discarded).length ≤ 1 := by unfold deliverNotice; split <;> simp
  have empty (source : Source) : (slotEmptyNotice source).length ≤ 1 := by unfold slotEmptyNotice; split <;> simp
  have arbiter : (s.ca.cutoff s.cu.traySel).2.length ≤ 12 := by
    unfold Ca.cutoff
    split
    · simp
    · have one := few deliver
      have two := few empty
      simp only [List.length_append, List.length_cons, List.length_nil]
      omega
  have engine : (s.ce.halt .cutoff).2.length ≤ 3 := by unfold Ce.halt; split <;> simp
  have kept (ns : List Notice) : (queuedOf ns).length ≤ ns.length := List.length_filter_le _ _
  have one := kept (s.ca.cutoff s.cu.traySel).2
  have two := kept (s.ce.halt .cutoff).2
  rw [State.cutRest, List.length_append]
  omega

/-! ### The operation handed back -/

/-- The notices that the outcome of the ended operation leads to (R139). -/
def afterAbort (op : Operation) : List Notice := deliverNotice op.source .abortedCutoff ++ [.select]

/-- Where the outcome of the entry has been handed back. -/
theorem cutoffForce_served {s : State} (ready : Ready s) (sound : Cutoff s.cu) (enabled : s.cu.enabled .forced = true)
    (flag : s.cu.flag = false) {op : Operation} (held : s.cu.traySel ≠ .ignore) (mechanism : s.tmc.op = some op)
    (arbiter : s.ca.inService = some op) : ∃ (dd : Dd) (events : List (Event × Half)) (left : Nat) (k : State), 400 ≤ left ∧
      StandsAt { s.cut with dd := dd, ca := { s.cut.ca with inService := none } } events (s.cutRest ++ afterAbort op) k ∧
      s.run (State.takeRow 0x3A dirCutoffForce) = (State.drain left k).settle := by
  obtain ⟨dd, left, k, _, enough, stands, drains⟩ := cutoffForce_stands ready sound enabled flag
  have due : s.cutOutcome = [.outcome op .abortedCutoff] := by simp [State.cutOutcome, held, mechanism]
  rw [due] at stands
  have service : s.cut.ca.inService = some op := (Ca.cutoff_service _ _).trans arbiter
  have one : Handled (.outcome op .abortedCutoff) { s.cut with dd := dd.answer 0x3A .done }
      { s.cut with dd := dd.answer 0x3A .done, ca := { s.cut.ca with inService := none } } [] (afterAbort op) :=
    handled_outcome (u := { s.cut with dd := dd.answer 0x3A .done }) service .abortedCutoff
  obtain ⟨later, k', stands', count, drains'⟩ := (Stretch.one one).drains (fuel := left) (by simp; omega) stands
  exact ⟨_, _, later, k', by simp at count; omega, stands', by rw [State.run, drains, drains']⟩

/-- No operation is in service behind the entry (R139). -/
theorem cutoffForce_idle {s : State} (ready : Ready s) (sound : Cutoff s.cu) (enabled : s.cu.enabled .forced = true)
    (flag : s.cu.flag = false) {op : Operation} (held : s.cu.traySel ≠ .ignore) (mechanism : s.tmc.op = some op)
    (arbiter : s.ca.inService = some op) : (s.run (State.takeRow 0x3A dirCutoffForce)).ca.inService = none := by
  obtain ⟨dd, events, left, k, _, stands, ends⟩ := cutoffForce_served ready sound enabled flag held mechanism arbiter
  rw [ends, State.settle_ca]
  have closed : k.arbiterOpen = false := by rw [State.arbiterOpen, stands.cu]; exact State.cut_closed held
  refine (drain_wound left (by rw [stands.ce]; exact s.cut_idle) closed ?_).service (by rw [stands.ca])
  rw [stands.notices]
  refine List.forall_mem_append.mpr ⟨s.cutRest_follows, List.forall_mem_append.mpr ⟨?_, by simp [Notice.follows]⟩⟩
  unfold deliverNotice
  split <;> simp [Notice.follows]

/-- The arbiter is closed and no show is active. -/
structure Shut (k : State) : Prop where
  closed : k.arbiterOpen = false
  idle : k.ce.active = false

theorem Shut.of_same {k t : State} (h : Shut k) (cu : t.cu = k.cu) (ce : t.ce = k.ce) : Shut t :=
  ⟨by rw [State.arbiterOpen, cu]; exact h.closed, by rw [ce]; exact h.idle⟩

theorem Shut.step {k t : State} (h : Shut k) (step : WindStep false k t) : Shut t := by
  obtain ⟨pending, service, ce⟩ := step.ce
  exact ⟨by rw [State.arbiterOpen, step.cu]; exact h.closed, by rw [ce]; exact h.idle⟩

/-- What the delivery to the channels leads to: a selection, and the change of another channel (R155). -/
def RunRest (n : Notice) : Prop := n = .select ∨ ∃ slot, n = .deposit .run (.changeTo slot)

/-- The channel of a RUN change that the entry ends asks for nothing more (R156, R159). -/
theorem cutoffForce_freed {s : State} (ready : Ready s) (sound : Cutoff s.cu) (enabled : s.cu.enabled .forced = true)
    (flag : s.cu.flag = false) {op : Operation} (held : s.cu.traySel ≠ .ignore) (mechanism : s.tmc.op = some op)
    (arbiter : s.ca.inService = some op) {m : RunMarker} (marker : s.rcu.serviceMarker = some m) (run : op.source = .run)
    (free : s.ca.slots.run = none) (attached : m.detached = false) :
    Freed m.channel (s.run (State.takeRow 0x3A dirCutoffForce)).rcu := by
  obtain ⟨dd, events, left, k, enough, stands, ends⟩ := cutoffForce_served ready sound enabled flag held mechanism arbiter
  rw [ends, State.settle_rcu]
  have few := s.cutRest_length
  have told : afterAbort op = [.deliver .run .abortedCutoff, .select] := by rw [afterAbort, run]; rfl
  have queue : k.notices = s.cutRest ++ .deliver .run .abortedCutoff :: [.select] := by rw [stands.notices, told]
  have shut : Shut k := ⟨by rw [State.arbiterOpen, stands.cu]; exact State.cut_closed held, by rw [stands.ce]; exact s.cut_idle⟩
  have before : ∀ n ∈ s.cutRest,
      Brings RunRest (fun t => t.rcu = s.rcu ∧ Shut t) (fun t => t.rcu = s.rcu ∧ Shut t) n := by
    intro n hn t ⟨rcu, shut⟩
    have step := shut.step (handle_winds shut.idle (s.cutRest_follows n hn) fun _ => shut.closed)
    rcases State.cutRest_mem free n hn with rfl | ⟨result, rfl⟩ | rfl
    · exact ⟨⟨rcu, step⟩, [], by simp [State.handle], nofun⟩
    · obtain ⟨pending, service, quiet⟩ := Ce.takeOutcome_inactive shut.idle result
      exact ⟨⟨by simpa [State.handle, State.deliver] using rcu, step⟩, [],
        by simp [State.handle, State.deliver, quiet, State.putCe_notices], nofun⟩
    · obtain ⟨pending, service, quiet⟩ := Ce.slotEmptied_inactive shut.idle t.cueSlotFree
      exact ⟨⟨by simpa [State.handle, State.slotEmptied] using rcu, step⟩, [],
        by simp [State.handle, State.slotEmptied, quiet, State.putCe_notices], nofun⟩
  have here : Brings RunRest (fun t => t.rcu = s.rcu ∧ Shut t)
      (fun t => Freed m.channel t.rcu ∧ Shut t) (.deliver .run .abortedCutoff) := by
    intro t ⟨rcu, shut⟩
    obtain ⟨freed, deposits⟩ := Rcu.takeOutcome_aborted (u := t.rcu) (by rw [rcu]; exact marker) attached t.tmc.n
    have put : State.handle (.deliver .run .abortedCutoff) t = t.putRcu (t.rcu.takeOutcome .abortedCutoff t.tmc.n) := rfl
    rw [put]
    exact ⟨⟨by simpa using freed, shut.of_same (by simp) (by simp)⟩, _, State.putRcu_notices _ _,
      fun n hn => .inr (deposits n (List.mem_filter.mp hn).1)⟩
  have after : ∀ n, RunRest n →
      Brings RunRest (fun t => Freed m.channel t.rcu ∧ Shut t)
        (fun t => Freed m.channel t.rcu ∧ Shut t) n := by
    rintro n (rfl | ⟨slot, rfl⟩) t ⟨freed, shut⟩
    · rw [State.handle, select_closed t shut.closed]
      exact ⟨⟨freed, shut⟩, [], by simp, nofun⟩
    · simp only [State.handle, State.deposit]
      split
      · next ca accepted =>
        have waits : queuedOf (if (t.ca.slot .run).isNone then [Notice.dirty 6] else []) = [] := by split <;> rfl
        rw [afterDeposit_closed (by simpa [State.arbiterOpen] using shut.closed)]
        exact ⟨⟨by simpa using freed, shut.of_same (by simp) (by simp)⟩, [], by rw [State.putCa_notices, waits], nofun⟩
      · exact ⟨⟨freed, shut⟩, [], by simp, nofun⟩
  exact (drain_brings (fun _ _ _ h => ⟨h.1, ⟨h.2.closed, h.2.idle⟩⟩) (fun _ _ _ h => ⟨h.1, ⟨h.2.closed, h.2.idle⟩⟩) here after
    s.cutRest [.select] before (by simp [RunRest]) left (by omega) queue ⟨stands.rcu, shut⟩).1

end Sys2Proof.Machine
end

section
/-! ## CUTOFF_FORCE (04) -/

namespace Sys2Proof.Machine

open Sys2Proof.Safety

/-! ### The lamp at the end of the entry (R24, R49, R51) -/

theorem State.lampCut_unheld (s : State) : s.lampCut.1.hold = .none ↔ s.lc.hold = .none := by
  unfold State.lampCut
  split
  · rfl
  · exact Lc.impose_unheld _ _ _ _

theorem State.lampCut_striking {s : State} (other : s.lc.state ≠ .striking) : s.lampCut.1.state ≠ .striking := by
  unfold State.lampCut
  split
  · exact other
  · exact Lc.impose_striking other _ _ _

/-- Where the entry releases nothing, the hold stands. -/
theorem State.lampReleased_unheld {s : State} (kept : s.releases = false) :
    s.lampReleased.hold = .none ↔ s.lc.hold = .none := by
  rw [State.lampReleased, kept]
  exact s.lampCut_unheld

/-- Where it does, the hold ends, but for one held over through a strike. -/
theorem State.lampReleased_free {s : State} (ends : s.releases = true) (other : s.lc.state ≠ .striking) :
    s.lampReleased.hold = .none := by
  rw [State.lampReleased, ends]
  exact Lc.takeRelease_hold (State.lampCut_striking other) _

theorem State.lampReleased_imposition {s : State} (free : s.lc.imposition = .none) :
    s.lampReleased.imposition = s.cu.forcedLamp := by
  have cut : s.lampCut.1.imposition = s.cu.forcedLamp := by
    unfold State.lampCut
    split
    · next none_forced =>
      have forced : s.cu.forcedLamp = .none := by simpa using none_forced
      exact free.trans forced.symm
    · exact Lc.impose_imposition _ _ _ _
  unfold State.lampReleased
  split
  · exact (Lc.takeRelease_imposition _ _).trans cut
  · exact cut

/-- A lamp that neither burns nor strikes keeps what it has of intents and output through the release. -/
theorem State.lampReleased_out {s : State} (lit : s.lampCut.1.state ≠ .lit) (striking : s.lampCut.1.state ≠ .striking) :
    s.lampReleased.state = s.lampCut.1.state ∧ s.lampReleased.restrike = s.lampCut.1.restrike ∧
      s.lampReleased.fade = s.lampCut.1.fade ∧ (s.lampCut.1.output = 0 → s.lampReleased.output = 0) ∧
      (s.lampCut.1.stored = none → s.lampReleased.stored = none) := by
  unfold State.lampReleased
  split
  · rw [Lc.takeRelease_out lit striking]
    split
    · exact ⟨rfl, rfl, rfl, id, id⟩
    · simp [Lc.endHold, Lc.computedOutput, lit, striking]
  · exact ⟨rfl, rfl, rfl, id, id⟩

/-- The selection OFF is laid on the lamp (R77). -/
theorem State.lampCut_off {s : State} (off : s.cu.lampSel = .off) :
    s.lampCut = s.lc.impose .off s.tmc.blackout s.tmc.inTime := by
  have forced : s.cu.forcedLamp = .off := by rw [Cu.forcedLamp, off]
  rw [State.lampCut, forced]
  rfl

section

variable {s : State} (off : s.cu.lampSel = .off) (free : s.lc.imposition = .none)

include off free

/-- A lamp that burns, strikes or waits goes out. -/
theorem State.lampReleased_burns (burns : s.lc.state = .striking ∨ s.lc.state = .lit ∨ s.lc.state = .waitCool) :
    s.lampReleased.state = .off ∧ s.lampReleased.output = 0 ∧ s.lampReleased.fade = none ∧ s.lampReleased.stored = none := by
  have cut : s.lampCut.1 = Lc.recompute { s.lc with
      imposition := .off, capLingers := false, state := .off, fade := none, stored := none, strike := none } := by
    rw [State.lampCut_off off, Lc.impose_off free burns]
  obtain ⟨state, _, fade, output, stored⟩ := State.lampReleased_out (s := s) (by simp [cut]) (by simp [cut])
  exact ⟨state.trans (by simp [cut]), output (by simp [cut, Lc.computedOutput]), fade.trans (by simp [cut]),
    stored (by simp [cut])⟩

/-- A lamp that is being exchanged loses its restrike. -/
theorem State.lampReleased_exchange (moves : s.lc.state = .exchange) :
    s.lampReleased.state = .exchange ∧ s.lampReleased.restrike = false := by
  have cut : s.lampCut.1.state = .exchange ∧ s.lampCut.1.restrike = false := by
    rw [State.lampCut_off off]
    simp [Lc.impose, free, moves, Lc.clearIntent]
  obtain ⟨state, restrike, _⟩ := State.lampReleased_out (s := s) (by simp [cut]) (by simp [cut])
  exact ⟨state.trans cut.1, restrike.trans cut.2⟩

/-- A lamp that is out stays as it is. -/
theorem State.lampReleased_dark (out : s.lc.state = .off ∨ s.lc.state = .failed) : s.lampReleased.state = s.lc.state := by
  have cut : s.lampCut.1.state = s.lc.state := by
    rw [State.lampCut_off off]
    rcases out with out | out <;> simp [Lc.impose, free, out]
  obtain ⟨state, _⟩ := State.lampReleased_out (s := s) (by rw [cut]; rcases out with out | out <;> simp [out])
    (by rw [cut]; rcases out with out | out <;> simp [out])
  exact state.trans cut

end

/-! ### Selections that ignore a block (R77 to R80) -/

theorem State.lampCut_ignored {s : State} (ignored : s.cu.lampSel = .ignore) : s.lampCut = (s.lc, []) := by
  have forced : s.cu.forcedLamp = .none := by rw [Cu.forcedLamp, ignored]
  rw [State.lampCut, forced]
  rfl

theorem State.trayCut_ignored {s : State} (ignored : s.cu.traySel = .ignore) : s.trayCut = (s.tmc, []) :=
  if_pos (by simp [ignored])

/-- The deck and the fan are left alone. -/
structure Spared (s : State) : Prop where
  tape : s.cu.tapeIgnore = true
  sound : s.cu.audioIgnore = true
  fan : s.cu.fanIgnore = true
  idle : s.ce.active = false

namespace Spared

variable {s : State} (h : Spared s)

include h

theorem tapeCut : s.tapeCut = (s.ttc, []) := if_pos h.tape

theorem deckCut : s.deckCut = s.ttc := by rw [State.deckCut, if_pos h.sound, h.tapeCut]

theorem fanCut : s.fanCut = (s.fc, []) := if_pos h.fan

/-- The fan follows the lamp alone. -/
theorem fanFollows : s.fanFollows = fanAfter s s.lampCut.1 := by rw [State.fanFollows, h.fanCut]; rfl

/-- The entries are those of lamp, mechanism and arbiter. -/
theorem imposedLog : s.imposedLog =
    loggedOf s.lampCut.2 ++ loggedOf s.trayCut.2 ++ loggedOf (s.ca.cutoff s.cu.traySel).2 := by
  simp [State.imposedLog, h.tapeCut, h.fanCut, Ce.halt_idle h.idle]

theorem cutRest : s.cutRest = queuedOf (s.ca.cutoff s.cu.traySel).2 := by
  simp [State.cutRest, Ce.halt_idle h.idle]

/-- What the entry leaves of the other blocks. -/
theorem cut_elsewhere : s.cut.ce = s.ce ∧ s.cut.ttc = s.ttc ∧ s.cut.rcu = s.rcu ∧ s.cut.mem = s.mem ∧ s.cut.pu = s.pu ∧
    s.cut.rw = s.rw ∧ s.cut.rr = s.rr ∧ s.cut.pending = s.pending :=
  ⟨congrArg Prod.fst (Ce.halt_idle h.idle .cutoff), h.deckCut, rfl, rfl, rfl, rfl, rfl, rfl⟩

end Spared

/-! ### Entries that are known to their end -/

theorem State.trayCut_held {s : State} (held : s.cu.traySel ≠ .ignore) : s.trayCut = s.tmc.cutoff s.cu.traySel :=
  if_neg (by simpa using held)

/-- No operation is in service at the mechanism, which the cutoff holds (R24, R25). -/
theorem Tmc.cutoff_holds (t : Tmc) (sel : TraySelection) :
    (t.cutoff sel).1.imposition = some sel ∧ (t.cutoff sel).1.op = none := by
  cases service : t.op with
  | none => rw [Tmc.cutoff_idle service]; exact ⟨rfl, service⟩
  | some op =>
    by_cases darken : t.state = .darken
    · rw [Tmc.cutoff_darken service darken]; exact ⟨rfl, rfl⟩
    · by_cases settle : t.state = .settle
      · rw [Tmc.cutoff_settle service settle]; exact ⟨rfl, rfl⟩
      · rw [Tmc.cutoff_moving service darken settle]; exact ⟨rfl, rfl⟩

/-- The JAM entry of the operation that the entry ends (R24). -/
theorem State.trayCut_log {s : State} {op : Operation} (held : s.cu.traySel ≠ .ignore) (service : s.tmc.op = some op) :
    loggedOf s.trayCut.2 = [(.jam, argPair (op.source.number + 0x80) (if s.tmc.homed then s.tmc.p else 0xFF))] := by
  rw [State.trayCut_held held]
  by_cases darken : s.tmc.state = .darken
  · rw [Tmc.cutoff_darken service darken]
    cases s.tmc.fromDark <;> rfl
  · by_cases settle : s.tmc.state = .settle
    · rw [Tmc.cutoff_settle service settle]
      rfl
    · rw [Tmc.cutoff_moving service darken settle]
      rfl

section

variable {s : State} (ready : Ready s) (sound : Cutoff s.cu) (enabled : s.cu.enabled .forced = true) (flag : s.cu.flag = false)
  (spared : Spared s)

include ready sound enabled flag spared

/-- An operation alone at the arbiter, with lamp, deck, fan and show left alone. -/
theorem cutoffForce_alone {op : Operation} (held : s.cu.traySel ≠ .ignore) (alone : Alone s op)
    (lamp : s.cu.lampSel = .ignore) : Took 0x3A .done s { s.cut with ca := { s.ca with inService := none } }
      [(.cutoffEnter, 6), (.jam, argPair (op.source.number + 0x80) (if s.tmc.homed then s.tmc.p else 0xFF))]
      (s.run (State.takeRow 0x3A dirCutoffForce)) := by
  have nobody : s.ca.holders = [] := List.filter_eq_nil_iff.mpr fun source _ => by simp [Ca.slot, alone.slots source]
  have arbiter : s.ca.cutoff s.cu.traySel = (s.ca, []) := if_pos (.inr nobody)
  have follows : s.fanFollows = (s.fc, []) := by
    rw [spared.fanFollows, fanAfter, State.lampCut_ignored lamp, if_pos (fanNotices_eq_nil rfl rfl rfl)]
  have due : s.cutOutcome = [.outcome op .abortedCutoff] := by simp [State.cutOutcome, held, alone.mechanism]
  have log : s.forceLog =
      [(.cutoffEnter, 6), (.jam, argPair (op.source.number + 0x80) (if s.tmc.homed then s.tmc.p else 0xFF))] := by
    rw [State.forceLog, spared.imposedLog, State.lampCut_ignored lamp, State.trayCut_log held alone.mechanism, arbiter, follows]
    rfl
  rw [← log]
  refine cutoffForce_took ready sound enabled flag fun dd fuel => ?_
  rw [due, spared.cutRest, arbiter]
  have same : s.cut.ca = s.ca := congrArg Prod.fst arbiter
  exact leads_outcome (u := { s.cut with dd := dd }) alone same .abortedCutoff fuel

/-- The lamp alone goes out. -/
theorem cutoffForce_dark (ignored : s.cu.traySel = .ignore) (off : s.cu.lampSel = .off) (free : s.lc.imposition = .none)
    (burns : s.lc.state = .striking ∨ s.lc.state = .lit ∨ s.lc.state = .waitCool) :
    Took 0x3A .done s s.cut ([(.cutoffEnter, 6), (.lampOff, 1)] ++ loggedOf (fanAfter s s.lampCut.1).2)
      (s.run (State.takeRow 0x3A dirCutoffForce)) := by
  have arbiter : s.ca.cutoff s.cu.traySel = (s.ca, []) := if_pos (.inl ignored)
  have lamp : loggedOf s.lampCut.2 = [(.lampOff, 1)] := by
    rw [State.lampCut_off off, Lc.impose_off free burns]
    rfl
  have due : s.cutOutcome = [] := if_pos (by simp [ignored])
  have log : s.forceLog = [(.cutoffEnter, 6), (.lampOff, 1)] ++ loggedOf (fanAfter s s.lampCut.1).2 := by
    rw [State.forceLog, spared.imposedLog, lamp, State.trayCut_ignored ignored, arbiter, spared.fanFollows]
    rfl
  rw [← log]
  refine cutoffForce_took ready sound enabled flag fun dd fuel => ?_
  rw [due, spared.cutRest, arbiter]
  exact .nil _ _

end

/-! ### O22 -/

/-- Settles O22: refused, or FORCED added, or the entry, whose impositions are followed to the outcome of the operation that
it ends; what comes after that finds the arbiter closed and the show halted. -/
theorem cutoffForce : Obligations.CutoffForce := by
  intro s ready sound
  refine ⟨_, rfl, fun disabled => ?_, fun enabled flag member => ?_, fun enabled flag fresh => ?_, fun enabled flag => ?_⟩
  · have refused : s.cu.force = ((s.cu, []), .refusedState) := if_neg (by simp [disabled])
    have took := row_took_cu (u' := s) (code := 0x3A) (owner := dirCutoffForce) ready (s.cu, [])
      (fun k same => by rw [dirCutoffForce, same, refused]) fun dd => .nil _ _
    exact took.answered rfl fun p _ => by cases p <;> simp [Part.same]
  · have stays : s.cu.force = ((s.cu, []), .done) := by
      have take : s.cu.take .forced = (s.cu, []) := (if_neg (by simp [flag])).trans (if_pos member)
      rw [Cu.force, if_pos enabled, Cu.arrive, if_pos enabled, take]
    have took := row_took_cu (u' := s) (code := 0x3A) (owner := dirCutoffForce) ready (s.cu, [])
      (fun k same => by rw [dirCutoffForce, same, stays]) fun dd => .nil _ _
    exact took.answered rfl fun p _ => by cases p <;> simp [Part.same]
  · have added := Cu.force_added sound enabled flag fresh
    have took := row_took_cu (u' := { s with cu := { s.cu with causes := s.cu.causes ||| 0x40 } }) (code := 0x3A)
      (owner := dirCutoffForce) ready (_, [.log .cutoffCauseAdded 6])
      (fun k same => by rw [dirCutoffForce, same, added]) fun dd => .nil _ _
    exact ⟨took.cu, took.answered rfl fun p hp => by cases p <;> simp [Part.same] at hp ⊢⟩
  · obtain ⟨dd, left, k, _, _, stands, drains⟩ := cutoffForce_stands ready sound enabled flag
    obtain ⟨_, _, acts⟩ := cutoffForce_acts ready sound enabled flag
    have ends : s.run (State.takeRow 0x3A dirCutoffForce) = (State.drain left k).settle := by rw [State.run, drains]
    have wound := cutoffForce_winds stands left
    have dd_eq : (State.drain left k).dd = dd.answer 0x3A .done := (State.drain_kept left k).dd.trans stands.dd
    have cu : (s.run (State.takeRow 0x3A dirCutoffForce)).cu = s.cu.entered := by rw [ends, State.settle_cu, wound.cu]; rfl
    have lc : (s.run (State.takeRow 0x3A dirCutoffForce)).lc = s.lampReleased := by rw [ends, State.settle_lc, wound.lc]; rfl
    have fc : (s.run (State.takeRow 0x3A dirCutoffForce)).fc = s.fanFollows.1 := by rw [ends, State.settle_fc, wound.fc]; rfl
    have ttc : (s.run (State.takeRow 0x3A dirCutoffForce)).ttc = s.deckCut := by rw [ends, State.settle_ttc, wound.ttc]; rfl
    have tmc : (s.run (State.takeRow 0x3A dirCutoffForce)).tmc = s.trayCut.1 := by
      rw [ends, State.settle_tmc, wound.tmc]; rfl
    refine ⟨congrArg Cu.flag cu, congrArg Cu.causes cu, by rw [ends, State.settle_dd, dd_eq]; rfl,
      by rw [ends, State.settle_dd, dd_eq]; rfl, fun free => (congrArg Lc.imposition lc).trans (State.lampReleased_imposition free),
      fun held => ?_, fun heard => ?_, fun heard => ?_, fun driven => ?_, fun active => ?_,
      unchanged_run acts rfl rfl rfl rfl rfl, ?_, fun off free => ?_, fun heard silent moving => ?_, fun heard loud => ?_⟩
    · obtain ⟨imposition, op⟩ := s.tmc.cutoff_holds s.cu.traySel
      have empty (source : Source) (other : source ≠ .run) :
          (s.run (State.takeRow 0x3A dirCutoffForce)).ca.slots.get source = none := by
        rw [ends, State.settle_ca]
        exact wound.slots source other (Ca.cutoff_empties held source)
      rw [tmc, State.trayCut_held held]
      exact ⟨imposition, op, empty .directive nofun, empty .remote nofun, empty .tape nofun⟩
    · rw [ttc]; exact State.deckCut_stops heard
    · rw [ttc]; exact State.deckCut_mute heard
    · rw [fc]; exact State.fanFollows_full driven
    · obtain ⟨pending, service, engine⟩ := wound.engine
      rw [ends, State.settle_ce, engine]
      exact Ce.halt_active active
    · intro ended law op service held
      subst law
      rw [tmc, lc, State.trayCut_held held]
      refine ⟨fun darken => ⟨?_, fun dark => State.lampReleased_unheld ?_, fun lit other => State.lampReleased_free ?_ other⟩,
        fun moving => ⟨?_, State.lampReleased_unheld ?_⟩, fun settle => ⟨?_, fun other => State.lampReleased_free ?_ other⟩,
        fun arbiter => ⟨cutoffForce_idle ready sound enabled flag held service arbiter, fun m marker run empty attached => ?_⟩,
        fun alone _ lamp tape silent fan idle => ?_⟩
      · rw [Tmc.cutoff_darken service darken]; rfl
      · simp [State.releases, Tmc.endsHold, darken, dark]
      · simp [State.releases, Tmc.endsHold, darken, lit, service, held]
      · rw [Tmc.cutoff_moving service (by rcases moving with p | p | p <;> simp [p])
          (by rcases moving with p | p | p <;> simp [p])]
        rfl
      · rcases moving with p | p | p <;> simp [State.releases, Tmc.endsHold, p]
      · rw [Tmc.cutoff_settle service settle]; rfl
      · simp [State.releases, Tmc.endsHold, settle, service, held]
      · obtain ⟨marker, request, armed, dwell⟩ :=
          cutoffForce_freed ready sound enabled flag held service arbiter marker run empty attached
        exact ⟨marker, request, armed, dwell⟩
      · have spared : Spared s := ⟨tape, silent, fan, idle⟩
        have took := cutoffForce_alone ready sound enabled flag spared held alone lamp
        refine took.answered rfl fun p hp => ?_
        obtain ⟨engine, deck, channels, mem, pu, writer, rr, pending⟩ := spared.cut_elsewhere
        have still : s.cut.fc = s.fc := (congrArg Prod.fst spared.fanFollows).trans (by
          rw [fanAfter, State.lampCut_ignored lamp, if_pos (fanNotices_eq_nil rfl rfl rfl)])
        cases p <;> simp [Part.same, engine, deck, channels, mem, pu, writer, rr, pending, still] at hp ⊢
    · refine ⟨fun burns => by rw [lc]; exact State.lampReleased_burns off free burns,
        fun moves => by rw [lc]; exact State.lampReleased_exchange off free moves,
        fun out => by rw [lc]; exact State.lampReleased_dark off free out, ?_⟩
      intro lamp law ignored tape silent fan idle burns
      have spared : Spared s := ⟨tape, silent, fan, idle⟩
      have cut : s.lampCut.1 = lamp := by rw [law, State.lampCut_off off, Lc.impose_off free burns]
      have took := cutoffForce_dark ready sound enabled flag spared ignored off free burns
      have kept : s.releases = false := by simp [State.releases, ignored]
      have released : s.lampReleased = lamp := by rw [State.lampReleased, kept, ← cut]; rfl
      rw [cut] at took
      refine ⟨lc.trans released, by rw [fc, spared.fanFollows, cut], took.answered rfl fun p hp => ?_⟩
      obtain ⟨engine, deck, channels, mem, pu, writer, rr, pending⟩ := spared.cut_elsewhere
      have tray : s.cut.tmc = s.tmc := congrArg Prod.fst (State.trayCut_ignored ignored)
      have arbiter : s.cut.ca = s.ca := congrArg Prod.fst (if_pos (.inl ignored))
      cases p <;> simp [Part.same, engine, deck, channels, mem, pu, writer, rr, pending, tray, arbiter] at hp ⊢
    · rw [ttc]; exact State.deckCut_brakes heard silent moving
    · rw [ttc]; exact State.deckCut_ramp heard loud

end Sys2Proof.Machine
end

section
/-! ## The laws of the lamp and of the fan, reaction by reaction (02, 03)

The lamp keeps R41's output by computing it afresh wherever a term of it changes, and its thresholds by touching them in
HEAT_PROFILE and the resets alone. The fan keeps its state with its demand (R64). -/

namespace Sys2Proof.Machine

open Sys2Proof.Safety

/-! ### The lamp's limits -/

/-- The fields that bound the output and that the heat profile sets. -/
structure Lc.Limits where
  ceiling : Nat
  derate : Nat
  h : Nat
  derateStart : Nat
  overheatLevel : Nat
  restrikeMax : Nat
  lampGain : Nat

def Lc.limits (lc : Lc) : Lc.Limits :=
  ⟨lc.ceiling, lc.derate, lc.h, lc.derateStart, lc.overheatLevel, lc.restrikeMax, lc.lampGain⟩

/-- The laws of these fields, with the cool-done level below the restrike maximum (R40, R53, R54, R69). -/
structure Lc.Limits.Lawful (coolDone : Nat) (l : Lc.Limits) : Prop where
  ceiling : l.ceiling ≤ 1023
  derate : l.derate = derateOf l.h l.derateStart l.overheatLevel
  thresholds : l.restrikeMax < l.derateStart ∧ l.derateStart < l.overheatLevel
  units : ∃ k m : Nat, l.derateStart = 256 * k ∧ l.overheatLevel = 256 * m ∧ m ≤ 255
  heat : l.h ≤ 65535
  gain : 1 ≤ l.lampGain
  cool : coolDone < l.restrikeMax

/-- A lamp in FAILED has no good lamp (R37). -/
def Lc.FailsTruly (lc : Lc) : Prop := lc.state = .failed → lc.goodA = false ∧ lc.goodB = false

/-- The lamp is sound and its restrike maximum lies above the fan's cool-done level. -/
structure Housed (coolDone : Nat) (lc : Lc) : Prop where
  output : lc.output = lc.computedOutput
  limits : lc.limits.Lawful coolDone
  failed : lc.FailsTruly

theorem housed_iff (coolDone : Nat) (lc : Lc) : Housed coolDone lc ↔ Lamphouse lc ∧ coolDone < lc.restrikeMax where
  mp := fun ⟨output, ⟨ceiling, derate, thresholds, units, heat, gain, cool⟩, failed⟩ =>
    ⟨⟨output, ceiling, derate, thresholds, units, heat, gain, failed⟩, cool⟩
  mpr := fun ⟨⟨output, ceiling, derate, thresholds, units, heat, gain, failed⟩, cool⟩ =>
    ⟨output, ⟨ceiling, derate, thresholds, units, heat, gain, cool⟩, failed⟩

/-! ### The output computed afresh -/

@[simp] theorem Lc.recompute_limits (lc : Lc) : lc.recompute.limits = lc.limits := by
  simp only [Lc.recompute, Lc.rewatch, Lc.checkDark]; split <;> rfl

theorem Lc.recompute_goods (lc : Lc) : lc.recompute.goodA = lc.goodA ∧ lc.recompute.goodB = lc.goodB := by
  simp only [Lc.recompute, Lc.rewatch, Lc.checkDark]; split <;> exact ⟨rfl, rfl⟩

/-- The move from DARKENING to HELD adds a term to the output that the output lies below already (R41, R47). -/
theorem Lc.recompute_computedOutput {lc : Lc} (ceiling : lc.ceiling ≤ 1023) :
    lc.recompute.computedOutput = lc.computedOutput := by
  simp only [Lc.recompute, Lc.rewatch, Lc.checkDark]
  split
  · next dark =>
    obtain ⟨darkening, low⟩ := dark
    simp only [Lc.computedOutput, Lc.drive, Lc.holdCap, Lc.cutoffCap, darkening] at low ⊢
    simp only [reduceCtorEq, if_false, if_true] at low ⊢
    split
    · next burns => rw [if_pos burns] at low; omega
    · rfl
  · rfl

/-- The output computed afresh is the least of its terms, whatever else has changed (R41). -/
theorem Housed.recompute {c : Nat} {lc : Lc} (limits : lc.limits.Lawful c) (failed : lc.FailsTruly) :
    Housed c lc.recompute where
  output := by rw [Lc.recompute_output, Lc.recompute_computedOutput limits.ceiling]
  limits := by rwa [Lc.recompute_limits]
  failed := by
    obtain ⟨goodA, goodB⟩ := lc.recompute_goods
    rwa [Lc.FailsTruly, Lc.recompute_state, goodA, goodB]

/-- A lamp that neither burns nor strikes has the output 0, whatever its terms are (R41). -/
theorem Lc.computedOutput_dark {lc : Lc} (dark : ¬ (lc.state = .lit ∨ lc.state = .striking)) : lc.computedOutput = 0 :=
  if_neg dark

/-- In the dark no term of the output matters (R41). -/
theorem Housed.output_dark {c : Nat} {lc after : Lc} (house : Housed c lc)
    (dark : ¬ (lc.state = .lit ∨ lc.state = .striking)) (output : after.output = lc.output)
    (state : after.state = lc.state) : after.output = after.computedOutput := by
  rw [output, house.output, Lc.computedOutput_dark dark, Lc.computedOutput_dark (state ▸ dark)]

section

variable {c : Nat} {lc : Lc} (house : Housed c lc)

include house

/-! ### Each reaction of the lamp -/

theorem Lc.enterOff_housed (arg : Half) : Housed c (lc.enterOff arg).1 := .recompute house.limits nofun

theorem Lc.enterStriking_housed : Housed c lc.enterStriking := .recompute house.limits nofun

theorem Lc.strikeOrWait_housed : Housed c lc.strikeOrWait.1 := by
  unfold Lc.strikeOrWait
  split
  · exact Lc.enterStriking_housed house
  · exact .recompute house.limits nofun

theorem Lc.enterExchange_housed (intent : Bool) : Housed c (lc.enterExchange intent) := .recompute house.limits nofun

theorem Lc.clearIntent_housed : Housed c lc.clearIntent := ⟨house.output, house.limits, house.failed⟩

theorem Lc.checkWait_housed : Housed c lc.checkWait := by
  unfold Lc.checkWait
  split
  · exact Lc.enterStriking_housed house
  · exact house

/-- The lamp at the focal point is marked bad, and its fade, strike and held-over release are dropped (R37). -/
def Lc.marked (lc : Lc) : Lc :=
  { lc with goodA := lc.goodA && lc.active != Lamp.a, goodB := lc.goodB && lc.active != Lamp.b, fade := none,
            heldRelease := none, strike := none }

omit house in
/-- A failure exchanges toward the other lamp if it is good, with the restrike intent unless OFF is imposed (R37, R51). -/
theorem Lc.fail_exchange (good : lc.marked.good lc.active.other = true) :
    lc.fail.1 = if lc.imposition = .off then (lc.marked.enterExchange true).clearIntent
      else lc.marked.enterExchange true := by
  have imposed : (lc.marked.enterExchange true).imposition = lc.imposition := Lc.recompute_imposition _
  simp only [← imposed]
  exact congrArg Prod.fst (if_pos good)

omit house in
/-- A failure with no other lamp good ends in FAILED (R37). -/
theorem Lc.fail_failed (bad : lc.marked.good lc.active.other = false) :
    lc.fail.1 = Lc.recompute { lc.marked with state := .failed, stored := none } :=
  congrArg Prod.fst (if_neg (Bool.not_eq_true _ ▸ bad))

theorem Lc.fail_housed : Housed c lc.fail.1 := by
  cases other : lc.marked.good lc.active.other with
  | true =>
    have moved : Housed c (lc.marked.enterExchange true) := .recompute house.limits nofun
    rw [Lc.fail_exchange other]
    split
    · exact Lc.clearIntent_housed moved
    · exact moved
  | false =>
    rw [Lc.fail_failed other]
    refine .recompute house.limits fun _ => ?_
    cases active : lc.active <;> simp_all [Lc.marked, Lc.good, Lamp.other]

theorem Lc.on_housed : Housed c lc.on.1.1 := by
  unfold Lc.on
  split
  · exact house
  · split
    · split
      · exact Lc.strikeOrWait_housed house
      · exact Lc.enterExchange_housed house true
    · exact ⟨house.output, house.limits, house.failed⟩
    · exact house
    · exact house

theorem Lc.off_housed : Housed c lc.off.1 := by
  unfold Lc.off
  split
  · exact Lc.enterOff_housed house 0
  · exact Lc.enterOff_housed house 0
  · exact Lc.enterOff_housed house 0
  · exact Lc.clearIntent_housed house
  · exact house
  · exact house

theorem Lc.moveEnd_housed : Housed c lc.moveEnd.1 := by
  unfold Lc.moveEnd
  dsimp only
  split
  · split
    · next bad =>
      refine .recompute house.limits fun _ => ?_
      simpa [Lc.anyGood] using bad
    · split
      · exact Lc.strikeOrWait_housed (lc := { lc with moveTimer := none, restrike := false, moveCleared := false })
          ⟨house.output, house.limits, house.failed⟩
      · exact .recompute house.limits nofun
  · exact house

theorem Lc.spare_housed (goodA goodB : Bool) (chosen : Lamp) : Housed c (lc.spare goodA goodB chosen).1 := by
  unfold Lc.spare
  dsimp only
  split
  · split
    · refine .recompute house.limits fun failed => ?_
      simpa [Lc.anyGood] using failed
    · exact .recompute house.limits nofun
  · exact house

theorem Lc.order_housed (now : Bool) (level curve duration : Nat) : Housed c (lc.order now level curve duration) := by
  have shown : Housed c { lc with showLevel := level } := ⟨house.output, house.limits, house.failed⟩
  unfold Lc.order
  dsimp only
  split
  · split
    · exact .recompute house.limits house.failed
    · exact ⟨house.output, house.limits, house.failed⟩
  · exact ⟨house.output, house.limits, house.failed⟩
  · exact shown

theorem Lc.fadeDirective_housed (level curve units : Nat) : Housed c (lc.fadeDirective level curve units).1 := by
  unfold Lc.fadeDirective
  split
  · exact house
  · exact Lc.order_housed house _ _ _ _

theorem Lc.setCeiling_housed (level : Nat) : Housed c (lc.setCeiling level).1 :=
  .recompute { house.limits with ceiling := Nat.min_le_right level 1023 } house.failed

theorem Lc.takeRelease_housed (inTime : Nat) : Housed c (lc.takeRelease inTime) := by
  unfold Lc.takeRelease
  split
  · exact house
  · split
    · unfold Lc.returnFade
      split <;> exact .recompute house.limits house.failed
    · exact ⟨house.output, house.limits, house.failed⟩
    · exact .recompute house.limits house.failed

theorem Lc.takeDarken_housed (outTime b : Nat) : Housed c (lc.takeDarken outTime b) := by
  unfold Lc.takeDarken
  dsimp only
  (repeat' split) <;> exact .recompute house.limits house.failed

theorem Lc.takeSnap_housed : Housed c lc.takeSnap := by
  unfold Lc.takeSnap
  split
  · exact .recompute house.limits house.failed
  · exact ⟨house.output, house.limits, house.failed⟩
  · exact house

/-- The lamp as a strike leaves it at its target (R35). -/
def Lc.litAt (lc : Lc) (target : Nat) : Lc :=
  Lc.recompute { lc with state := .lit, strike := none, fadeLevel := target }

/-- What takes effect at entry to LIT: a held-over release, a stored fade with no hold in force, or the fade after a lifted
cap (R35, R50, R51; assumption log 15). -/
def Lc.litFade (lit : Lc) (inTime : Nat) : Lc :=
  match lit.heldRelease, lit.stored with
  | some t, _ => Lc.returnFade { lit with heldRelease := none } t
  | none, some f =>
    if lit.hold = .none then { lit.startFade f.target f.curve f.duration with stored := none } else lit
  | none, none => if lit.capLingers = true ∧ lit.hold = .none then lit.startFade lit.showLevel 4 inTime else lit

omit house in
theorem Lc.enterLit_eq (target inTime : Nat) :
    lc.enterLit target inTime = Lc.recompute { (lc.litAt target).litFade inTime with capLingers := false } := by
  unfold Lc.enterLit Lc.litFade
  rfl

omit house in
theorem Lc.litFade_keeps (inTime : Nat) : (lc.litFade inTime).limits = lc.limits ∧ (lc.litFade inTime).state = lc.state := by
  unfold Lc.litFade Lc.returnFade
  (repeat' split) <;> exact ⟨rfl, rfl⟩

theorem Lc.enterLit_housed (target inTime : Nat) : Housed c (lc.enterLit target inTime) := by
  obtain ⟨limits, state⟩ := (lc.litAt target).litFade_keeps inTime
  rw [Lc.enterLit_eq]
  refine .recompute ?_ fun failed => ?_
  · show ((lc.litAt target).litFade inTime).limits.Lawful c
    rw [limits, Lc.litAt, Lc.recompute_limits]
    exact house.limits
  · have lit : ((lc.litAt target).litFade inTime).state = .lit := by rw [state, Lc.litAt, Lc.recompute_state]
    exact absurd (lit.symm.trans failed) nofun

theorem Lc.strikeEnd_housed (inTime : Nat) : Housed c (lc.strikeEnd inTime).1 := by
  unfold Lc.strikeEnd
  split
  · split
    · exact house
    · split
      · exact Lc.enterLit_housed house _ inTime
      · exact Lc.fail_housed house
  · exact house

theorem Lc.setCurrent_housed (present : Bool) : Housed c (lc.setCurrent present) :=
  ⟨house.output, house.limits, house.failed⟩

theorem Lc.watchExpiry_housed : Housed c lc.watchExpiry.1 := by
  unfold Lc.watchExpiry
  split
  · exact Lc.fail_housed house
  · exact house

theorem Lc.impose_housed (new : LampImposition) (blackout inTime : Nat) :
    Housed c (lc.impose new blackout inTime).1 := by
  unfold Lc.impose
  dsimp only
  split
  · exact house
  · split
    · split
      · exact .recompute house.limits nofun
      · exact .recompute house.limits nofun
      · exact .recompute house.limits nofun
      all_goals
        next state =>
        exact ⟨house.output_dark (by simp [state]) rfl rfl, house.limits, house.failed⟩
    · exact .recompute house.limits house.failed
    · split
      · exact .recompute house.limits house.failed
      · split
        · exact .recompute house.limits house.failed
        · exact .recompute house.limits house.failed

omit house in
/-- A new H or a new profile brings the derate limit that belongs to it (R54). -/
theorem Lc.reheat_housed {l : Lc} (limits : { l.limits with derate := derateOf l.h l.derateStart l.overheatLevel }.Lawful c)
    (failed : l.FailsTruly) : Housed c l.reheat.1 := .recompute limits failed

theorem Lc.heatUpdate_housed (fan : Nat) : Housed c (lc.heatUpdate fan).1 :=
  Lc.checkWait_housed (Lc.reheat_housed
    { house.limits with derate := rfl, heat := Nat.min_le_left 65535 (lc.h + lc.output * lc.lampGain / 64 - _) }
    house.failed)

theorem Lc.heatProfile_housed (lampGain fanGain ds oh rm : Byte) :
    Housed c (lc.heatProfile lampGain fanGain ds oh rm c).1.1 := by
  unfold Lc.heatProfile
  split
  · exact house
  · next lawful =>
    obtain ⟨gain, order, cool⟩ : lampGain.toNat ≠ 0 ∧ (rm.toNat < ds.toNat ∧ ds.toNat < oh.toNat) ∧ c < rm.toNat * 256 := by
      simpa only [not_or, not_not, not_le] using lawful
    have top := oh.isLt
    refine Lc.checkWait_housed (Lc.reheat_housed ?_ house.failed)
    exact { ceiling := house.limits.ceiling, derate := rfl, heat := house.limits.heat, cool := cool
            thresholds := by dsimp only [Lc.limits]; omega
            units := ⟨ds.toNat, oh.toNat, by dsimp only [Lc.limits]; omega, by dsimp only [Lc.limits]; omega, by omega⟩
            gain := by dsimp only [Lc.limits]; omega }

theorem Lc.update_housed : Housed c lc.update := by
  have faded (l : Lc) : l.evalFade.limits = l.limits ∧ l.evalFade.state = l.state ∧ l.evalFade.goodA = l.goodA ∧
      l.evalFade.goodB = l.goodB := by
    unfold Lc.evalFade
    split
    · exact ⟨rfl, rfl, rfl, rfl⟩
    · split <;> exact ⟨rfl, rfl, rfl, rfl⟩
  obtain ⟨limits, state, goodA, goodB⟩ := faded { lc with lampPhase := some 2 }
  refine .recompute ?_ ?_
  · show (Lc.evalFade { lc with lampPhase := some 2 }).limits.Lawful c
    rw [limits]
    exact house.limits
  · show (Lc.evalFade { lc with lampPhase := some 2 }).FailsTruly
    rw [Lc.FailsTruly, state, goodA, goodB]
    exact house.failed

theorem Lc.timedUpdate_housed : Housed c lc.timedUpdate := by
  unfold Lc.timedUpdate
  split
  · exact Lc.update_housed house
  · exact house

theorem Lc.completeFade_housed : Housed c lc.completeFade := by
  unfold Lc.completeFade
  split
  · split
    · exact Lc.timedUpdate_housed house
    · exact house
  · exact house

theorem Lc.tick_housed : Housed c lc.tick := by
  have ramp : lc.tick.strike.map (·.ramp) = lc.strike.map (·.ramp) := by simp [Lc.tick, Function.comp_def]
  refine ⟨house.output.trans ?_, house.limits, house.failed⟩
  simp only [Lc.computedOutput, Lc.drive, ramp]
  rfl

omit house in
/-- The lamp after power-on, whatever its current input shows (R57). -/
theorem reset_housed (lcur : Bool) : Housed Fc.reset.coolDone { Lc.reset with lcur := lcur } := by
  obtain ⟨output, limits, failed⟩ := (housed_iff Fc.reset.coolDone Lc.reset).mpr ⟨reset_lamphouse, by decide⟩
  exact ⟨output, limits, failed⟩

/-- The part reset takes the default profile, and the derate limit that H has under it (R58). -/
theorem Lc.partReset_housed : Housed Fc.reset.coolDone lc.partReset.1 := by
  have fresh := (reset_housed false).limits
  refine .recompute ?_ fun failed => ?_
  · exact ⟨fresh.ceiling, rfl, fresh.thresholds, fresh.units, house.limits.heat, fresh.gain, fresh.cool⟩
  · dsimp only at failed
    split at failed
    · cases failed
    · split at failed
      · cases failed
      · next bad => simpa [Lc.anyGood] using bad

end

/-! ### The fan -/

/-- The demand computed lies in its range (R62). -/
theorem Fc.computed_le {fc : Fc} (minimum : fc.minimum ≤ 255) (h ds : Nat) (active : Bool) :
    fc.computed h ds active ≤ 255 := by
  have base : baseDemand fc.minimum h ds ≤ 255 := by
    have share : (255 - fc.minimum) * min h ds / ds ≤ 255 - fc.minimum := by
      rcases Nat.eq_zero_or_pos ds with rfl | positive
      · simp
      · exact Nat.div_le_of_le_mul (by rw [Nat.mul_comm]; exact Nat.mul_le_mul_right _ (Nat.min_le_right h ds))
    unfold baseDemand
    omega
  unfold Fc.computed
  split
  · exact le_refl 255
  · split
    · exact base
    · exact Nat.zero_le 255

section

variable {fc : Fc} (fan : Fan fc)

include fan

theorem Fc.follow_fan (active : Bool) : Fan (fc.follow active) := by
  unfold Fc.follow
  split
  · next turns =>
    have still : turningState active ≠ .stopped ∧ turningState active ≠ .spinup := by cases active <;> decide
    have stopped : fc.state ≠ .stopped ∧ fc.state ≠ .spinup := by rcases turns with turns | turns <;> simp [turns]
    exact { fan with
      stopped := (iff_false_left still.1).mpr (fan.stopped.not.mp stopped.1)
      spinup := (iff_false_left still.2).mpr (fan.spinup.not.mp stopped.2) }
  · exact fan

omit fan in
@[simp] theorem Fc.follow_demand (fc : Fc) (active : Bool) : (fc.follow active).demand = fc.demand := by
  unfold Fc.follow
  split <;> rfl

omit fan in
@[simp] theorem Fc.follow_coolDone (fc : Fc) (active : Bool) : (fc.follow active).coolDone = fc.coolDone := by
  unfold Fc.follow
  split <;> rfl

omit fan in
@[simp] theorem Fc.compute_coolDone (fc : Fc) (h ds : Nat) (active : Bool) :
    (fc.compute h ds active).1.coolDone = fc.coolDone := by
  unfold Fc.compute
  dsimp only
  (repeat' split) <;> exact fc.follow_coolDone active

/-- A demand that leaves 0 spins the fan up, one that becomes 0 stops it, and any other leaves it as it follows the lamp
(R64, R65). -/
theorem Fc.compute_fan (h ds : Nat) (active : Bool) : Fan (fc.compute h ds active).1 := by
  have followed := Fc.follow_fan fan active
  have range := Fc.computed_le fan.minimum h ds active
  unfold Fc.compute
  generalize fc.computed h ds active = new at range
  dsimp only
  split
  · next start =>
    exact { followed with
      stopped := (iff_false_left nofun).mpr start.2, spinup := by simp [Fc.spinUp], demand := range
      grace := le_refl 4, stalls := Nat.zero_le 3 }
  · split
    · next stop =>
      exact { followed with
        stopped := (iff_true_left rfl).mpr stop.2, spinup := by simp [Fc.stop], demand := range
        grace := Nat.zero_le 4, stalls := Nat.zero_le 3 }
    · next starts stops =>
      have same : fc.demand = 0 ↔ new = 0 := by tauto
      exact { followed with
        stopped := followed.stopped.trans ((Fc.follow_demand fc active).symm ▸ same), demand := range }

theorem Fc.impose_fan (full : Bool) (h ds : Nat) (active : Bool) : Fan (fc.impose full h ds active).1 :=
  Fc.compute_fan (fc := { fc with full := full }) { fan with } h ds active

theorem Fc.profile_fan (minimum coolDone : Byte) (rm h ds : Nat) (active : Bool) :
    Fan (fc.profile minimum coolDone rm h ds active).1.1 := by
  have low := minimum.isLt
  unfold Fc.profile
  split
  · exact Fc.compute_fan (fc := { fc with minimum := minimum.toNat, coolDone := coolDone.toNat * 256 })
      { fan with minimum := by dsimp only; omega } h ds active
  · exact fan

omit fan in
theorem Fc.profile_cool {rm : Nat} (cool : fc.coolDone < rm) (minimum coolDone : Byte) (h ds : Nat) (active : Bool) :
    (fc.profile minimum coolDone rm h ds active).1.1.coolDone < rm := by
  unfold Fc.profile
  split
  · next lower => simpa using lower
  · exact cool

theorem Fc.pulse_fan : Fan fc.pulse := { fan with pulses := Nat.min_le_left 65535 _ }

theorem Fc.tick_fan : Fan fc.tick := { fan with }

/-- The window check leaves the demand as it is: it ends SPINUP with its grace, and RUNNING, COOLDOWN and STALLED are states
of a fan that has one (R64, R66, R67). -/
theorem Fc.check_fan (active : Bool) : Fan (fc.check active).1 := by
  have turns : turningState active ≠ .stopped ∧ turningState active ≠ .spinup := by cases active <;> decide
  have driven (moves : fc.state ≠ .stopped) {state : FanState} (other : state ≠ .stopped) :
      state = .stopped ↔ fc.demand = 0 := (iff_false_left other).mpr (fan.stopped.not.mp moves)
  have idle (settled : fc.state ≠ .spinup) {state : FanState} (other : state ≠ .spinup) : state = .spinup ↔ 0 < fc.grace :=
    (iff_false_left other).mpr (fan.spinup.not.mp settled)
  have range := fan.grace
  have counted {n : Nat} (few : n ≤ 3) : Fan { fc with stallWindows := n } := { fan with stalls := few }
  unfold Fc.check
  dsimp only
  split
  · exact fan
  · next spins =>
    split
    · next last =>
      exact { fan with
        stopped := driven (by simp [spins]) turns.1, spinup := (iff_false_left turns.2).mpr (lt_irrefl 0)
        grace := Nat.zero_le 4 }
    · next left =>
      exact { fan with spinup := (iff_true_left spins).mpr (by dsimp only; omega), grace := by dsimp only; omega }
  case h_3 runs | h_4 runs =>
    split
    · split
      · exact { fan with
          stopped := driven (by simp [runs]) nofun, spinup := idle (by simp [runs]) nofun, stalls := le_refl 3 }
      · exact counted (by omega)
    · exact counted (Nat.zero_le 3)
  · next stalled =>
    split
    · exact { fan with
        stopped := driven (by simp [stalled]) turns.1, spinup := idle (by simp [stalled]) turns.2, stalls := Nat.zero_le 3 }
    · exact fan

theorem Fc.windowEnd_fan (active : Bool) : Fan (fc.windowEnd active).1 :=
  Fc.check_fan (fc := { fc with speed := min 255 (4 * fc.pulses), pulses := 0, windowPhase := some 250 })
    { fan with speed := Nat.min_le_left 255 _, pulses := Nat.zero_le 65535 } active

omit fan in
@[simp] theorem Fc.windowEnd_coolDone (fc : Fc) (active : Bool) : (fc.windowEnd active).1.coolDone = fc.coolDone := by
  unfold Fc.windowEnd Fc.check
  dsimp only
  (repeat' split) <;> rfl

theorem Fc.partReset_fan (h ds : Nat) (active : Bool) : Fan (fc.partReset h ds active) := by
  have range := Fc.computed_le
    (fc := { fc with pulses := 0, stallWindows := 0, minimum := 96, coolDone := 3072, full := false })
    (show 96 ≤ 255 by decide) h ds active
  unfold Fc.partReset
  dsimp only
  split
  · next still =>
    exact { fan with
      stopped := (iff_true_left rfl).mpr still, spinup := by simp [Fc.stop], demand := range, pulses := Nat.zero_le _
      grace := Nat.zero_le 4, stalls := Nat.zero_le 3, minimum := show 96 ≤ 255 by decide }
  · next driven =>
    exact { fan with
      stopped := (iff_false_left nofun).mpr driven, spinup := by simp [Fc.spinUp], demand := range, pulses := Nat.zero_le _
      grace := le_refl 4, stalls := Nat.zero_le 3, minimum := show 96 ≤ 255 by decide }

omit fan in
theorem Fc.partReset_coolDone (h ds : Nat) (active : Bool) : (fc.partReset h ds active).coolDone = Fc.reset.coolDone := by
  unfold Fc.partReset
  dsimp only
  split <;> rfl

end

end Sys2Proof.Machine
end

section
/-! ## Every step keeps the lamp house sound (02, 03) -/

namespace Sys2Proof.Machine

open Sys2Proof.Safety

/-- Lamp and fan are sound, with the cool-done level below the restrike maximum. -/
def LampHouse (s : State) : Prop := Housed s.fc.coolDone s.lc ∧ Fan s.fc

theorem lampHouse_iff (s : State) : LampHouse s ↔ Lamphouse s.lc ∧ Fan s.fc ∧ CoolDone s := by
  unfold LampHouse CoolDone
  rw [housed_iff]
  tauto

/-- Where lamp and fan stand, the lamp house is sound still. -/
theorem LampHouse.of_eq {s t : State} (h : LampHouse s) (lc : t.lc = s.lc) (fc : t.fc = s.fc) : LampHouse t := by
  rwa [LampHouse, lc, fc]

/-! ### What leaves the lamp and the fan alone -/

section

variable (s : State)

@[simp] theorem lampHouse_putTmc (r : Reaction Tmc) : LampHouse (s.putTmc r) ↔ LampHouse s := by simp [LampHouse]

@[simp] theorem lampHouse_putCu (r : Reaction Cu) : LampHouse (s.putCu r) ↔ LampHouse s := by simp [LampHouse]

@[simp] theorem lampHouse_putTtc (r : Reaction Ttc) : LampHouse (s.putTtc r) ↔ LampHouse s := by simp [LampHouse]

@[simp] theorem lampHouse_putRr (r : Reaction Rr) : LampHouse (s.putRr r) ↔ LampHouse s := by simp [LampHouse]

@[simp] theorem lampHouse_putCa (r : Reaction Ca) : LampHouse (s.putCa r) ↔ LampHouse s := by simp [LampHouse]

@[simp] theorem lampHouse_putRcu (r : Reaction Rcu) : LampHouse (s.putRcu r) ↔ LampHouse s := by simp [LampHouse]

@[simp] theorem lampHouse_putCe (r : Reaction Ce) : LampHouse (s.putCe r) ↔ LampHouse s := by simp [LampHouse]

@[simp] theorem lampHouse_post (ns : List Notice) : LampHouse (s.post ns) ↔ LampHouse s := by simp [LampHouse]

@[simp] theorem lampHouse_act (f : State → State) : LampHouse (s.act f) ↔ LampHouse (f s) := by simp [LampHouse]

@[simp] theorem lampHouse_settle : LampHouse s.settle ↔ LampHouse s := by simp [LampHouse]

@[simp] theorem lampHouse_kickReports : LampHouse s.kickReports ↔ LampHouse s := by
  obtain ⟨_, _, h, _⟩ := s.kickReports_eq
  rw [h]
  rfl

@[simp] theorem lampHouse_answer (code : Byte) (result : Result) : LampHouse (s.answer code result) ↔ LampHouse s := by
  simp [LampHouse, State.answer]

end

section

variable {s : State} (h : LampHouse s)

include h

theorem ArbiterActs.lampHouse {t : State} (acts : ArbiterActs s t) : LampHouse t := h.of_eq acts.lc acts.fc

theorem EngineActs.lampHouse {t : State} (acts : EngineActs s t) : LampHouse t := h.of_eq acts.lc acts.fc

theorem abandon_lampHouse : LampHouse s.abandon := by
  obtain ⟨dd, ns, e, _⟩ := abandon_eq s
  exact h.of_eq (by rw [e]; simp) (by rw [e]; simp)

theorem completeOwn_lampHouse : LampHouse s.completeOwn := by
  unfold State.completeOwn State.byteWritten State.askByte
  (repeat' (first | split | dsimp only)) <;> first | exact h | exact (lampHouse_putCe _ _).mpr h

/-! ### The lamp's and the fan's own reactions -/

theorem putLc_lampHouse {r : Reaction Lc} (house : Housed s.fc.coolDone r.1) : LampHouse (s.putLc r) :=
  ⟨by simpa using house, by simpa using h.2⟩

theorem putFc_lampHouse {r : Reaction Fc} (fan : Fan r.1) (cool : r.1.coolDone = s.fc.coolDone) : LampHouse (s.putFc r) :=
  ⟨by simpa [cool] using h.1, by simpa using fan⟩

theorem toggleLamp_lampHouse : LampHouse s.toggleLamp := by
  unfold State.toggleLamp
  split <;> first | exact putLc_lampHouse h (Lc.off_housed h.1) | exact putLc_lampHouse h (Lc.on_housed h.1)

/-! ### The remote -/

theorem performAction_lampHouse (e : KeyEntry) (key : BitVec 5) : LampHouse (s.performAction e key) := by
  unfold State.performAction State.togglePause
  split
  case h_5 => exact toggleLamp_lampHouse h
  all_goals (repeat' split) <;> simpa using h

theorem press_lampHouse (key : BitVec 5) (toggle : Bool) : LampHouse (s.press key toggle) := by
  unfold State.press State.actOnPress
  dsimp only
  generalize held : s.putRr _ = u
  have sound : LampHouse u := by rw [← held]; simpa using h
  have acted (e : KeyEntry) := performAction_lampHouse sound e key
  (repeat' split) <;> first | simpa using sound | simpa using acted _

theorem releaseKey_lampHouse : LampHouse s.releaseKey := by
  unfold State.releaseKey
  split
  · exact h
  · dsimp only
    have dropped : LampHouse (s.putRr (s.rr.dropKey, [])) := by simpa using h
    split
    · exact performAction_lampHouse dropped _ _
    · exact dropped

theorem releaseExpiry_lampHouse : LampHouse s.releaseExpiry := by
  unfold State.releaseExpiry
  split
  · exact releaseKey_lampHouse h
  · exact h

theorem repeatExpiry_lampHouse : LampHouse s.repeatExpiry := by
  unfold State.repeatExpiry
  split
  · exact h
  · split
    · dsimp only
      split
      · exact performAction_lampHouse ((lampHouse_putRr _ _).mpr h) _ _
      · simpa using h
    · exact h

/-! ### The notices -/

/-- Every notice taken leaves a sound lamp house: most reach neither lamp nor fan. -/
theorem handle_lampHouse (n : Notice) : LampHouse (State.handle n s) := by
  cases n with
  | deposit source kind => exact (deposit_arbiterActs s source kind).lampHouse h
  | select => exact (select_arbiterActs s).lampHouse h
  | outcome op result => exact (takeOutcome_engineActs s op result).lampHouse h
  | deliver source result => exact (deliver_engineActs s source result).lampHouse h
  | slotEmpty source => exact (slotEmptied_engineActs s source).lampHouse h
  | terminalCount c => exact (terminalCount_engineActs s c).lampHouse h
  | fifoJoined => exact (lookTape_engineActs s).lampHouse h
  | progress => exact (progress_engineActs s).lampHouse h
  | darken outTime level => exact putLc_lampHouse h (Lc.takeDarken_housed h.1 outTime level)
  | snap => exact putLc_lampHouse h (Lc.takeSnap_housed h.1)
  | release inTime => exact putLc_lampHouse h (Lc.takeRelease_housed h.1 inTime)
  | lampImposition i => exact putLc_lampHouse h (Lc.impose_housed h.1 i _ _)
  | lampAction now level curve duration => exact putLc_lampHouse h (Lc.order_housed h.1 now level curve duration)
  | fanCompute hot ds active => exact putFc_lampHouse h (Fc.compute_fan h.2 hot ds active) (Fc.compute_coolDone _ _ _ _)
  | fanImposition full => exact putFc_lampHouse h (Fc.impose_fan h.2 full _ _ _) (Fc.compute_coolDone _ _ _ _)
  | askRead offset => exact h
  | dropRead => exact h
  | _ => simpa [State.handle] using h

end

theorem carry_lampHouse {s : State} {f : State → State} (h : LampHouse (f s)) : LampHouse (s.carry f) := by
  refine State.drain_keeps (P := LampHouse) (fun _ _ k => k) ?_ _ _ (by simpa using h)
  exact fun t n k => by simpa using handle_lampHouse k n

theorem run_lampHouse {s : State} {f : State → State} (h : LampHouse (f s)) : LampHouse (s.run f) := by
  simpa [State.run] using carry_lampHouse h

/-! ### Directives -/

section

variable {s : State} (h : LampHouse s)

include h

theorem dirFanProfile_lampHouse (minimum coolDone : Byte) : LampHouse (dirFanProfile minimum coolDone s).1 := by
  have cool := Fc.profile_cool h.1.limits.cool minimum coolDone s.lc.h s.lc.derateStart s.lc.lampActive
  have limits := h.1.limits
  have fan := Fc.profile_fan h.2 minimum coolDone s.lc.restrikeMax s.lc.h s.lc.derateStart s.lc.lampActive
  exact ⟨by simpa [dirFanProfile] using ⟨h.1.output, { limits with cool := cool }, h.1.failed⟩,
    by simpa [dirFanProfile] using fan⟩

theorem depositDirective_lampHouse (kind : OpKind) (result : Result) :
    LampHouse (s.depositDirective kind result).1 := by
  unfold State.depositDirective
  split
  · exact h
  · simpa using h

/-- The owner of a directive leaves the lamp house alone, but for the lamp's own and FAN_PROFILE. -/
theorem rowAct_lampHouse {c : Instr} {owner : State → State × Result} (act : rowAct c = some owner) :
    LampHouse (owner s).1 := by
  cases c
  case lampOn => obtain rfl := Option.some.inj act; exact putLc_lampHouse h (Lc.on_housed h.1)
  case lampOff => obtain rfl := Option.some.inj act; exact putLc_lampHouse h (Lc.off_housed h.1)
  case lampFade => obtain rfl := Option.some.inj act; exact putLc_lampHouse h (Lc.fadeDirective_housed h.1 _ _ _)
  case lampCeiling => obtain rfl := Option.some.inj act; exact putLc_lampHouse h (Lc.setCeiling_housed h.1 _)
  case lampSpare => obtain rfl := Option.some.inj act; exact putLc_lampHouse h (Lc.spare_housed h.1 _ _ _)
  case heatProfile => obtain rfl := Option.some.inj act; exact putLc_lampHouse h (Lc.heatProfile_housed h.1 _ _ _ _ _)
  case fanProfile => obtain rfl := Option.some.inj act; exact dirFanProfile_lampHouse h _ _
  case home | moveBy | clearGate => obtain rfl := Option.some.inj act; exact depositDirective_lampHouse h _ _
  case gotoSlot =>
    obtain rfl := Option.some.inj act
    unfold dirGotoSlot
    split
    · exact depositDirective_lampHouse h _ _
    · exact h
  case tapeWind => obtain rfl := Option.some.inj act; unfold dirTapeWind dirTapeRequest; split <;> simpa using h
  case cueWrite => obtain rfl := Option.some.inj act; unfold dirCueWrite; split <;> simpa using h
  all_goals first
    | exact (Option.some_ne_none _ act.symm).elim
    | obtain rfl := Option.some.inj act
      simpa [dirRemoteSetup, dirChangeProfile, dirCutoffSelect, dirCutoffEnable,
        dirCutoffForce, dirCutoffClear, dirTapePlay, dirTapeStop, dirTapeLocate, dirTapeRecord, dirTapeZero, dirTapeRequest,
        dirCueRoute, dirAudioLevel, dirArbLevels, dirArbMask, dirRunLoad, dirRunMask, dirRunTrigger, dirRunClearAll,
        dirRunOrder, dirShowStart, dirShowPause, dirShowResume, dirShowStop, dirCueGo, dirShowLead] using h

theorem directive_lampHouse (code : Byte) (operands : List Byte) : LampHouse (s.directive code operands).1 :=
  State.directive_induction (P := fun r => LampHouse r.1) s h (fun _ _ act => rowAct_lampHouse h act) code operands

omit h in
theorem take_lampHouse {owner : State → State × Result} (code : Byte) (act : LampHouse (owner s).1) :
    LampHouse (s.take owner code) := by
  simpa [State.take] using act

theorem takeRow_lampHouse {owner : State → State × Result} (code : Byte)
    (act : ∀ k : State, LampHouse k → LampHouse (owner k).1) : LampHouse (State.takeRow code owner s) := by
  unfold State.takeRow
  dsimp only
  split
  · exact h
  · split
    · exact take_lampHouse code (act s h)
    · exact take_lampHouse code (act _ (abandon_lampHouse h))

/-! ### The resets -/

theorem partReset_lampHouse : LampHouse s.partReset := by
  have house := Lc.partReset_housed h.1
  have fan := Fc.partReset_fan h.2 s.lc.partReset.1.h s.lc.partReset.1.derateStart s.lc.partReset.1.lampActive
  have cool := s.fc.partReset_coolDone s.lc.partReset.1.h s.lc.partReset.1.derateStart s.lc.partReset.1.lampActive
  rw [← cool] at house
  unfold State.partReset
  dsimp only
  rw [lampHouse_putCu, lampHouse_answer, lampHouse_post]
  exact ⟨house, fan⟩

omit h in
theorem powerOn_lampHouse (pins : Pins) : LampHouse (s.powerOn pins) := by
  unfold State.powerOn
  dsimp only
  rw [lampHouse_putCu, lampHouse_post]
  exact ⟨reset_housed pins.lcur, reset_fan⟩

/-! ### The bus -/

theorem leadByte_lampHouse (code : Byte) : LampHouse (s.leadByte code) := by
  have closed := abandon_lampHouse h
  unfold State.leadByte
  dsimp only
  split
  · exact partReset_lampHouse closed
  · split
    · exact (lampHouse_answer _ _ _).mpr closed
    · exact take_lampHouse code (directive_lampHouse closed _ _)
    · exact closed

theorem operandByte_lampHouse (b : Byte) : LampHouse (s.operandByte b) := by
  unfold State.operandByte
  split
  · dsimp only
    split
    · exact take_lampHouse _ (directive_lampHouse h _ _)
    · exact h
  · simpa using h

theorem snoop_lampHouse (a : Address) (b : Byte) : LampHouse (s.snoop a b) := by
  unfold State.snoop State.route
  split
  · exact h
  · split
    · exact leadByte_lampHouse h b
    · split
      · exact operandByte_lampHouse h b
      · split
        · exact h
        · split
          · exact ⟨⟨h.1.output, h.1.limits, h.1.failed⟩, h.2⟩
          · (repeat' split) <;> first | exact h | exact (lampHouse_putCe _ _).mpr h

theorem beforeHost_lampHouse : LampHouse s.beforeHost := by
  have held : LampHouse s.holdHost := by
    unfold State.holdHost
    split
    · exact carry_lampHouse (completeOwn_lampHouse h)
    · split
      · exact carry_lampHouse (completeOwn_lampHouse (s := { s with pu := s.pu.serve }) h)
      · exact h
  unfold State.beforeHost
  dsimp only
  split
  · exact (lampHouse_kickReports _).mpr held
  · exact h

theorem hostWrite_lampHouse (a : Address) (b : Byte) (gap : Bool) : LampHouse (s.hostWrite a b gap) := by
  unfold State.hostWrite
  refine run_lampHouse (snoop_lampHouse ?_ a b)
  exact beforeHost_lampHouse h

/-! ### The other commands' acts -/

theorem acceptFrame_lampHouse (key : BitVec 5) (toggle : Bool) : LampHouse (s.acceptFrame key toggle) := by
  rcases s.acceptFrame_cases key toggle with ⟨-, e⟩ | ⟨_, -, ⟨-, -, e⟩ | ⟨-, e⟩⟩ <;> rw [e]
  · exact press_lampHouse h key toggle
  · simpa using h
  · exact press_lampHouse (carry_lampHouse (releaseKey_lampHouse h)) key toggle

theorem completeFrame_lampHouse : LampHouse s.completeFrame := by
  unfold State.completeFrame
  split
  · exact h
  · split
    · dsimp only
      have done : LampHouse (s.putRr (s.rr.frameDone, [])) := by simpa using h
      split
      · exact acceptFrame_lampHouse done _ _
      · exact done
    · simpa using h

theorem takeReport_lampHouse : LampHouse s.takeReport := by
  unfold State.takeReport
  split
  · exact (lampHouse_putTmc _ _).mpr ⟨⟨h.1.output, h.1.limits, h.1.failed⟩, h.2⟩
  · exact h

theorem heatUpdate_lampHouse : LampHouse (if s.lc.heatPhase.due then s.putLc (s.lc.heatUpdate s.fc.speed) else s) := by
  split
  · exact putLc_lampHouse h (Lc.heatUpdate_housed h.1 _)
  · exact h

theorem windowEnd_lampHouse : LampHouse (if s.fc.windowPhase.due then s.putFc (s.fc.windowEnd s.lc.lampActive) else s) := by
  split
  · exact putFc_lampHouse h (Fc.windowEnd_fan h.2 _) (Fc.windowEnd_coolDone _ _)
  · exact h

theorem tick_lampHouse (sensors : Sensors) : LampHouse (s.tick sensors) :=
  ⟨Lc.tick_housed h.1, Fc.tick_fan h.2⟩

end

/-! ### Every command -/

section

variable {s t : State}

theorem perform_lampHouse {f : State → State} (act : LampHouse (f s)) (ends : perform f s = .next t) : LampHouse t := by
  obtain rfl : s.run f = t := Host.Outcome.next.inj ends
  exact run_lampHouse act

theorem performReset_lampHouse {f : State → State} (act : LampHouse (f s)) (ends : performReset f s = .next t) :
    LampHouse t := by
  obtain rfl : s.carry f = t := Host.Outcome.next.inj ends
  exact carry_lampHouse act

theorem hostWriteAt_lampHouse (h : LampHouse s) {offset : Nat} {b : Byte} {gap : Bool}
    (ends : (.next (s.hostWriteAt offset b gap) : Host.Outcome State Fault Refusal) = .next t) : LampHouse t := by
  obtain rfl := Host.Outcome.next.inj ends
  exact hostWrite_lampHouse h _ _ _

/-- Every command leaves a sound lamp house. -/
theorem exec_lampHouse (h : LampHouse s) {c : Instr} (ends : exec c s = .next t) : LampHouse t := by
  cases row : rowAct c with
  | some owner =>
    obtain ⟨code, -, e⟩ := exec_row row
    rw [e] at ends
    exact perform_lampHouse (takeRow_lampHouse h code fun _ k => rowAct_lampHouse k row) ends
  | none =>
    cases c
    case powerOnReset pins => exact performReset_lampHouse (powerOn_lampHouse pins) ends
    case hostWrite => exact Host.Outcome.next.inj ends ▸ hostWrite_lampHouse h _ _ _
    case hostRead => exact Host.Outcome.next.inj ends ▸ (lampHouse_settle _).mpr (beforeHost_lampHouse h)
    case leadByte | unknownCode | operandByte | ridxWrite | curveWrite | keyMapWrite => exact hostWriteAt_lampHouse h ends
    case cueStoreWrite =>
      simp only [exec, execCueStoreWrite] at ends
      split at ends
      · exact hostWriteAt_lampHouse h ends
      · exact absurd ends nofun
    case ownCycleComplete => exact perform_lampHouse (completeOwn_lampHouse h) ends
    case partReset =>
      refine performReset_lampHouse ?_ ends
      unfold State.resetRow
      split
      · exact h
      · exact partReset_lampHouse (abandon_lampHouse h)
    case resetAsserted => exact performReset_lampHouse (f := fun k => { k with pu := k.pu.hold }) h ends
    case lampUpdate => exact perform_lampHouse (putLc_lampHouse h (Lc.timedUpdate_housed h.1)) ends
    case fadeComplete => exact perform_lampHouse (putLc_lampHouse h (Lc.completeFade_housed h.1)) ends
    case strikeEnd => exact perform_lampHouse (putLc_lampHouse h (Lc.strikeEnd_housed h.1 _)) ends
    case lcurChange present => exact perform_lampHouse (putLc_lampHouse h (Lc.setCurrent_housed h.1 present)) ends
    case failureWatchExpiry => exact perform_lampHouse (putLc_lampHouse h (Lc.watchExpiry_housed h.1)) ends
    case exchangeMoveEnd => exact perform_lampHouse (putLc_lampHouse h (Lc.moveEnd_housed h.1)) ends
    case heatUpdate => exact perform_lampHouse (heatUpdate_lampHouse h) ends
    case ftachPulse => exact perform_lampHouse (putFc_lampHouse h (Fc.pulse_fan h.2) rfl) ends
    case measurementWindowEnd => exact perform_lampHouse (windowEnd_lampHouse h) ends
    case uptimeTick => exact perform_lampHouse (tick_lampHouse h _) ends
    case blackoutReport => exact perform_lampHouse (takeReport_lampHouse h) ends
    case remoteFrame => exact perform_lampHouse (completeFrame_lampHouse h) ends
    case releaseTimerExpiry => exact perform_lampHouse (releaseExpiry_lampHouse h) ends
    case repeatTimerExpiry => exact perform_lampHouse (repeatExpiry_lampHouse h) ends
    case leaderAllowanceEnd =>
      refine perform_lampHouse ?_ ends
      split
      · simpa using h
      · exact h
    all_goals first
      | exact absurd row (Option.some_ne_none _)
      | exact perform_lampHouse (by simpa using h) ends

end

/-- Settles O55: every command of the queue keeps lamp and fan sound, through the notices that it leads to. -/
theorem lampHouseKept : Obligations.LampHouseKept := by
  intro s _ lamp fan cool t ends
  have h := (lampHouse_iff s).mpr ⟨lamp, fan, cool⟩
  refine (lampHouse_iff t).mp ?_
  unfold step at ends
  split at ends
  · exact Host.Outcome.next.inj ends ▸ h
  · next c rest _ => exact exec_lampHouse (s := { s with pending := rest }) h ends

end Sys2Proof.Machine
end

section
/-! ## The commands of the lamp: what one reaction leaves alone (02) -/

namespace Sys2Proof.Machine

open Sys2Proof.Safety

/-! ### A reaction that the fan need not follow -/

/-- With its group, H and DS standing the lamp alone changes (R61). -/
theorem lampEffect_alone {s t : State} {lc : Lc} {events : List (Event × Half)} (h : LampEffect lc [] events s t)
    (still : Lc.fanNotices s.lc lc = []) : Effect [.lamp] events s t := by
  have follows : fanAfter s lc = (s.fc, []) := if_pos still
  obtain ⟨-, fan, parts, logs⟩ := h
  rw [follows] at fan logs
  refine ⟨fun p hp => ?_, by simpa using logs⟩
  by_cases here : p = .fan
  · subst here
    exact fan
  · exact parts p (by simp at hp ⊢; tauto)

/-- A reaction that leaves the lamp as it was changes nothing. -/
theorem lampEffect_nothing {s t : State} {lc : Lc} {events : List (Event × Half)} (h : LampEffect lc [] events s t)
    (same : lc = s.lc) : Effect [] events s t := by
  subst same
  obtain ⟨parts, logs⟩ := lampEffect_alone h (fanNotices_eq_nil rfl rfl rfl)
  refine ⟨fun p _ => ?_, logs⟩
  by_cases here : p = .lamp
  · subst here
    exact h.1
  · exact parts p (by simpa using here)

/-! ### A lamp update (R35, R42, R44) -/

/-- A command of the lamp that is one reaction with nothing to say. -/
theorem lamp_silent {s : State} (calm : s.notices = []) (lc : Lc) {f : State → State} (act : f s = s.putLc (lc, [])) :
    LampEffect lc [] [] s (s.run f) := putLc_lampEffect s calm (lc, []) rfl f act

theorem Lc.timedUpdate_due {lc : Lc} (due : lc.lampPhase = some 0) : lc.timedUpdate = lc.update :=
  if_pos (by simp [Timer.due, due])

@[simp] theorem Lc.evalFade_heat (lc : Lc) :
    lc.evalFade.state = lc.state ∧ lc.evalFade.h = lc.h ∧ lc.evalFade.derateStart = lc.derateStart := by
  unfold Lc.evalFade
  (repeat' split) <;> exact ⟨rfl, rfl, rfl⟩

/-- A lamp update brings no new group, H or DS to the fan (R61). -/
theorem Lc.update_heat (lc : Lc) : Lc.fanNotices lc lc.update = [] :=
  fanNotices_eq_nil (by simp [Lc.update, Lc.evalStrike]) (by simp [Lc.update, Lc.evalStrike])
    (by simp [Lc.update, Lc.evalStrike])

/-- The lamp updated at its time: nothing else changes and nothing is logged. -/
theorem lampUpdate_effect {s : State} (calm : s.notices = []) (due : s.lc.lampPhase = some 0) :
    ∃ t, exec .lampUpdate s = .next t ∧ t.lc = s.lc.update ∧ Effect [.lamp] [] s t := by
  have effect := lamp_silent calm s.lc.timedUpdate (f := fun k => k.putLc (k.lc.timedUpdate, [])) rfl
  rw [Lc.timedUpdate_due due] at effect
  exact ⟨_, rfl, effect.1, lampEffect_alone effect s.lc.update_heat⟩

/-! ### O14 -/

/-- A lamp in DARKENING toward a level above 1023, with every other term of its output above 1023 too. -/
def overbright : State :=
  { State.reset with lc := { Lc.reset with
      state := .lit, fadeLevel := 2000, ceiling := 3000, derate := 3000, imposition := .cap, capLevel := 3000
      hold := .darkening, holdLevel := some 2000, lampPhase := some 0 } }

/-- Refutes O14: of a lamp update the statement says that the output is the least of its terms afterward, for every
state. Where all terms lie above 1023 the move from DARKENING to HELD lifts the bound 1023 that stood for the hold cap
(R41, R47), so that the output of 1023, computed before the move, is below the least of the terms after it. No such
state is sound: the ceiling is at most 1023 (Safety.Lamphouse). -/
theorem not_lampUpdate : ¬ Obligations.LampUpdate := by
  intro h
  obtain ⟨-, updates, -⟩ := h.2 overbright rfl
  obtain ⟨t, runs, output, -⟩ := updates rfl
  obtain ⟨t', runs', lamp, -⟩ := lampUpdate_effect (s := overbright) rfl rfl
  obtain rfl : t = t' := Host.Outcome.next.inj (runs.symm.trans runs')
  rw [lamp] at output
  exact absurd output (by decide)

/-! ### The fade level (R44) -/

/-- The course value by curve 4 or by the shadow points is a byte's (R44, steps 2 and 3). -/
theorem Lc.course_le (lc : Lc) {f : Fade} (running : f.elapsed < f.duration) : lc.course f ≤ 255 := by
  have position : f.elapsed * 16128 / f.duration < 16128 := by
    rw [Nat.div_lt_iff_lt_mul (by omega), Nat.mul_comm 16128]
    exact Nat.mul_lt_mul_of_pos_right running (by decide)
  have point (j : Nat) : (lc.curves.getD (64 * f.curve + j) 0).toNat ≤ 255 := Nat.le_of_lt_succ (BitVec.isLt _)
  have between {p q w : Nat} (hp : p ≤ 255) (hq : q ≤ 255) (hw : w < 256) : (p * (256 - w) + q * w + 128) / 256 ≤ 255 := by
    have low := Nat.mul_le_mul_right (256 - w) hp
    have high := Nat.mul_le_mul_right w hq
    omega
  unfold Lc.course
  dsimp only
  split
  · omega
  · split
    · exact point 63
    · exact between (point _) (point _) (Nat.mod_lt _ (by decide))

/-- A share of 255 parts, rounded, is at most the whole. -/
theorem share_le {c : Nat} (part : c ≤ 255) (d : Nat) : (2 * d * c + 255) / 510 ≤ d := by
  have whole := Nat.mul_le_mul_left (2 * d) part
  omega

/-- A rising fade stands at its start and the rounded share of its rise (R44, step 4). -/
theorem Lc.fadeValue_rising (lc : Lc) {f : Fade} (rises : f.start ≤ f.target) :
    lc.fadeValue f = f.start + (2 * (f.target - f.start) * lc.course f + 255) / 510 := by
  obtain ⟨d, rise⟩ := Nat.le.dest rises
  have delta : (f.target : Int) - f.start = (d : Int) := by omega
  have share : ((d : Int) * lc.course f).natAbs = d * lc.course f := by rw [← Nat.cast_mul, Int.natAbs_natCast]
  have positive : ¬ ((d : Int) * lc.course f < 0) := not_lt.mpr (by positivity)
  have length : f.target - f.start = d := by omega
  rw [Lc.fadeValue, delta, roundHalfAway, share, if_neg positive, length, Nat.mul_assoc]
  omega

/-- A falling fade stands below its start by the rounded share of its fall (R44, step 4). -/
theorem Lc.fadeValue_falling (lc : Lc) {f : Fade} (falls : f.target < f.start) :
    lc.fadeValue f = f.start - (2 * (f.start - f.target) * lc.course f + 255) / 510 := by
  obtain ⟨d, fall⟩ := Nat.le.dest (Nat.le_of_lt falls)
  have delta : ((f.target : Int) - f.start) * lc.course f = -((d * lc.course f : Nat) : Int) := by
    rw [show (f.target : Int) - f.start = -(d : Int) by omega]
    push_cast
    ring
  have length : f.start - f.target = d := by omega
  rw [Lc.fadeValue, delta, roundHalfAway, Int.natAbs_neg, Int.natAbs_natCast, length, Nat.mul_assoc]
  split
  · omega
  · have nothing : d * lc.course f = 0 := by omega
    omega

/-- The fade level lies between the ends of the fade (R44). -/
theorem Lc.fadeValue_between (lc : Lc) {f : Fade} (running : f.elapsed < f.duration) :
    min f.start f.target ≤ lc.fadeValue f ∧ lc.fadeValue f ≤ max f.start f.target := by
  have part := lc.course_le running
  rcases Nat.lt_or_ge f.target f.start with falls | rises
  · have share := share_le part (f.start - f.target)
    rw [Lc.fadeValue_falling lc falls]
    omega
  · have share := share_le part (f.target - f.start)
    rw [Lc.fadeValue_rising lc rises]
    omega

/-- A fade whose time has run ends at its target (R42). -/
theorem Lc.update_completes {lc : Lc} {f : Fade} (fade : lc.fade = some f) (done : f.duration ≤ f.elapsed) :
    lc.update.fadeLevel = f.target ∧ lc.update.fade = none := by
  have complete : f.complete = true := by simp [Fade.complete, done]
  simp [Lc.update, Lc.evalStrike, Lc.evalFade, fade, complete]

/-- A fade that runs on stands at its value (R44). -/
theorem Lc.update_fades {lc : Lc} {f : Fade} (fade : lc.fade = some f) (running : f.elapsed < f.duration) :
    lc.update.fadeLevel = lc.fadeValue f ∧ lc.update.fade = some f := by
  have runs : f.complete = false := by simp [Fade.complete]; omega
  simp [Lc.update, Lc.evalStrike, Lc.evalFade, fade, runs]
  rfl

/-- Settles O15: a fade that has completed stands at its target, and one that runs on at its rounded share of the way. -/
theorem fadeLevel : Obligations.FadeLevel := by
  intro f s calm due fade
  obtain ⟨t, runs, lamp, effect⟩ := lampUpdate_effect calm due
  refine ⟨t, runs, effect, ?_⟩
  rw [lamp]
  rcases Nat.lt_or_ge f.elapsed f.duration with running | done
  · obtain ⟨level, still⟩ := Lc.update_fades fade running
    obtain ⟨low, high⟩ := s.lc.fadeValue_between running
    rw [level, still]
    refine ⟨low, high, fun done => absurd done (Nat.not_le.mpr running), ?_⟩
    rintro - u rfl point rfl c rfl
    refine ⟨rfl, ?_⟩
    split
    · next rises => exact s.lc.fadeValue_rising rises
    · next falls => exact s.lc.fadeValue_falling (Nat.not_le.mp falls)
  · obtain ⟨level, ended⟩ := Lc.update_completes fade done
    rw [level, ended]
    exact ⟨Nat.min_le_right _ _, Nat.le_max_right _ _, fun _ => ⟨rfl, rfl⟩,
      fun running => absurd done (Nat.not_le.mpr running)⟩

end Sys2Proof.Machine
end

section
/-! ## The directives of the lamp (02) -/

namespace Sys2Proof.Machine

open Sys2Proof.Safety

/-! ### A directive that is one reaction of the lamp -/

/-- A directive whose owner leaves the lamp as it was is answered, and nothing else changes. -/
theorem answeredLamp_nothing {s t : State} {code : Byte} {result : Result} {lc : Lc} {events : List (Event × Half)}
    (h : AnsweredLamp code result lc events s t) (same : lc = s.lc) : Answered code result [] events s t := by
  subst same
  have follows : fanAfter s s.lc = (s.fc, []) := if_pos (fanNotices_eq_nil rfl rfl rfl)
  obtain ⟨lamp, fan, idle, code, result, taken, parts, logs⟩ := h
  rw [follows] at fan logs
  refine ⟨idle, code, result, taken, fun p hp => ?_, by simpa using logs⟩
  by_cases lamp_or_fan : p = .lamp ∨ p = .fan
  · rcases lamp_or_fan with rfl | rfl
    · exact lamp
    · exact fan
  · exact parts p (by simp at hp ⊢; tauto)

/-- A directive of the lamp, taken as a row. -/
theorem row_answeredLamp {s : State} (ready : Ready s) {code : Byte} {owner : State → State × Result} {result : Result}
    {r : Reaction Lc} (quiet : queuedOf r.2 = []) (act : ∀ k : State, SameBlocks s k → owner k = (k.putLc r, result)) :
    AnsweredLamp code result r.1 (loggedOf r.2) s (s.run (State.takeRow code owner)) := answered_lamp ready quiet act

/-! ### LAMP_ON (R32) -/

section

variable {lc : Lc}

theorem Lc.good_active (lc : Lc) : lc.good lc.active = if lc.active = .a then lc.goodA else lc.goodB := by
  cases h : lc.active <;> simp [Lc.good]

theorem Lamp.other_eq (lamp : Lamp) : lamp.other = if lamp = .a then .b else .a := by cases lamp <;> rfl

theorem Lc.strikeOrWait_quiet (lc : Lc) : queuedOf lc.strikeOrWait.2 = [] := by
  unfold Lc.strikeOrWait
  split <;> rfl

theorem Lc.on_quiet (lc : Lc) : queuedOf lc.on.1.2 = [] := by
  unfold Lc.on
  (repeat' split) <;> first | rfl | exact lc.strikeOrWait_quiet

theorem Lc.on_refused (refused : lc.imposition = .off ∨ lc.state = .failed) : lc.on = ((lc, []), .refusedState) := by
  unfold Lc.on
  by_cases imposed : lc.imposition = .off
  · rw [if_pos imposed]
  · rw [if_neg imposed, refused.resolve_left imposed]

variable (free : lc.imposition ≠ .off)

include free

theorem Lc.on_good (off : lc.state = .off) (good : lc.good lc.active = true) : lc.on = (lc.strikeOrWait, .done) := by
  simp [Lc.on, free, off, good]

theorem Lc.on_bad (off : lc.state = .off) (bad : lc.good lc.active = false) :
    lc.on = ((lc.enterExchange true, []), .done) := by
  simp [Lc.on, free, off, bad]

theorem Lc.on_moving (moving : lc.state = .exchange) :
    lc.on = (({ lc with restrike := true, moveCleared := false }, []), .done) := by
  simp [Lc.on, free, moving]

theorem Lc.on_already (on : lc.state = .waitCool ∨ lc.state = .striking ∨ lc.state = .lit) : lc.on = ((lc, []), .done) := by
  rcases on with on | on | on <;> simp [Lc.on, free, on]

end

theorem Lc.strikeOrWait_cool {lc : Lc} (cool : lc.h ≤ lc.restrikeMax) :
    lc.strikeOrWait = (lc.enterStriking, []) := if_pos cool

theorem Lc.strikeOrWait_hot {lc : Lc} (hot : lc.restrikeMax < lc.h) :
    lc.strikeOrWait = (Lc.recompute { lc with state := .waitCool }, [.log .strikeDeferred (halfOf lc.h)]) :=
  if_neg (Nat.not_le.mpr hot)

/-- LAMP_ON is the lamp's answer to it, and the fan follows. -/
theorem lampOn_answered {s : State} (ready : Ready s) {r : Reaction Lc} {result : Result} (on : s.lc.on = (r, result)) :
    AnsweredLamp 0x20 result r.1 (loggedOf r.2) s (s.run (State.takeRow 0x20 dirLampOn)) :=
  row_answeredLamp ready (by simpa [on] using s.lc.on_quiet) fun k same => by rw [dirLampOn, same.lc, on]

/-! ### LAMP_OFF (R33) -/

theorem Lc.off_quiet (lc : Lc) : queuedOf lc.off.2 = [] := by
  unfold Lc.off
  split <;> rfl

/-- LAMP_OFF is the lamp's answer to it, and the fan follows. -/
theorem lampOff_answered {s : State} (ready : Ready s) :
    AnsweredLamp 0x21 .done s.lc.off.1 (loggedOf s.lc.off.2) s (s.run (State.takeRow 0x21 dirLampOff)) :=
  row_answeredLamp ready s.lc.off_quiet fun k same => by rw [dirLampOff, same.lc]

/-! ### O11 -/

/-- Settles O11, lamp state by lamp state. -/
theorem lampSwitched : Obligations.LampSwitched := by
  refine ⟨fun s ready good active => ?_, fun s ready => ?_⟩
  · rw [← Lc.good_active] at active
    subst active
    refine ⟨_, rfl, fun refused => ?_, fun free off good cool => ?_, fun free off good hot => ?_, fun free off bad => ?_,
      fun free moving => ?_, fun free on => ?_⟩
    · exact answeredLamp_nothing (lampOn_answered ready (Lc.on_refused refused)) rfl
    · exact lampOn_answered ready ((Lc.on_good free off good).trans (by rw [Lc.strikeOrWait_cool cool]))
    · exact lampOn_answered ready ((Lc.on_good free off good).trans (by rw [Lc.strikeOrWait_hot hot]))
    · rw [← Lamp.other_eq]
      exact lampOn_answered ready (Lc.on_bad free off bad)
    · exact lampOn_answered ready (Lc.on_moving free moving)
    · exact lampOn_answered ready (Lc.on_already free on)
  · have answered := lampOff_answered ready
    refine ⟨_, rfl, fun burns => ?_, fun moving => ?_, fun out => ?_⟩
    · have off : s.lc.off = s.lc.enterOff 0 := by rcases burns with burns | burns | burns <;> simp [Lc.off, burns]
      rw [off] at answered
      exact answered
    · have off : s.lc.off = (s.lc.clearIntent, []) := by simp [Lc.off, moving]
      rw [off] at answered
      exact answered
    · have off : s.lc.off = (s.lc, []) := by rcases out with out | out <;> simp [Lc.off, out]
      rw [off] at answered
      exact answeredLamp_nothing answered rfl

/-! ### LAMP_FADE, LAMP_CEILING and LAMP_SPARE (R39, R40, R43) -/

/-- An order to a lamp that is LIT with no hold starts its fade; one to a lamp that strikes or is held is stored, and one in
any other state sets the show level alone (R43). -/
theorem Lc.order_starts {lc : Lc} (lit : lc.state = .lit) (free : lc.hold = .none) (level curve duration : Nat) :
    lc.order true level curve duration = Lc.recompute { lc with
      showLevel := level, stored := none, fadeLevel := lc.output, fade := some ⟨lc.output, level, curve, duration, 0⟩ } := by
  simp [Lc.order, lit, free, Lc.startFade]

theorem Lc.order_stores {lc : Lc} (waits : lc.state = .lit ∧ lc.hold ≠ .none ∨ lc.state = .striking)
    (level curve duration : Nat) :
    lc.order true level curve duration = { lc with showLevel := level, stored := some ⟨level, curve, duration⟩ } := by
  rcases waits with ⟨lit, held⟩ | striking
  · simp [Lc.order, lit, held]
  · simp [Lc.order, striking]

theorem Lc.order_shows {lc : Lc} (lit : lc.state ≠ .lit) (striking : lc.state ≠ .striking) (level curve duration : Nat) :
    lc.order true level curve duration = { lc with showLevel := level } := by
  unfold Lc.order
  dsimp only
  split <;> first | contradiction | rfl

/-- The output lies at or below the ceiling (R40, R41). -/
theorem Lc.computedOutput_le_ceiling (lc : Lc) : lc.computedOutput ≤ lc.ceiling := by
  unfold Lc.computedOutput
  split
  · omega
  · exact Nat.zero_le _

/-- LAMP_SPARE by lamp state and by the lamp chosen (R39). -/
theorem Lc.spare_refused {lc : Lc} (off : lc.state ≠ .off) (failed : lc.state ≠ .failed) (a b : Bool) (chosen : Lamp) :
    lc.spare a b chosen = (lc, .refusedState) := if_neg (not_or.mpr ⟨off, failed⟩)

theorem Lc.spare_same {lc : Lc} (out : lc.state = .off ∨ lc.state = .failed) {chosen : Lamp} (same : chosen = lc.active)
    (a b : Bool) : lc.spare a b chosen = (Lc.recompute { lc with
      goodA := a, goodB := b, state := if a = true ∨ b = true then .off else .failed }, .done) := by
  simp [Lc.spare, out, same, Lc.anyGood]

theorem Lc.spare_other {lc : Lc} (out : lc.state = .off ∨ lc.state = .failed) {chosen : Lamp} (other : chosen ≠ lc.active)
    (a b : Bool) : lc.spare a b chosen = (Lc.recompute { lc with
      goodA := a, goodB := b, state := .exchange, active := chosen, restrike := false, moveCleared := false
      moveTimer := some 1500, strike := none, fade := none }, .done) := by
  have turned : lc.active.other = chosen := by revert other; cases lc.active <;> cases chosen <;> simp [Lamp.other]
  simp [Lc.spare, out, other, Lc.enterExchange, turned]

/-- LAMP_FADE is the lamp's answer to it. -/
theorem lampFade_answered {s : State} (ready : Ready s) {lo hi curve time : Byte} {lc : Lc} {result : Result}
    (taken : s.lc.fadeDirective (word16 lo hi) curve.toNat time.toNat = (lc, result)) :
    AnsweredLamp 0x22 result lc [] s (s.run (State.takeRow 0x22 (dirLampFade lo hi curve time))) :=
  row_answeredLamp ready (r := (lc, [])) rfl fun k same => by rw [dirLampFade, same.lc, taken]

/-- LAMP_CEILING is the lamp's answer to it. -/
theorem lampCeiling_answered {s : State} (ready : Ready s) (lo hi : Byte) :
    AnsweredLamp 0x23 (s.lc.setCeiling (word16 lo hi)).2 (s.lc.setCeiling (word16 lo hi)).1 [] s
      (s.run (State.takeRow 0x23 (dirLampCeiling lo hi))) :=
  row_answeredLamp ready (r := (_, [])) rfl fun k same => by rw [dirLampCeiling, same.lc]

/-- LAMP_SPARE is the lamp's answer to it. -/
theorem lampSpare_answered {s : State} (ready : Ready s) {lamps : Byte} {lc : Lc} {result : Result}
    (taken : s.lc.spare (bitOf lamps 0) (bitOf lamps 1) (if bitOf lamps 2 then .b else .a) = (lc, result)) :
    AnsweredLamp 0x24 result lc [] s (s.run (State.takeRow 0x24 (dirLampSpare lamps))) :=
  row_answeredLamp ready (r := (lc, [])) rfl fun k same => by rw [dirLampSpare, same.lc, taken]

/-- Settles O12, directive by directive. -/
theorem lampLevels : Obligations.LampLevels := by
  refine ⟨fun lo hi curve time s ready asked hasked level hlevel result hresult => ?_,
    fun lo hi s ready asked hasked => ?_, fun lamps s ready a ha b hb chosen hchosen => ?_⟩
  · obtain rfl : asked = word16 lo hi := hasked
    subst hlevel hresult
    have ordered {lc : Lc} (allowed : curve.toNat ≤ 4)
        (order : s.lc.order true (min (word16 lo hi) 1023) curve.toNat (time.toNat * 20) = lc) :
        s.lc.fadeDirective (word16 lo hi) curve.toNat time.toNat = (lc, if 1023 < word16 lo hi then .clamped else .done) :=
      (if_neg (Nat.not_lt.mpr allowed)).trans (by rw [order])
    exact ⟨_, rfl, fun bad => answeredLamp_nothing (lampFade_answered ready (if_pos bad)) rfl,
      fun allowed lit free => lampFade_answered ready (ordered allowed (Lc.order_starts lit free _ _ _)),
      fun allowed waits => lampFade_answered ready (ordered allowed (Lc.order_stores waits _ _ _)),
      fun allowed lit striking => lampFade_answered ready (ordered allowed (Lc.order_shows lit striking _ _ _))⟩
  · obtain rfl : asked = word16 lo hi := hasked
    have answered := lampCeiling_answered ready lo hi
    refine ⟨_, rfl, answered, ?_⟩
    rw [answered.1]
    exact (Lc.recompute_output _).trans_le (Lc.computedOutput_le_ceiling _)
  · subst ha hb hchosen
    exact ⟨_, rfl, fun off failed => answeredLamp_nothing (lampSpare_answered ready (Lc.spare_refused off failed _ _ _)) rfl,
      fun out same => lampSpare_answered ready (Lc.spare_same out same _ _),
      fun out other => lampSpare_answered ready (Lc.spare_other out other _ _)⟩

end Sys2Proof.Machine
end

section
/-! ## The end of a strike, the failure watch and the changer move (02) -/

namespace Sys2Proof.Machine

open Sys2Proof.Safety

/-! ### The output computed afresh -/

@[simp] theorem Lc.recompute_strike (lc : Lc) : lc.recompute.strike = lc.strike := by
  simp only [Lc.recompute, Lc.rewatch, Lc.checkDark]; split <;> rfl

@[simp] theorem Lc.recompute_heldRelease (lc : Lc) : lc.recompute.heldRelease = lc.heldRelease := by
  simp only [Lc.recompute, Lc.rewatch, Lc.checkDark]; split <;> rfl

@[simp] theorem Lc.recompute_capLingers (lc : Lc) : lc.recompute.capLingers = lc.capLingers := by
  simp only [Lc.recompute, Lc.rewatch, Lc.checkDark]; split <;> rfl

/-- A darkening that goes on is toward a level below 1023: no output that a hold does not cap yet is above that (R41, R47). -/
theorem Lc.recompute_darkening {lc : Lc} (darkens : lc.recompute.hold = .darkening) : lc.holdLevel.getD 1023 < 1023 := by
  by_cases dark : lc.hold = .darkening ∧ lc.computedOutput ≤ lc.holdLevel.getD 1023
  · simp [Lc.recompute, Lc.rewatch, Lc.checkDark, dark] at darkens
  · have standing : lc.hold = .darkening := by simpa [Lc.recompute, Lc.rewatch, Lc.checkDark, dark] using darkens
    have uncapped : lc.computedOutput ≤ 1023 := by
      simp only [Lc.computedOutput, Lc.holdCap, standing, reduceCtorEq, if_false]
      split <;> omega
    have above : lc.holdLevel.getD 1023 < lc.computedOutput := Nat.not_le.mp fun low => dark ⟨standing, low⟩
    omega

/-- The output is the least of its terms after the move to HELD too, if the recorded level is at most 1023 (R41, R47). -/
theorem Lc.recompute_settled {lc : Lc} (level : lc.hold = .darkening → lc.holdLevel.getD 1023 ≤ 1023) :
    lc.recompute.output = lc.recompute.computedOutput := by
  rw [Lc.recompute_output]
  simp only [Lc.recompute, Lc.rewatch, Lc.checkDark]
  split
  · next dark =>
    obtain ⟨darkening, low⟩ := dark
    have bounded := level darkening
    simp only [Lc.computedOutput, Lc.drive, Lc.holdCap, Lc.cutoffCap, darkening, reduceCtorEq, if_false, if_true] at low ⊢
    split
    · next burns => rw [if_pos burns] at low; omega
    · rfl
  · rfl

/-- The lamp dark: its output is 0, no watch runs, and a darkening has reached its level (R36, R41, R47). -/
def Lc.out (lc : Lc) : Lc :=
  { lc with output := 0, hold := if lc.hold = .darkening then .held else lc.hold
            report := decide (lc.hold = .darkening) || lc.report, failureWatch := none }

theorem Lc.recompute_out {lc : Lc} (dark : ¬ (lc.state = .lit ∨ lc.state = .striking)) : lc.recompute = lc.out := by
  have unlit : (lc.state == .lit) = false := by simp at dark ⊢; exact dark.1
  by_cases darkens : lc.hold = .darkening <;>
    simp [Lc.recompute, Lc.rewatch, Lc.watched, Lc.checkDark, Lc.computedOutput_dark dark, Lc.out, darkens, unlit]

/-! ### A failure (R37) -/

section

variable {lc : Lc}

/-- Whether the other lamp is good does not change as the failed one is marked bad. -/
theorem Lc.marked_other (lc : Lc) : lc.marked.good lc.active.other = if lc.active = .a then lc.goodB else lc.goodA := by
  cases active : lc.active <;> simp [Lc.marked, Lc.good, Lamp.other, active]

/-- A failure with the other lamp good: the move toward it, with the restrike intent unless OFF is imposed (R37, R38, R51). -/
theorem Lc.fail_moves (good : lc.marked.good lc.active.other = true) : lc.fail.1 = { lc.marked.out with
    state := .exchange, active := lc.active.other, restrike := decide (lc.imposition ≠ .off)
    moveCleared := decide (lc.imposition = .off), moveTimer := some 1500 } := by
  rw [Lc.fail_exchange good, Lc.enterExchange, Lc.recompute_out (by simp)]
  by_cases imposed : lc.imposition = .off <;> simp [imposed, Lc.clearIntent, Lc.out, Lc.marked]

/-- A failure with no other lamp good (R37). -/
theorem Lc.fail_ends (bad : lc.marked.good lc.active.other = false) :
    lc.fail.1 = { lc.marked.out with state := .failed, stored := none } := by
  rw [Lc.fail_failed bad, Lc.recompute_out (by simp)]
  rfl

/-- What every failure leaves: no output and no held-over release, a hold that only a darkening moves, and the lamp that
failed marked bad. -/
theorem Lc.fail_leaves (lc : Lc) :
    lc.fail.1.output = 0 ∧ lc.fail.1.heldRelease = none ∧
      lc.fail.1.hold = (if lc.hold = .darkening then .held else lc.hold) ∧ lc.fail.1.holdLevel = lc.holdLevel ∧
      (lc.active = .a → lc.fail.1.goodA = false ∧ lc.fail.1.goodB = lc.goodB) ∧
      (lc.active = .b → lc.fail.1.goodB = false ∧ lc.fail.1.goodA = lc.goodA) ∧
      (lc.fail.1.state = .exchange ∨ lc.fail.1.state = .failed) := by
  have goods : (lc.active = .a → lc.marked.goodA = false ∧ lc.marked.goodB = lc.goodB) ∧
      (lc.active = .b → lc.marked.goodB = false ∧ lc.marked.goodA = lc.goodA) := by
    constructor <;> intro active <;> simp [Lc.marked, active]
  cases other : lc.marked.good lc.active.other with
  | true => rw [Lc.fail_moves other]; exact ⟨rfl, rfl, rfl, rfl, goods.1, goods.2, .inl rfl⟩
  | false => rw [Lc.fail_ends other]; exact ⟨rfl, rfl, rfl, rfl, goods.1, goods.2, .inr rfl⟩

theorem Lamp.half_eq (lamp : Lamp) : halfOf lamp.number = if lamp = .a then 0 else 1 := by cases lamp <;> rfl

/-- A failure hands over LAMP_FAIL alone (R37). -/
theorem Lc.fail_notices (lc : Lc) : lc.fail.2 = [.log .lampFail (if lc.active = .a then 0 else 1)] := by
  rw [← Lamp.half_eq]
  unfold Lc.fail
  dsimp only
  split <;> rfl

/-! ### Entry to LIT (R35, R50, R51) -/

/-- What takes effect at entry to LIT keeps the hold or ends it. -/
theorem Lc.litFade_hold (inTime : Nat) (darkens : (lc.litFade inTime).hold = .darkening) :
    lc.hold = .darkening ∧ (lc.litFade inTime).holdLevel = lc.holdLevel := by
  unfold Lc.litFade Lc.returnFade at darkens ⊢
  (repeat' split) <;> simp_all [Lc.endHold, Lc.startFade]

theorem Lc.litFade_strike (inTime : Nat) : (lc.litFade inTime).strike = lc.strike := by
  unfold Lc.litFade Lc.returnFade
  (repeat' split) <;> rfl

/-- At entry to LIT the strike is over and the output is the least of its terms (R35, R41). -/
theorem Lc.enterLit_leaves (lc : Lc) (target inTime : Nat) :
    (lc.enterLit target inTime).state = .lit ∧ (lc.enterLit target inTime).strike = none ∧
      (lc.enterLit target inTime).output = (lc.enterLit target inTime).computedOutput ∧
      (lc.enterLit target inTime).capLingers = false := by
  obtain ⟨-, state⟩ := (lc.litAt target).litFade_keeps inTime
  rw [Lc.enterLit_eq]
  refine ⟨?_, ?_, Lc.recompute_settled fun darkens => ?_, by simp⟩
  · exact (Lc.recompute_state _).trans (state.trans (Lc.recompute_state _))
  · simp [Lc.litFade_strike, Lc.litAt]
  · obtain ⟨here, level⟩ := Lc.litFade_hold inTime darkens
    have below := Lc.recompute_darkening here
    dsimp only at level ⊢
    rw [level, Lc.litAt, Lc.recompute_holdLevel]
    exact Nat.le_of_lt below

/-- A stored fade starts at entry to LIT, with no hold in force and no release held over (R35). -/
theorem Lc.enterLit_stored (released : lc.heldRelease = none) (free : lc.hold = .none) {f : StoredFade}
    (stored : lc.stored = some f) (target inTime : Nat) :
    (lc.enterLit target inTime).fade =
        some ⟨(lc.enterLit target inTime).fadeLevel, f.target, f.curve, f.duration, 0⟩ ∧
      (lc.enterLit target inTime).stored = none := by
  have unheld : (lc.litAt target).hold = .none := (Lc.recompute_unheld _).mpr free
  have starts : (lc.litAt target).litFade inTime =
      { (lc.litAt target).startFade f.target f.curve f.duration with stored := none } := by
    have kept : (lc.litAt target).heldRelease = none ∧ (lc.litAt target).stored = some f := by
      simp [Lc.litAt, released, stored]
    simp only [Lc.litFade, kept, unheld, if_true]
  rw [Lc.enterLit_eq, starts]
  simp [Lc.startFade]

/-- With nothing held over, stored or lingering the lamp stays at the strike target (R35). -/
theorem Lc.enterLit_plain (released : lc.heldRelease = none) (stored : lc.stored = none) (lifted : lc.capLingers = false)
    (target inTime : Nat) :
    (lc.enterLit target inTime).fadeLevel = target ∧ (lc.enterLit target inTime).fade = lc.fade := by
  have plain : (lc.litAt target).litFade inTime = lc.litAt target := by
    have kept : (lc.litAt target).heldRelease = none ∧ (lc.litAt target).stored = none ∧
        (lc.litAt target).capLingers = false := by
      simp [Lc.litAt, released, stored, lifted]
    simp [Lc.litFade, kept]
  rw [Lc.enterLit_eq, plain]
  simp [Lc.litAt]

/-- A lamp that strikes was active for the fan already (R61). -/
theorem Lc.enterLit_fan (striking : lc.state = .striking) (target inTime : Nat) :
    Lc.fanNotices lc (lc.enterLit target inTime) = [] := by
  obtain ⟨lit, -⟩ := lc.enterLit_leaves target inTime
  obtain ⟨limits, -⟩ := (lc.litAt target).litFade_keeps inTime
  have same : (lc.enterLit target inTime).limits = lc.limits := by
    rw [Lc.enterLit_eq, Lc.recompute_limits]
    exact limits.trans (Lc.recompute_limits _)
  have h : (lc.enterLit target inTime).h = lc.h := congrArg Lc.Limits.h same
  have ds : (lc.enterLit target inTime).derateStart = lc.derateStart := congrArg Lc.Limits.derateStart same
  simp [Lc.fanNotices, Lc.lampActive, striking, lit, h, ds]

end

/-! ### The commands -/

section

variable {s : State} (calm : s.notices = [])

include calm

/-- A failure, as whichever command brings it (R35, R36, R37). -/
theorem fail_effect {f : State → State} (act : f s = s.putLc s.lc.fail) :
    LampEffect s.lc.fail.1 [] [(.lampFail, if s.lc.active = .a then 0 else 1)] s (s.run f) := by
  have effect := putLc_lampEffect s calm s.lc.fail (by rw [Lc.fail_notices]; rfl) f act
  rwa [Lc.fail_notices] at effect

/-- A strike that is not over goes on (assumption log 5). -/
theorem strikeEnd_early {k : Strike} (striking : s.lc.state = .striking) (strike : s.lc.strike = some k)
    (early : k.elapsed < 600) : ∃ t, exec .strikeEnd s = .next t ∧ Effect [] [] s t := by
  have stands : s.lc.strikeEnd s.tmc.inTime = (s.lc, []) := by simp [Lc.strikeEnd, striking, strike, early]
  have effect := lamp_silent calm s.lc (f := fun k => k.putLc (k.lc.strikeEnd k.tmc.inTime)) (congrArg s.putLc stands)
  exact ⟨_, rfl, lampEffect_nothing effect rfl⟩

/-- A strike that LCUR ends well lights the lamp (R35). -/
theorem strikeEnd_lights {k : Strike} (striking : s.lc.state = .striking) (strike : s.lc.strike = some k)
    (due : 600 ≤ k.elapsed) (current : s.lc.lcur = true) :
    ∃ t, exec .strikeEnd s = .next t ∧ t.lc = s.lc.enterLit k.target s.tmc.inTime ∧
      Effect [.lamp] [(.lampLit, if s.lc.active = .a then 0 else 1)] s t := by
  have lights : s.lc.strikeEnd s.tmc.inTime =
      (s.lc.enterLit k.target s.tmc.inTime, [.log .lampLit (if s.lc.active = .a then 0 else 1)]) := by
    simp [Lc.strikeEnd, striking, strike, Nat.not_lt.mpr due, current, Lamp.half_eq]
  have effect := putLc_lampEffect s calm
    (s.lc.enterLit k.target s.tmc.inTime, [.log .lampLit (if s.lc.active = .a then 0 else 1)])
    rfl (fun k => k.putLc (k.lc.strikeEnd k.tmc.inTime)) (congrArg s.putLc lights)
  exact ⟨_, rfl, effect.1, lampEffect_alone effect (Lc.enterLit_fan striking _ _)⟩

/-- A strike without LCUR at its end fails (R35, R37). -/
theorem strikeEnd_fails {k : Strike} (striking : s.lc.state = .striking) (strike : s.lc.strike = some k)
    (due : 600 ≤ k.elapsed) (current : s.lc.lcur = false) :
    ∃ t, exec .strikeEnd s = .next t ∧
      LampEffect s.lc.fail.1 [] [(.lampFail, if s.lc.active = .a then 0 else 1)] s t := by
  have fails : s.lc.strikeEnd s.tmc.inTime = s.lc.fail := by
    simp [Lc.strikeEnd, striking, strike, Nat.not_lt.mpr due, current]
  exact ⟨_, rfl, fail_effect calm (f := fun k => k.putLc (k.lc.strikeEnd k.tmc.inTime)) (congrArg s.putLc fails)⟩

/-- LCUR starts or cancels the failure watch and reaches nothing else (R36). -/
theorem lcurChange_effect (present : Bool) :
    ∃ t, exec (.lcurChange present) s = .next t ∧ t.lc = s.lc.setCurrent present ∧ Effect [.lamp] [] s t := by
  have effect := lamp_silent calm (s.lc.setCurrent present) (f := fun k => k.putLc (k.lc.setCurrent present, [])) rfl
  exact ⟨_, rfl, effect.1, lampEffect_alone effect (fanNotices_eq_nil rfl rfl rfl)⟩

/-- The failure watch acts when it has run out (R36; assumption log 5). -/
theorem watchExpiry_early (runs : s.lc.failureWatch ≠ some 0) :
    ∃ t, exec .failureWatchExpiry s = .next t ∧ Effect [] [] s t := by
  have stands : s.lc.watchExpiry = (s.lc, []) := if_neg (by simpa [Timer.due] using runs)
  have effect := lamp_silent calm s.lc (f := fun k => k.putLc k.lc.watchExpiry) (congrArg s.putLc stands)
  exact ⟨_, rfl, lampEffect_nothing effect rfl⟩

theorem watchExpiry_fails (due : s.lc.failureWatch = some 0) : ∃ t, exec .failureWatchExpiry s = .next t ∧
    LampEffect s.lc.fail.1 [] [(.lampFail, if s.lc.active = .a then 0 else 1)] s t := by
  have fails : s.lc.watchExpiry = s.lc.fail := if_pos (by simp [Timer.due, due])
  exact ⟨_, rfl, fail_effect calm (f := fun k => k.putLc k.lc.watchExpiry) (congrArg s.putLc fails)⟩

end

/-- The failure watch after a change of LCUR (R36). -/
theorem Lc.setCurrent_eq (lc : Lc) (present : Bool) : lc.setCurrent present = { lc with
    lcur := present, failureWatch := if lc.state = .lit ∧ present = false ∧ 64 < lc.output then
      some (lc.failureWatch.getD 100) else none } := by
  simp [Lc.setCurrent, Lc.rewatch, Lc.watched, and_assoc]

/-- Settles O16: the three ends of a strike, LCUR, and the two ends of the watch. -/
theorem strikeAndWatch : Obligations.StrikeAndWatch := by
  refine ⟨fun s calm k strike striking => ⟨fun early => strikeEnd_early calm striking strike early, fun due current => ?_,
    fun due current => ?_⟩, fun s calm => ⟨fun present => ?_, fun runs => watchExpiry_early calm runs, fun due => ?_⟩⟩
  · obtain ⟨t, runs, lamp, effect⟩ := strikeEnd_lights calm striking strike due current
    obtain ⟨lit, ended, output, lifted⟩ := s.lc.enterLit_leaves k.target s.tmc.inTime
    refine ⟨t, runs, ?_⟩
    rw [lamp]
    exact ⟨lit, ended, output, lifted, fun released free f stored => Lc.enterLit_stored released free stored _ _,
      fun released stored lingers => Lc.enterLit_plain released stored lingers _ _, effect⟩
  · obtain ⟨t, runs, effect⟩ := strikeEnd_fails calm striking strike due current
    obtain ⟨output, released, hold, level, a, b, -⟩ := s.lc.fail_leaves
    have lamp := effect.1
    refine ⟨t, runs, ?_⟩
    rw [lamp]
    refine ⟨output, released, hold, level, a, b, ?_⟩
    rintro spare rfl
    rw [← Lc.marked_other]
    refine ⟨fun good => ?_, fun bad => ?_, effect⟩
    · rw [Lc.fail_moves good]
      exact ⟨rfl, by cases s.lc.active <;> simp [Lamp.other], rfl, rfl, rfl⟩
    · rw [Lc.fail_ends bad]
      exact ⟨rfl, rfl, rfl⟩
  · obtain ⟨t, runs, lamp, effect⟩ := lcurChange_effect calm present
    exact ⟨t, runs, lamp.trans (s.lc.setCurrent_eq present), effect⟩
  · obtain ⟨t, runs, effect⟩ := watchExpiry_fails calm due
    obtain ⟨output, -, hold, level, a, b, state⟩ := s.lc.fail_leaves
    have lamp := effect.1
    refine ⟨t, runs, ?_⟩
    rw [lamp]
    exact ⟨output, hold, level, fun active => (a active).1, fun active => (b active).1, state, effect⟩

/-! ### The end of the changer move (R38) -/

section

variable {lc : Lc}

/-- The record as the move ends: its timer stopped, the intent and the mark of its clearing gone. -/
def Lc.moved (lc : Lc) : Lc := { lc with moveTimer := none, restrike := false, moveCleared := false }

theorem Lc.moveEnd_early (early : ¬ (lc.state = .exchange ∧ lc.moveTimer = some 0)) : lc.moveEnd = (lc, []) :=
  if_neg (by simpa [Timer.due] using early)

variable (moving : lc.state = .exchange) (due : lc.moveTimer = some 0)

include moving due

theorem Lc.moveEnd_failed (a : lc.goodA = false) (b : lc.goodB = false) :
    lc.moveEnd = (Lc.recompute { lc.moved with state := .failed, stored := none },
      [.log .lampExchanged (halfOf lc.active.number)]) := by
  simp [Lc.moveEnd, moving, Timer.due, due, Lc.anyGood, a, b, Lc.moved]

theorem Lc.moveEnd_strikes (good : lc.goodA = true ∨ lc.goodB = true) (intent : lc.restrike = true) :
    lc.moveEnd = (lc.moved.strikeOrWait.1, .log .lampExchanged (halfOf lc.active.number) :: lc.moved.strikeOrWait.2) := by
  simp [Lc.moveEnd, moving, Timer.due, due, Lc.anyGood, good, intent, Lc.moved]

theorem Lc.moveEnd_off (good : lc.goodA = true ∨ lc.goodB = true) (intent : lc.restrike = false) :
    lc.moveEnd = (Lc.recompute { lc.moved with state := .off, stored := none },
      .log .lampExchanged (halfOf lc.active.number) ::
        if lc.moveCleared then [.log .lampOff (if lc.imposition = .off then 1 else 0)] else []) := by
  simp [Lc.moveEnd, moving, Timer.due, due, Lc.anyGood, good, intent, Lc.moved]

end

/-- Settles O17, by the good flags and the restrike intent. -/
theorem exchangeEnds : Obligations.ExchangeEnds := by
  intro s calm which exchanged
  have number : halfOf s.lc.active.number = which := s.lc.active.half_eq.trans exchanged.symm
  have ends {r : Reaction Lc} (quiet : queuedOf r.2 = []) (end_ : s.lc.moveEnd = r) :
      LampEffect r.1 [] (loggedOf r.2) s (s.run fun k => k.putLc k.lc.moveEnd) :=
    putLc_lampEffect s calm r quiet _ (congrArg s.putLc end_)
  refine ⟨fun early => ⟨_, rfl, lampEffect_nothing (ends rfl (Lc.moveEnd_early early)) rfl⟩, fun moving due => ⟨_, rfl,
    fun a b => ?_, fun good intent cool => ?_, fun good intent hot => ?_, fun good intent => ?_⟩⟩
  · have ended := Lc.moveEnd_failed moving due a b
    rw [number] at ended
    exact ends rfl ended
  · have ended := Lc.moveEnd_strikes moving due good intent
    rw [number, Lc.strikeOrWait_cool (lc := s.lc.moved) cool] at ended
    exact ends rfl ended
  · have ended := Lc.moveEnd_strikes moving due good intent
    rw [number, Lc.strikeOrWait_hot (lc := s.lc.moved) hot] at ended
    exact ends rfl ended
  · have ended := Lc.moveEnd_off moving due good intent
    rw [number] at ended
    cases cleared : s.lc.moveCleared with
    | true => rw [cleared] at ended; exact ends rfl ended
    | false => rw [cleared] at ended; exact ends rfl ended

end Sys2Proof.Machine
end

section
/-! ## The heat estimate: HEAT_UPDATE and HEAT_PROFILE (02)

A new H or a new profile may raise OVERHEAT, and the cutoff that it then enters reaches most blocks. No notice changes
what the lamp estimates or the profile, and after the report of OVERHEAT no notice of the cascade raises a cause. -/

namespace Sys2Proof.Machine

open Sys2Proof.Safety

/-! ### What no notice changes of the lamp -/

/-- The heat estimate with its profile, and what follows from them. -/
structure Lc.Estimate where
  h : Nat
  derate : Nat
  overheat : Bool
  heatPhase : Timer
  lampGain : Nat
  fanGain : Nat
  derateStart : Nat
  overheatLevel : Nat
  restrikeMax : Nat

def Lc.estimate (lc : Lc) : Lc.Estimate :=
  ⟨lc.h, lc.derate, lc.overheat, lc.heatPhase, lc.lampGain, lc.fanGain, lc.derateStart, lc.overheatLevel, lc.restrikeMax⟩

@[simp] theorem Lc.recompute_estimate (lc : Lc) : lc.recompute.estimate = lc.estimate := by
  simp only [Lc.recompute, Lc.rewatch, Lc.checkDark]; split <;> rfl

section

variable (lc : Lc)

theorem Lc.takeDarken_estimate (outTime b : Nat) : (lc.takeDarken outTime b).estimate = lc.estimate := by
  unfold Lc.takeDarken
  dsimp only
  (repeat' split) <;> exact Lc.recompute_estimate _

theorem Lc.takeSnap_estimate : lc.takeSnap.estimate = lc.estimate := by
  unfold Lc.takeSnap
  split
  · exact Lc.recompute_estimate _
  · rfl
  · rfl

theorem Lc.takeRelease_estimate (inTime : Nat) : (lc.takeRelease inTime).estimate = lc.estimate := by
  unfold Lc.takeRelease Lc.returnFade
  split
  · rfl
  · split
    · split <;> exact Lc.recompute_estimate _
    · rfl
    · exact Lc.recompute_estimate _

theorem Lc.impose_estimate (new : LampImposition) (blackout inTime : Nat) :
    (lc.impose new blackout inTime).1.estimate = lc.estimate := by
  unfold Lc.impose Lc.enterOff
  dsimp only
  (repeat' split) <;> first | rfl | exact Lc.recompute_estimate _

theorem Lc.order_estimate (now : Bool) (level curve duration : Nat) :
    (lc.order now level curve duration).estimate = lc.estimate := by
  unfold Lc.order
  dsimp only
  (repeat' split) <;> first | rfl | exact Lc.recompute_estimate _

theorem Lc.checkWait_estimate : lc.checkWait.estimate = lc.estimate := by
  unfold Lc.checkWait
  split
  · exact Lc.recompute_estimate _
  · rfl

end

/-- No notice changes the estimate. -/
theorem handle_estimate (s : State) (n : Notice) : (State.handle n s).lc.estimate = s.lc.estimate := by
  cases n with
  | deposit source kind => exact congrArg Lc.estimate (deposit_arbiterActs s source kind).lc
  | select => exact congrArg Lc.estimate (select_arbiterActs s).lc
  | outcome op result => exact congrArg Lc.estimate (takeOutcome_engineActs s op result).lc
  | deliver source result => exact congrArg Lc.estimate (deliver_engineActs s source result).lc
  | slotEmpty source => exact congrArg Lc.estimate (slotEmptied_engineActs s source).lc
  | terminalCount c => exact congrArg Lc.estimate (terminalCount_engineActs s c).lc
  | fifoJoined => exact congrArg Lc.estimate (lookTape_engineActs s).lc
  | progress => exact congrArg Lc.estimate (progress_engineActs s).lc
  | darken outTime level => simpa [State.handle] using s.lc.takeDarken_estimate outTime level
  | snap => simpa [State.handle] using s.lc.takeSnap_estimate
  | release inTime => simpa [State.handle] using s.lc.takeRelease_estimate inTime
  | lampImposition i => simpa [State.handle] using s.lc.impose_estimate i _ _
  | lampAction now level curve duration => simpa [State.handle] using s.lc.order_estimate now level curve duration
  | _ => simp [State.handle]

/-- A command leaves the estimate as its act leaves it. -/
theorem run_estimate (s : State) (f : State → State) : (s.run f).lc.estimate = (f s).lc.estimate := by
  rw [State.run, State.settle_lc]
  refine State.drain_keeps (P := fun t => t.lc.estimate = (f s).lc.estimate) (fun _ _ k => k) (fun t n k => ?_) _ _ (by simp)
  rw [State.act_lc, handle_estimate, k]

/-! ### OVERHEAT reported to the Cutoff Unit (R72) -/

/-- None of these notices raises a cause. -/
def Calm (ns : List Notice) : Prop := ∀ n ∈ ns, n.raises = false

@[simp] theorem calm_nil : Calm [] := nofun

@[simp] theorem calm_cons (n : Notice) (ns : List Notice) : Calm (n :: ns) ↔ n.raises = false ∧ Calm ns :=
  List.forall_mem_cons

@[simp] theorem calm_append (a b : List Notice) : Calm (a ++ b) ↔ Calm a ∧ Calm b := List.forall_mem_append

theorem Calm.queued {ns : List Notice} (h : Calm ns) : Calm (queuedOf ns) := fun n hn => h n (List.mem_of_mem_filter hn)

theorem Cu.handLamp_calm (cu : Cu) : Calm cu.handLamp.2 := by
  unfold Cu.handLamp
  dsimp only
  split <;> simp [Notice.raises]

theorem Cu.entryNotices_calm (cu : Cu) : Calm cu.entryNotices := by
  simp only [Cu.entryNotices, calm_append]
  refine ⟨⟨⟨⟨?_, ?_⟩, ?_⟩, ?_⟩, by simp [Notice.raises]⟩ <;> split <;> simp [Notice.raises]

theorem Cu.arrive_calm (cu : Cu) (c : Cause) : Calm (cu.arrive c).2 := by
  unfold Cu.arrive Cu.take
  dsimp only
  (repeat' split) <;> simp [Cu.handLamp_calm, Cu.entryNotices_calm, Notice.raises]

/-- A cause that the Cutoff Unit takes brings no other. -/
theorem Cu.report_calm (cu : Cu) (c : Cause) (v : Bool) : Calm (cu.report c v).2 := by
  unfold Cu.report
  split
  · exact Cu.arrive_calm _ c
  · exact calm_nil

/-- A drain of notices that raise no cause leaves the cutoff alone. -/
theorem drain_calm (fuel : Nat) {s : State} (calm : Calm s.notices) : (State.drain fuel s).cu = s.cu := by
  refine drain_keeps (P := fun k => k.cu = s.cu) (C := fun n => n.raises = false) (fun _ _ _ h => h)
    (fun n quiet k same => ?_) fuel calm rfl
  obtain ⟨⟨made, notices, routine⟩, -⟩ := handle_makes k quiet
  refine ⟨?_, made, notices, fun m hm => Notice.raises_of_routine (routine m hm)⟩
  rcases handle_cu n k with still | ⟨c, v, rfl, -⟩ | ⟨c, rfl, -⟩
  · rw [still, same]
  · cases quiet
  · cases quiet

/-- A level cause reported first is all that the Cutoff Unit takes of a command that raises no other (R72). -/
theorem run_report {s : State} {f : State → State} {c : Cause} {v : Bool} {rest : List Notice}
    (made : (f s).notices = .levelCause c v :: rest) (calm : Calm rest) :
    (s.run f).cu = ((f s).cu.report c v).1 := by
  have waiting : (s.act f).notices = .levelCause c v :: rest := by rw [State.act_notices, made]
  rw [State.run, State.settle_cu, State.carry, Config.cascadeFuel, State.drain_cons _ _ _ _ waiting, drain_calm]
  · simp [State.handle]
  · simp only [State.act_notices, State.handle, State.putCu_notices]
    exact (calm_append _ _).mpr ⟨calm, (Cu.report_calm _ _ _).queued⟩

theorem Cu.handLamp_overheat (cu : Cu) : cu.handLamp.1.overheat = cu.overheat := by
  unfold Cu.handLamp
  dsimp only
  split <;> rfl

/-- The Cutoff Unit holds OVERHEAT as it is reported (R72). -/
theorem Cu.report_overheat (cu : Cu) (v : Bool) : (cu.report .overheat v).1.overheat = v := by
  have arrived (u : Cu) (c : Cause) : (u.arrive c).1.overheat = u.overheat := by
    unfold Cu.arrive Cu.take
    dsimp only
    (repeat' split) <;> first | rfl | exact Cu.handLamp_overheat _
  unfold Cu.report
  split
  · exact arrived _ _
  · rfl

/-- OVERHEAT that appears is a cause that arrives (R72, R75). -/
theorem Cu.report_cut {cu : Cu} (absent : cu.overheat = false) (enabled : cu.enabled .overheat = true) :
    CutFor .overheat (cu.report .overheat true).1 := by
  rw [Cu.report, if_pos ⟨rfl, absent⟩]
  exact Cu.arrive_cut (cu := cu.setValue .overheat true) enabled

/-! ### A new H or a new profile (R54, R55) -/

section

variable {lc : Lc}

theorem derateEvents_quiet (before after h : Nat) : queuedOf (derateEvents before after h) = [] := by
  unfold derateEvents
  (repeat' split) <;> rfl

theorem derateEvents_logged (before after h : Nat) : loggedOf (derateEvents before after h) =
    if before = 1023 ∧ after ≠ 1023 then [(.derateBegin, halfOf h)]
    else if before ≠ 1023 ∧ after = 1023 then [(.derateEnd, halfOf h)] else [] := by
  unfold derateEvents
  (repeat' split) <;> rfl

/-- Where OVERHEAT stands, the derate limit alone follows (R54). -/
theorem Lc.reheat_same (same : overheatOf lc.h lc.derateStart lc.overheatLevel lc.overheat = lc.overheat) :
    lc.reheat = (Lc.recompute { lc with derate := derateOf lc.h lc.derateStart lc.overheatLevel },
      derateEvents lc.derate (derateOf lc.h lc.derateStart lc.overheatLevel) lc.h) := by
  unfold Lc.reheat
  dsimp only
  rw [same, if_pos rfl, List.append_nil]

/-- Where OVERHEAT moves, it is reported (R55, R72). -/
theorem Lc.reheat_moves (moves : overheatOf lc.h lc.derateStart lc.overheatLevel lc.overheat ≠ lc.overheat) :
    queuedOf lc.reheat.2 = [.levelCause .overheat (overheatOf lc.h lc.derateStart lc.overheatLevel lc.overheat)] := by
  unfold Lc.reheat
  dsimp only
  rw [if_neg moves, queuedOf_append, derateEvents_quiet]
  rfl

/-- A lamp that does not wait, or is too hot, goes on as it is (R34). -/
theorem Lc.checkWait_stays (stays : lc.state ≠ .waitCool ∨ lc.restrikeMax < lc.h) : lc.checkWait = lc :=
  if_neg fun ⟨waits, cool⟩ => stays.elim (· waits) (Nat.not_lt.mpr cool)

/-- A lamp that waits strikes as soon as it has cooled (R34). -/
theorem Lc.checkWait_strikes (waits : lc.state = .waitCool) (cool : lc.h ≤ lc.restrikeMax) :
    lc.checkWait.state = .striking := by
  rw [Lc.checkWait, if_pos ⟨waits, cool⟩, Lc.enterStriking, Lc.recompute_state]

theorem Lc.reheat_wait (lc : Lc) :
    lc.reheat.1.state = lc.state ∧ lc.reheat.1.h = lc.h ∧ lc.reheat.1.restrikeMax = lc.restrikeMax :=
  ⟨Lc.recompute_state _, Lc.recompute_h _, congrArg Lc.Limits.restrikeMax (Lc.recompute_limits _)⟩

/-- What follows a new H or a new profile: the derate limit, OVERHEAT, and a strike that has waited for the lamp house to
cool (R34, R54, R55). -/
def Lc.reheated (lc : Lc) : Reaction Lc := (lc.reheat.1.checkWait, lc.reheat.2)

theorem Lc.reheated_estimate (lc : Lc) : lc.reheated.1.estimate = { lc.estimate with
    derate := derateOf lc.h lc.derateStart lc.overheatLevel
    overheat := overheatOf lc.h lc.derateStart lc.overheatLevel lc.overheat } :=
  (Lc.checkWait_estimate _).trans (Lc.recompute_estimate _)

theorem Lc.reheated_stays (same : overheatOf lc.h lc.derateStart lc.overheatLevel lc.overheat = lc.overheat)
    (stays : lc.state ≠ .waitCool ∨ lc.restrikeMax < lc.h) :
    lc.reheated = (Lc.recompute { lc with derate := derateOf lc.h lc.derateStart lc.overheatLevel },
      derateEvents lc.derate (derateOf lc.h lc.derateStart lc.overheatLevel) lc.h) := by
  have kept : lc.reheat.1.checkWait = lc.reheat.1 := by
    refine Lc.checkWait_stays ?_
    rwa [lc.reheat_wait.1, lc.reheat_wait.2.1, lc.reheat_wait.2.2]
  rw [Lc.reheated, kept, Lc.reheat_same same]

theorem Lc.reheated_strikes (waits : lc.state = .waitCool) (cool : lc.h ≤ lc.restrikeMax) :
    lc.reheated.1.state = .striking := by
  refine Lc.checkWait_strikes (lc.reheat_wait.1.trans waits) ?_
  rwa [lc.reheat_wait.2.1, lc.reheat_wait.2.2]

theorem Lc.reheated_quiet (same : overheatOf lc.h lc.derateStart lc.overheatLevel lc.overheat = lc.overheat) :
    queuedOf lc.reheated.2 = [] := by
  rw [Lc.reheated, Lc.reheat_same same]
  exact derateEvents_quiet _ _ _

/-! ### HEAT_UPDATE (R52) -/

/-- The lamp at its next H, before what follows from it. -/
def Lc.heated (lc : Lc) (fan : Nat) : Lc := { lc with h := lc.nextH fan, heatPhase := some 100 }

end

theorem State.putLc_self (s : State) : s.putLc (s.lc, []) = s := by
  rw [State.putLc, fanNotices_eq_nil rfl rfl rfl]
  rfl

/-- The heat update as the command carries it out. -/
def heatAct (k : State) : State := if k.lc.heatPhase.due then k.putLc (k.lc.heatUpdate k.fc.speed) else k

theorem execHeatUpdate_eq (s : State) : exec .heatUpdate s = .next (s.run heatAct) := rfl

theorem heatAct_due {s : State} (due : s.lc.heatPhase = some 0) : heatAct s = s.putLc (s.lc.heated s.fc.speed).reheated :=
  if_pos (by simp [Timer.due, due])

theorem heatAct_early {s : State} (early : s.lc.heatPhase ≠ some 0) : heatAct s = s :=
  if_neg (by simpa [Timer.due] using early)

/-- An OVERHEAT that the heat update moves is what the Cutoff Unit takes of it (R72). -/
theorem heatAct_reports {s : State} (calm : s.notices = []) (due : s.lc.heatPhase = some 0) {hot : Bool}
    (overheat : overheatOf (s.lc.nextH s.fc.speed) s.lc.derateStart s.lc.overheatLevel s.lc.overheat = hot)
    (moves : hot ≠ s.lc.overheat) : (s.run heatAct).cu = (s.cu.report .overheat hot).1 := by
  subst overheat
  have act := heatAct_due due
  have made : (heatAct s).notices = .levelCause .overheat
      (overheatOf (s.lc.nextH s.fc.speed) s.lc.derateStart s.lc.overheatLevel s.lc.overheat) ::
        queuedOf (Lc.fanNotices s.lc (s.lc.heated s.fc.speed).reheated.1) := by
    rw [act, State.putLc_notices, calm, queuedOf_append]
    exact congrArg (· ++ queuedOf _) (Lc.reheat_moves (lc := s.lc.heated s.fc.speed) moves)
  have follows : Calm (Lc.fanNotices s.lc (s.lc.heated s.fc.speed).reheated.1) :=
    fun n hn => Notice.raises_of_routine (fanNotices_routine _ _ n hn)
  rw [run_report made follows.queued, act, State.putLc_cu]

/-- Settles O18: the estimate as the act leaves it, OVERHEAT as it is reported, and the lamp where OVERHEAT stands. -/
theorem heatUpdate : Obligations.HeatUpdate := by
  intro s calm
  refine ⟨fun early => ⟨_, execHeatUpdate_eq s, ?_⟩, ?_⟩
  · have effect := lamp_silent calm s.lc (f := heatAct) ((heatAct_early early).trans s.putLc_self.symm)
    exact lampEffect_nothing effect rfl
  · rintro due h rfl limit rfl hot rfl
    have act := heatAct_due due
    have estimate : (s.run heatAct).lc.estimate = (s.lc.heated s.fc.speed).reheated.1.estimate := by
      rw [run_estimate, act, State.putLc_lc]
    rw [Lc.reheated_estimate] at estimate
    refine ⟨_, execHeatUpdate_eq s, congrArg Lc.Estimate.h estimate, congrArg Lc.Estimate.derate estimate,
      congrArg Lc.Estimate.overheat estimate, congrArg Lc.Estimate.heatPhase estimate, fun moves => ?_,
      fun hot absent unreported enabled => ?_, fun same stays => ?_, fun same waits cool => ?_⟩
    · rw [heatAct_reports calm due rfl moves]
      exact Cu.report_overheat _ _
    · rw [heatAct_reports calm due hot (by simp [absent])]
      exact Cu.report_cut unreported enabled
    · have effect := putLc_lampEffect s calm _ (Lc.reheated_quiet (lc := s.lc.heated s.fc.speed) same) heatAct act
      rw [Lc.reheated_stays (lc := s.lc.heated s.fc.speed) same stays, derateEvents_logged] at effect
      exact effect
    · have effect := putLc_lampEffect s calm _ (Lc.reheated_quiet (lc := s.lc.heated s.fc.speed) same) heatAct act
      rw [effect.1]
      exact Lc.reheated_strikes waits cool

/-! ### HEAT_PROFILE (R53) -/

/-- The lamp under a new profile, before what follows from it. -/
def Lc.profiled (lc : Lc) (lg fg ds oh rm : Byte) : Lc :=
  { lc with lampGain := lg.toNat, fanGain := fg.toNat, derateStart := 256 * ds.toNat, overheatLevel := 256 * oh.toNat
            restrikeMax := 256 * rm.toNat }

section

variable {lg fg ds oh rm : Byte} {coolDone : Nat}

theorem Lc.heatProfile_bad (lc : Lc)
    (bad : ¬ (1 ≤ lg.toNat ∧ 256 * rm.toNat < 256 * ds.toNat ∧ 256 * ds.toNat < 256 * oh.toNat ∧
      coolDone < 256 * rm.toNat)) :
    lc.heatProfile lg fg ds oh rm coolDone = ((lc, []), .badOperand) := by
  refine if_pos ?_
  by_contra lawful
  exact bad (by omega)

theorem Lc.heatProfile_good (lc : Lc) (gain : 1 ≤ lg.toNat) (low : 256 * rm.toNat < 256 * ds.toNat)
    (high : 256 * ds.toNat < 256 * oh.toNat) (cool : coolDone < 256 * rm.toNat) :
    lc.heatProfile lg fg ds oh rm coolDone = ((lc.profiled lg fg ds oh rm).reheated, .done) := by
  rw [Lc.heatProfile, if_neg (by omega), Lc.profiled, Nat.mul_comm 256 ds.toNat, Nat.mul_comm 256 oh.toNat,
    Nat.mul_comm 256 rm.toNat]
  rfl

/-- A directive of the lamp, before its notices are taken. -/
theorem row_stands_lc {s : State} (ready : Ready s) {code : Byte} {owner : State → State × Result} {result : Result}
    (r : Reaction Lc) (act : ∀ k : State, k.lc = s.lc → k.fc = s.fc → owner k = (k.putLc r, result)) :
    ∃ dd : Dd, dd.taken = s.dd.taken ∧ StandsAt { s with lc := r.1, dd := dd.answer code result }
      (abandoned code s ++ loggedOf (r.2 ++ Lc.fanNotices s.lc r.1)) (queuedOf (r.2 ++ Lc.fanNotices s.lc r.1))
      (State.takeRow code owner s) := by
  refine row_stands (u := { s with lc := r.1 }) ready fun dd k before h => ?_
  rw [act k h.lc h.fc]
  exact ⟨rfl, h.putLc r⟩

theorem dirHeatProfile_eq {s k : State} (lc : k.lc = s.lc) (fc : k.fc = s.fc) {r : Reaction Lc} {result : Result}
    (taken : s.lc.heatProfile lg fg ds oh rm s.fc.coolDone = (r, result)) :
    dirHeatProfile lg fg ds oh rm k = (k.putLc r, result) := by
  rw [dirHeatProfile, lc, fc, taken]

end

/-- Settles O13: refused, or taken with what follows from the new profile. -/
theorem heatProfile : Obligations.HeatProfile := by
  rintro lg fg ds oh rm s ready d rfl o rfl m rfl limit rfl hot rfl
  refine ⟨_, rfl, fun bad => ?_, fun gain low high cool => ?_⟩
  · have refused := s.lc.heatProfile_bad (fg := fg) bad
    exact answeredLamp_nothing (row_answeredLamp ready (r := (s.lc, [])) rfl
      fun k same => dirHeatProfile_eq same.lc same.fc refused) rfl
  · have taken := s.lc.heatProfile_good (fg := fg) gain low high cool
    obtain ⟨dd, -, stands⟩ := row_stands_lc (code := 0x25) ready (s.lc.profiled lg fg ds oh rm).reheated
      fun k lc fc => dirHeatProfile_eq lc fc taken
    have estimate := run_estimate s (State.takeRow 0x25 (dirHeatProfile lg fg ds oh rm))
    rw [stands.lc, Lc.reheated_estimate] at estimate
    have answered := State.run_dd s (State.takeRow 0x25 (dirHeatProfile lg fg ds oh rm))
    rw [stands.dd] at answered
    have lamp (same : overheatOf s.lc.h (256 * ds.toNat) (256 * oh.toNat) s.lc.overheat = s.lc.overheat) :=
      row_answeredLamp (code := 0x25) ready (Lc.reheated_quiet (lc := s.lc.profiled lg fg ds oh rm) same)
        fun k same => dirHeatProfile_eq same.lc same.fc taken
    refine ⟨congrArg Lc.Estimate.lampGain estimate, congrArg Lc.Estimate.fanGain estimate,
      congrArg Lc.Estimate.derateStart estimate, congrArg Lc.Estimate.overheatLevel estimate,
      congrArg Lc.Estimate.restrikeMax estimate, congrArg Lc.Estimate.derate estimate,
      congrArg Lc.Estimate.overheat estimate, congrArg Lc.Estimate.h estimate, congrArg Dd.lastCode answered,
      congrArg Dd.lastResult answered, fun same stays => ?_, fun same waits cooled => ?_⟩
    · have effect := lamp same
      rw [Lc.reheated_stays (lc := s.lc.profiled lg fg ds oh rm) same stays, derateEvents_logged] at effect
      exact effect
    · rw [(lamp same).1]
      exact Lc.reheated_strikes (lc := s.lc.profiled lg fg ds oh rm) waits cooled

end Sys2Proof.Machine
end

section
/-! ## The fan's demand and FAN_PROFILE (03) -/

namespace Sys2Proof.Machine

open Sys2Proof.Safety

/-! ### The demand computed afresh, by what it was and what it becomes (R62, R64, R65, R68) -/

/-- The lamp is active for the fan while it strikes, burns or is exchanged (R61). -/
theorem Lc.lampActive_eq (lc : Lc) :
    lc.lampActive = decide (lc.state = .striking ∨ lc.state = .lit ∨ lc.state = .exchange) := by
  cases state : lc.state <;> simp [Lc.lampActive, state]

section

variable {fc : Fc} {h ds : Nat} {active : Bool}

/-- A demand that leaves 0 spins the fan up (R64). -/
theorem Fc.compute_starts (rest : fc.demand = 0) (wanted : fc.computed h ds active ≠ 0) :
    fc.compute h ds active =
      ({ fc with demand := fc.computed h ds active, state := .spinup, grace := 4, stallWindows := 0 }, []) := by
  unfold Fc.compute Fc.follow
  dsimp only
  rw [if_pos ⟨rest, wanted⟩]
  split <;> rfl

/-- A demand that becomes 0 stops the fan (R64, R68). -/
theorem Fc.compute_stops (driven : fc.demand ≠ 0) (none_wanted : fc.computed h ds active = 0) :
    fc.compute h ds active = ({ fc with demand := 0, state := .stopped, grace := 0, stallWindows := 0 },
      if fc.full = false ∧ active = false ∧ h ≤ fc.coolDone then [.log .cooldownDone (halfOf h)] else []) := by
  unfold Fc.compute Fc.follow
  dsimp only
  rw [if_neg fun starts => driven starts.1, if_pos ⟨driven, none_wanted⟩, none_wanted]
  simp only [Bool.not_eq_true]
  split <;> rfl

/-- Any other demand leaves the fan in its state, as it follows the lamp (R65). -/
theorem Fc.compute_goes (same : fc.demand = 0 ↔ fc.computed h ds active = 0) :
    fc.compute h ds active = ({ fc.follow active with demand := fc.computed h ds active }, []) := by
  unfold Fc.compute
  dsimp only
  rw [if_neg fun starts => starts.2 (same.mp starts.1), if_neg fun stops => stops.1 (same.mpr stops.2)]

theorem Fc.follow_fields (fc : Fc) (active : Bool) : fc.follow active = { fc with
    state := if fc.state = .running ∨ fc.state = .cooldown then turningState active else fc.state } := by
  unfold Fc.follow
  split <;> rfl

end

/-! ### A directive of the fan -/

/-- A directive of the fan that makes no notice. -/
theorem row_took_fc {s : State} (ready : Ready s) {code : Byte} {owner : State → State × Result} {result : Result}
    (r : Reaction Fc) (act : ∀ k : State, k.fc = s.fc → k.lc = s.lc → owner k = (k.putFc r, result))
    (quiet : queuedOf r.2 = []) :
    Took code result s { s with fc := r.1 } (loggedOf r.2) (s.run (State.takeRow code owner)) := by
  have took := row_took (code := code) (owner := owner) (result := result) (u := { s with fc := r.1 })
    (u' := { s with fc := r.1 }) (made := []) (events := loggedOf r.2) (later := []) ready
    (fun dd k before stands => by
      rw [act k stands.fc stands.lc]
      exact ⟨rfl, by simpa only [quiet, List.append_nil] using stands.putFc r⟩) fun dd => .nil _ _
  simpa only [List.append_nil] using took

section

variable {minimum coolDone : Byte} {s : State}

/-- FAN_PROFILE is refused unless CD is below RM (R69). -/
theorem fanProfile_refused (ready : Ready s) (high : s.lc.restrikeMax ≤ coolDone.toNat * 256) :
    Answered 0x30 .badOperand [] [] s (s.run (State.takeRow 0x30 (dirFanProfile minimum coolDone))) := by
  have took := row_took_fc (code := 0x30) (owner := dirFanProfile minimum coolDone) (result := .badOperand) ready (s.fc, [])
    (fun k fc lc => by rw [dirFanProfile, fc, lc, Fc.profile, if_neg (by omega)]) rfl
  exact took.answered rfl fun p _ => by cases p <;> simp [Part.same]

/-- The fan under a new profile, before its demand is computed (R69). -/
def Fc.profiled (fc : Fc) (minimum coolDone : Byte) : Fc :=
  { fc with minimum := minimum.toNat, coolDone := coolDone.toNat * 256 }

/-- FAN_PROFILE computes the demand afresh under the new profile (R61, R69). -/
theorem fanProfile_taken (ready : Ready s) (low : coolDone.toNat * 256 < s.lc.restrikeMax) {r : Reaction Fc}
    (computed : (s.fc.profiled minimum coolDone).compute s.lc.h s.lc.derateStart s.lc.lampActive = r) :
    (s.run (State.takeRow 0x30 (dirFanProfile minimum coolDone))).fc = r.1 ∧
      Answered 0x30 .done [.fan] (loggedOf r.2) s (s.run (State.takeRow 0x30 (dirFanProfile minimum coolDone))) := by
  have quiet : queuedOf r.2 = [] := by rw [← computed]; exact Fc.compute_quiet _ _ _ _
  have took := row_took_fc (code := 0x30) (owner := dirFanProfile minimum coolDone) (result := .done) ready r
    (fun k fc lc => by rw [dirFanProfile, fc, lc, Fc.profile, if_pos low, ← computed]; rfl) quiet
  exact ⟨took.fc, took.answered rfl fun p hp => by cases p <;> simp [Part.same] at hp ⊢⟩

end

/-- Settles O19: refused, or the demand computed afresh, by whether it leaves 0, becomes 0 or neither. -/
theorem fanProfile : Obligations.FanProfile := by
  rintro minimum coolDone s ready cd rfl active activeEq demand demandEq
  rw [← Lc.lampActive_eq] at activeEq
  subst activeEq
  rw [Nat.mul_comm 256] at demandEq ⊢
  have computed : (s.fc.profiled minimum coolDone).computed s.lc.h s.lc.derateStart s.lc.lampActive = demand :=
    demandEq.symm
  refine ⟨_, rfl, fanProfile_refused ready, fun low => ?_⟩
  by_cases same : s.fc.demand = 0 ↔ demand = 0
  · have goes := Fc.compute_goes (fc := s.fc.profiled minimum coolDone) (computed ▸ same)
    rw [computed, Fc.follow_fields] at goes
    obtain ⟨fan, answered⟩ := fanProfile_taken ready low goes
    rw [fan]
    refine ⟨rfl, rfl, rfl, rfl, rfl, rfl, fun rest wanted => absurd (same.mp rest) wanted,
      fun driven stops => absurd (same.mpr stops) driven, fun _ => ⟨rfl, rfl, rfl⟩, ?_⟩
    rw [if_neg fun ⟨driven, stops, _⟩ => driven (same.mpr stops)]
    exact answered
  · by_cases rest : s.fc.demand = 0
    · have wanted : demand ≠ 0 := fun stops => same (iff_of_true rest stops)
      have starts := Fc.compute_starts (fc := s.fc.profiled minimum coolDone) rest (computed ▸ wanted)
      rw [computed] at starts
      obtain ⟨fan, answered⟩ := fanProfile_taken ready low starts
      rw [fan]
      refine ⟨rfl, rfl, rfl, rfl, rfl, rfl, fun _ _ => ⟨rfl, rfl, rfl⟩, fun driven => absurd rest driven,
        fun kept => absurd kept same, ?_⟩
      rw [if_neg fun ⟨driven, _⟩ => driven rest]
      exact answered
    · have stops : demand = 0 := not_not.mp fun wanted => same (iff_of_false rest wanted)
      obtain ⟨fan, answered⟩ := fanProfile_taken ready low
        (Fc.compute_stops (fc := s.fc.profiled minimum coolDone) rest (computed.trans stops))
      rw [fan]
      refine ⟨rfl, rfl, stops.symm, rfl, rfl, rfl, fun rests => absurd rests rest, fun _ _ => ⟨rfl, rfl, rfl⟩,
        fun kept => absurd kept same, ?_⟩
      rw [apply_ite loggedOf] at answered
      simp only [stops, rest, ne_eq, not_false_eq_true, true_and]
      exact answered

end Sys2Proof.Machine
end

section
/-! ## The end of a measurement window (03) -/

namespace Sys2Proof.Machine

open Sys2Proof.Safety

/-! ### The window check, by the fan's state (R64, R66, R67) -/

/-- The fan with the speed of the window that ends (R60). -/
def Fc.measured (fc : Fc) : Fc := { fc with speed := min 255 (4 * fc.pulses), pulses := 0, windowPhase := some 250 }

theorem Fc.stalls_eq (fc : Fc) : fc.stalls = decide (64 ≤ fc.demand ∧ 4 * fc.speed < fc.demand) := by
  simp [Fc.stalls]

section

variable {fc : Fc} {active : Bool}

theorem Fc.check_stopped (state : fc.state = .stopped) : fc.check active = (fc, []) := by
  simp [Fc.check, state]

/-- A grace window of SPINUP is taken (R64). -/
theorem Fc.check_spinup (state : fc.state = .spinup) : fc.check active =
    ({ fc with grace := fc.grace - 1, state := if fc.grace ≤ 1 then turningState active else .spinup }, []) := by
  by_cases last : fc.grace ≤ 1
  · simp [Fc.check, state, last]
  · simp [Fc.check, state, last, show fc.grace - 1 ≠ 0 by omega]

section

variable (turns : fc.state = .running ∨ fc.state = .cooldown)

include turns

/-- A window that is no stall window ends a count of them (R66). -/
theorem Fc.check_kept (fast : fc.stalls = false) : fc.check active = ({ fc with stallWindows := 0 }, []) := by
  rcases turns with state | state <;> simp [Fc.check, state, fast]

/-- The first stall windows are counted (R66). -/
theorem Fc.check_counted (slow : fc.stalls = true) (few : fc.stallWindows < 2) :
    fc.check active = ({ fc with stallWindows := fc.stallWindows + 1 }, []) := by
  rcases turns with state | state <;> simp [Fc.check, state, slow] <;> omega

/-- The third stall window raises FAN_STALL (R66). -/
theorem Fc.check_stalled (slow : fc.stalls = true) (two : 2 ≤ fc.stallWindows) :
    fc.check active = ({ fc with stallWindows := 3, state := .stalled },
      [.log .fanStall (argPair fc.demand fc.speed), .edgeCause .fanStall]) := by
  rcases turns with state | state <;> simp [Fc.check, state, slow] <;> omega

end

/-- A stalled fan recovers at the demand (R67). -/
theorem Fc.check_recovers (state : fc.state = .stalled) : fc.check active =
    ({ fc with state := if fc.demand ≤ 4 * fc.speed then turningState active else .stalled,
               stallWindows := if fc.demand ≤ 4 * fc.speed then 0 else fc.stallWindows }, []) := by
  by_cases fast : fc.demand ≤ 4 * fc.speed
  · simp [Fc.check, state, fast]
  · simp only [Fc.check, state, if_neg fast]
    rw [← state]

end

/-! ### The command -/

/-- The window's end as the command carries it out. -/
def windowAct (k : State) : State := if k.fc.windowPhase.due then k.putFc (k.fc.windowEnd k.lc.lampActive) else k

section

variable {s : State}

theorem execMeasurementWindowEnd_eq (s : State) : exec .measurementWindowEnd s = .next (s.run windowAct) := rfl

theorem windowAct_early (early : s.fc.windowPhase ≠ some 0) : windowAct s = s := if_neg (by simpa [Timer.due] using early)

theorem windowAct_due (due : s.fc.windowPhase = some 0) : windowAct s = s.putFc (s.fc.measured.check s.lc.lampActive) :=
  if_pos (by simp [Timer.due, due])

/-- A window's end that raises no cause is one reaction of the fan. -/
theorem windowEnd_quiet (calm : s.notices = []) (due : s.fc.windowPhase = some 0) {fc : Fc}
    (checked : s.fc.measured.check s.lc.lampActive = (fc, [])) :
    (s.run windowAct).fc = fc ∧ Effect [.fan] [] s (s.run windowAct) :=
  putFc_quiet s calm (fc, []) rfl windowAct (by rw [windowAct_due due, checked])

end

/-! ### What no notice changes of the fan -/

/-- What the tachometer has told the fan. -/
def Fc.tachometer (fc : Fc) : Nat × Nat × Timer := (fc.speed, fc.pulses, fc.windowPhase)

theorem Fc.compute_tachometer (fc : Fc) (h ds : Nat) (active : Bool) :
    (fc.compute h ds active).1.tachometer = fc.tachometer := by
  by_cases same : fc.demand = 0 ↔ fc.computed h ds active = 0
  · rw [Fc.compute_goes same, Fc.follow_fields]
    rfl
  · by_cases rest : fc.demand = 0
    · rw [Fc.compute_starts rest fun stops => same (iff_of_true rest stops)]
      rfl
    · rw [Fc.compute_stops rest (not_not.mp fun wanted => same (iff_of_false rest wanted))]
      rfl

/-- No notice changes what the fan has measured. -/
theorem handle_tachometer (s : State) (n : Notice) : (State.handle n s).fc.tachometer = s.fc.tachometer := by
  cases n with
  | deposit source kind => exact congrArg Fc.tachometer (deposit_arbiterActs s source kind).fc
  | select => exact congrArg Fc.tachometer (select_arbiterActs s).fc
  | outcome op result => exact congrArg Fc.tachometer (takeOutcome_engineActs s op result).fc
  | deliver source result => exact congrArg Fc.tachometer (deliver_engineActs s source result).fc
  | slotEmpty source => exact congrArg Fc.tachometer (slotEmptied_engineActs s source).fc
  | terminalCount c => exact congrArg Fc.tachometer (terminalCount_engineActs s c).fc
  | fifoJoined => exact congrArg Fc.tachometer (lookTape_engineActs s).fc
  | progress => exact congrArg Fc.tachometer (progress_engineActs s).fc
  | fanCompute h ds active => simpa [State.handle] using s.fc.compute_tachometer h ds active
  | fanImposition full =>
    rw [State.handle, State.putFc_fc]
    exact Fc.compute_tachometer { s.fc with full := full } _ _ _
  | _ => simp [State.handle]

/-- A command leaves what the fan has measured as its act leaves it. -/
theorem run_tachometer (s : State) (f : State → State) : (s.run f).fc.tachometer = (f s).fc.tachometer := by
  rw [State.run, State.settle_fc]
  refine State.drain_keeps (P := fun t => t.fc.tachometer = (f s).fc.tachometer) (fun _ _ k => k) (fun t n k => ?_) _ _
    (by simp)
  rw [State.act_fc, handle_tachometer, k]

theorem windowEnd_tachometer {s : State} (due : s.fc.windowPhase = some 0) :
    (s.run windowAct).fc.tachometer = (min 255 (4 * s.fc.pulses), 0, some 250) := by
  have checked (fc : Fc) (active : Bool) : (fc.check active).1.tachometer = fc.tachometer := by
    unfold Fc.check
    dsimp only
    (repeat' split) <;> rfl
  rw [run_tachometer, windowAct_due due, State.putFc_fc, checked]
  rfl

end Sys2Proof.Machine
end

section
/-! ## The cutoff that a stalled fan raises (03, 04)

FAN_STALL joins the cause set, and the lamp is told to go out. Where it enters cutoff the other blocks are laid under their
impositions too. The fan then hears of the lamp, and what is left to tell reaches neither lamp group nor fan. -/

namespace Sys2Proof.Machine

open Sys2Proof.Safety

/-! ### One rule for each imposition, as its block takes it (R51, R77 to R81) -/

section

variable (u : State)

theorem handled_lampImposition (i : LampImposition) :
    Handled (.lampImposition i) u { u with lc := (u.lc.impose i u.tmc.blackout u.tmc.inTime).1 }
      (loggedOf (u.lc.impose i u.tmc.blackout u.tmc.inTime).2)
      (Lc.fanNotices u.lc (u.lc.impose i u.tmc.blackout u.tmc.inTime).1) := fun k before queue stands => by
  have put := stands.putLc (u.lc.impose i u.tmc.blackout u.tmc.inTime)
  obtain ⟨waits, silent⟩ := fanNotices_waits u.lc (u.lc.impose i u.tmc.blackout u.tmc.inTime).1
  rw [loggedOf_append, queuedOf_append, Lc.impose_quiet, waits, silent, List.append_nil, List.nil_append] at put
  rw [State.handle, stands.lc, stands.tmc]
  exact put

theorem handled_trayCutoff (sel : TraySelection) :
    Handled (.trayCutoff sel) u { u with tmc := (u.tmc.cutoff sel).1 } (loggedOf (u.tmc.cutoff sel).2)
      (queuedOf (u.tmc.cutoff sel).2) := fun k before queue stands => by
  rw [State.handle, stands.tmc]
  exact stands.putTmc _

theorem handled_tapeImposition (stop : Bool) :
    Handled (.tapeImposition stop) u { u with ttc := (u.ttc.imposeTape stop).1 } (loggedOf (u.ttc.imposeTape stop).2)
      (queuedOf (u.ttc.imposeTape stop).2) := fun k before queue stands => by
  rw [State.handle, stands.ttc]
  exact stands.putTtc _

theorem handled_audioImposition (mute : Bool) :
    Handled (.audioImposition mute) u { u with ttc := u.ttc.imposeAudio mute } [] [] := fun k before queue stands => by
  rw [State.handle, stands.ttc]
  exact stands.putTtc (_, [])

theorem handled_fanImposition (full : Bool) :
    Handled (.fanImposition full) u { u with fc := (u.fc.impose full u.lc.h u.lc.derateStart u.lc.lampActive).1 }
      (loggedOf (u.fc.impose full u.lc.h u.lc.derateStart u.lc.lampActive).2) [] := fun k before queue stands => by
  have put := stands.putFc (u.fc.impose full u.lc.h u.lc.derateStart u.lc.lampActive)
  rw [Fc.impose, Fc.compute_quiet] at put
  rw [State.handle, stands.fc, stands.lc]
  exact put

theorem handled_fanCompute (h ds : Nat) (active : Bool) :
    Handled (.fanCompute h ds active) u { u with fc := (u.fc.compute h ds active).1 }
      (loggedOf (u.fc.compute h ds active).2) [] := fun k before queue stands => by
  have put := stands.putFc (u.fc.compute h ds active)
  rw [Fc.compute_quiet] at put
  rw [State.handle, stands.fc]
  exact put

theorem handled_arbiterCutoff (sel : TraySelection) :
    Handled (.arbiterCutoff sel) u { u with ca := (u.ca.cutoff sel).1 } (loggedOf (u.ca.cutoff sel).2)
      (queuedOf (u.ca.cutoff sel).2) := fun k before queue stands => by
  rw [State.handle, stands.ca]
  exact stands.putCa _

theorem handled_showCutoff :
    Handled .showCutoff u { u with ce := (u.ce.halt .cutoff).1 } (loggedOf (u.ce.halt .cutoff).2)
      (queuedOf (u.ce.halt .cutoff).2) := fun k before queue stands => by
  rw [State.handle, stands.ce]
  exact stands.putCe _

/-- The fan hears of a lamp whose group, H or DS has changed, and of no other (R61). -/
theorem Stretch.fanHears (before : Lc) :
    Stretch (Lc.fanNotices before u.lc) u { u with fc := (fanAfter { u with lc := before } u.lc).1 }
      (loggedOf (fanAfter { u with lc := before } u.lc).2) [] := by
  by_cases still : Lc.fanNotices before u.lc = []
  · have follows : fanAfter { u with lc := before } u.lc = (u.fc, []) := if_pos still
    rw [still, follows]
    exact .nil u
  · have follows : fanAfter { u with lc := before } u.lc = u.fc.compute u.lc.h u.lc.derateStart u.lc.lampActive :=
      if_neg still
    have told : Lc.fanNotices before u.lc = [.fanCompute u.lc.h u.lc.derateStart u.lc.lampActive] := by
      unfold Lc.fanNotices at still ⊢
      exact if_neg fun same => still (if_pos same)
    rw [told, follows]
    exact .one (handled_fanCompute u _ _ _)

end

/-! ### What an entry lays on the blocks beside the lamp (R78 to R81) -/

/-- The fan's answer to the entry (R80). -/
def State.fanFull (u : State) : Reaction Fc :=
  if u.cu.fanIgnore then (u.fc, []) else u.fc.impose true u.lc.h u.lc.derateStart u.lc.lampActive

/-- The blocks with every imposition but the lamp's laid on them. -/
def State.laid (u : State) : State :=
  { u with tmc := u.trayCut.1, ttc := u.deckCut, fc := u.fanFull.1, ca := (u.ca.cutoff u.cu.traySel).1
           ce := (u.ce.halt .cutoff).1 }

/-- The entries that these impositions hand over. -/
def State.laidLog (u : State) : List (Event × Half) :=
  loggedOf u.trayCut.2 ++ loggedOf u.tapeCut.2 ++ loggedOf u.fanFull.2 ++ loggedOf (u.ca.cutoff u.cu.traySel).2 ++
    loggedOf (u.ce.halt .cutoff).2

/-- The notices that the blocks then make. -/
def State.laidRest (u : State) : List Notice := queuedOf u.trayCut.2 ++ u.cutRest

theorem Cu.entryNotices_eq (cu : Cu) : cu.entryNotices =
    spare (cu.traySel == .ignore) (.trayCutoff cu.traySel) ++ spare cu.tapeIgnore (.tapeImposition true) ++
      spare cu.audioIgnore (.audioImposition true) ++ spare cu.fanIgnore (.fanImposition true) ++
      [.arbiterCutoff cu.traySel] ++ [.showCutoff] := by
  have tray : spare (cu.traySel == .ignore) (.trayCutoff cu.traySel) =
      if cu.traySel = .ignore then [] else [.trayCutoff cu.traySel] := by
    by_cases ignored : cu.traySel = .ignore <;> simp [ignored, spare]
  rw [tray]
  simp only [Cu.entryNotices, List.append_assoc]
  rfl

theorem Cu.entryNotices_length (cu : Cu) : cu.entryNotices.length ≤ 6 := by
  have tray := spare_length (cu.traySel == .ignore) (.trayCutoff cu.traySel)
  have tape := spare_length cu.tapeIgnore (.tapeImposition true)
  have sound := spare_length cu.audioIgnore (.audioImposition true)
  have fan := spare_length cu.fanIgnore (.fanImposition true)
  simp only [Cu.entryNotices_eq, List.length_append, List.length_cons, List.length_nil]
  omega

/-- The impositions of an entry, laid one after another. -/
theorem Stretch.laying (u : State) : Stretch u.cu.entryNotices u u.laid u.laidLog u.laidRest := by
  have tray : Stretch (spare (u.cu.traySel == .ignore) (.trayCutoff u.cu.traySel)) u { u with tmc := u.trayCut.1 }
      (loggedOf u.trayCut.2) (queuedOf u.trayCut.2) :=
    .skip (fun ignored => by simp [State.trayCut, ignored]) fun held => by
      rw [State.trayCut, held]
      exact handled_trayCutoff u _
  have tape : Stretch (spare u.cu.tapeIgnore (.tapeImposition true)) { u with tmc := u.trayCut.1 }
      { u with tmc := u.trayCut.1, ttc := u.tapeCut.1 } (loggedOf u.tapeCut.2) [] :=
    .skip (fun ignored => by simp [State.tapeCut, ignored]) fun heard => by
      rw [← u.tapeCut_quiet, State.tapeCut, heard]
      exact handled_tapeImposition { u with tmc := u.trayCut.1 } true
  have sound : Stretch (spare u.cu.audioIgnore (.audioImposition true)) { u with tmc := u.trayCut.1, ttc := u.tapeCut.1 }
      { u with tmc := u.trayCut.1, ttc := u.deckCut } [] [] :=
    .skip (fun ignored => by simp [State.deckCut, ignored]) fun heard => by
      rw [State.deckCut, heard]
      exact handled_audioImposition { u with tmc := u.trayCut.1, ttc := u.tapeCut.1 } true
  have fan : Stretch (spare u.cu.fanIgnore (.fanImposition true)) { u with tmc := u.trayCut.1, ttc := u.deckCut }
      { u with tmc := u.trayCut.1, ttc := u.deckCut, fc := u.fanFull.1 } (loggedOf u.fanFull.2) [] :=
    .skip (fun ignored => by simp [State.fanFull, ignored]) fun driven => by
      rw [State.fanFull, driven]
      exact handled_fanImposition { u with tmc := u.trayCut.1, ttc := u.deckCut } true
  have arbiter := Stretch.one (handled_arbiterCutoff { u with tmc := u.trayCut.1, ttc := u.deckCut, fc := u.fanFull.1 }
    u.cu.traySel)
  have engine := Stretch.one (handled_showCutoff
    { u with tmc := u.trayCut.1, ttc := u.deckCut, fc := u.fanFull.1, ca := (u.ca.cutoff u.cu.traySel).1 })
  have all := ((((tray.append tape).append sound).append fan).append arbiter).append engine
  simpa only [Cu.entryNotices_eq, State.laid, State.laidLog, State.laidRest, State.cutRest, List.append_assoc,
    List.append_nil, List.nil_append] using all

theorem Notice.follows_granting {n : Notice} (follows : n.follows false = true) : n.follows true = true := by
  cases n with
  | deposit source kind => cases source <;> cases kind <;> exact follows
  | _ => first | exact follows | cases follows

/-- What the blocks still have to tell after an entry is of the wind-up. -/
theorem State.laidRest_follows (u : State) : ∀ n ∈ u.laidRest, n.follows true = true := by
  have release : ∀ n ∈ spare (!u.releases) (.release u.tmc.inTime), n.follows true = true := by
    cases u.releases <;> simp [spare, Notice.follows]
  rw [State.laidRest, u.trayCut_queue]
  exact List.forall_mem_append.mpr ⟨List.forall_mem_append.mpr ⟨release,
    fun n hn => Notice.follows_granting (u.cutOutcome_follows n hn)⟩,
    fun n hn => Notice.follows_granting (u.cutRest_follows n hn)⟩

/-- With the tray selection IGNORE and the other blocks spared an entry lays nothing on them. -/
theorem Spared.laid {u : State} (spared : Spared u) (ignored : u.cu.traySel = .ignore) :
    u.laid = u ∧ u.laidLog = [] ∧ u.laidRest = [] := by
  have arbiter : u.ca.cutoff u.cu.traySel = (u.ca, []) := if_pos (.inl ignored)
  have fan : u.fanFull = (u.fc, []) := if_pos spared.fan
  simp [State.laid, State.laidLog, State.laidRest, State.trayCut_ignored ignored, spared.tapeCut, spared.deckCut, fan,
    arbiter, Ce.halt_idle spared.idle, spared.cutRest]

/-! ### The Cutoff Unit's answer to FAN_STALL (R75 to R77) -/

/-- The Cutoff Unit with FAN_STALL, a heat cause, in its set (R76, R77). -/
def Cu.stalled (cu : Cu) : Cu :=
  { cu with flag := true, causes := cu.causes ||| Cause.bit .fanStall, lampHanded := .off }

/-- What the Cutoff Unit lays on the blocks when FAN_STALL arrives (R77 to R81). -/
def Cu.stallNotices (cu : Cu) : List Notice :=
  spare (cu.lampHanded == .off) (.lampImposition .off) ++ if cu.flag then [] else cu.stalled.entryNotices

theorem Cu.stallNotices_length (cu : Cu) : cu.stallNotices.length ≤ 7 := by
  have lamp := spare_length (cu.lampHanded == .off) (.lampImposition .off)
  have entry := cu.stalled.entryNotices_length
  rw [Cu.stallNotices, List.length_append]
  split
  · simp only [List.length_nil]; omega
  · omega

theorem Cu.stallNotices_waits (cu : Cu) : queuedOf cu.stallNotices = cu.stallNotices ∧ loggedOf cu.stallNotices = [] := by
  refine queued_waiting fun n hn => ?_
  have one {skip : Bool} {n : Notice} (waits : n.immediate = false) : ∀ m ∈ spare skip n, m.immediate = false := by
    cases skip <;> simp [spare, waits]
  have entry : ∀ n ∈ cu.stalled.entryNotices, n.immediate = false := by
    simp only [Cu.entryNotices_eq, List.forall_mem_append]
    exact ⟨⟨⟨⟨⟨one rfl, one rfl⟩, one rfl⟩, one rfl⟩, by simp [Notice.immediate]⟩, by simp [Notice.immediate]⟩
  rcases List.mem_append.mp hn with lamp | rest
  · exact one rfl n lamp
  · split at rest
    · cases rest
    · exact entry n rest

/-- The entry of the arrival: cutoff is entered, or the cause is added (R75, R76). -/
def Cu.stallEvent (cu : Cu) : Event × Half := (if cu.flag then .cutoffCauseAdded else .cutoffEnter, 4)

/-- FAN_STALL arrives while it is not in the set. -/
theorem Cu.arrive_fanStall {cu : Cu} (enabled : cu.enabled .fanStall = true)
    (fresh : ¬ (cu.flag = true ∧ cu.inSet .fanStall = true)) :
    cu.arrive .fanStall = (cu.stalled, .log cu.stallEvent.1 cu.stallEvent.2 :: cu.stallNotices) := by
  have handed : Cu.handLamp { cu with flag := true, causes := cu.causes ||| Cause.bit .fanStall } =
      (cu.stalled, spare (cu.lampHanded == .off) (.lampImposition .off)) := by
    have hot : Cu.heatInSet { cu with flag := true, causes := cu.causes ||| Cause.bit .fanStall } = true :=
      List.any_eq_true.mpr ⟨.fanStall, by decide, cu.inSet_added .fanStall⟩
    have now : Cu.lampImposition { cu with flag := true, causes := cu.causes ||| Cause.bit .fanStall } = .off :=
      (if_neg (by simp)).trans (if_pos hot)
    unfold Cu.handLamp
    rw [now]
    by_cases told : cu.lampHanded = .off
    · simp [told, spare, Cu.stalled]
    · simp [told, Ne.symm told, spare, Cu.stalled]
  rw [Cu.arrive, if_pos enabled, Cu.take]
  by_cases flag : cu.flag = true
  · have added : Cu.handLamp { cu with causes := cu.causes ||| Cause.bit .fanStall } =
        (cu.stalled, spare (cu.lampHanded == .off) (.lampImposition .off)) := by
      rw [← handed, ← flag]
    rw [if_neg (by simp [flag]), if_neg fun known => fresh ⟨flag, known⟩, added]
    simp [Cu.stallEvent, Cu.stallNotices, flag]
    rfl
  · rw [if_pos flag, handed]
    simp [Cu.stallEvent, Cu.stallNotices, flag]
    rfl

/-- FAN_STALL arrives disabled, or stands in the set (R75, R76). -/
theorem Cu.arrive_fanStall_known {cu : Cu}
    (known : cu.enabled .fanStall = false ∨ cu.flag = true ∧ cu.inSet .fanStall = true) :
    cu.arrive .fanStall = (cu, []) := by
  rcases known with disabled | ⟨flag, inSet⟩
  · rw [Cu.arrive, if_neg (by simp [disabled])]
  · have taken : cu.take .fanStall = (cu, []) := by rw [Cu.take, if_neg (by simp [flag]), if_pos inSet]
    rw [Cu.arrive, taken, ite_self]

/-! ### The third stall window (R66) -/

/-- The fan after its third stall window. -/
def Fc.stalled (fc : Fc) : Fc := { fc.measured with stallWindows := 3, state := .stalled }

/-- The lamp's answer to FAN_STALL (R51, R77). -/
def State.stallLamp (s : State) : Reaction Lc :=
  if s.cu.lampHanded == .off then (s.lc, []) else s.lc.impose .off s.tmc.blackout s.tmc.inTime

/-- The blocks once the lamp has been told. -/
def State.stallTold (s : State) : State := { s with fc := s.fc.stalled, cu := s.cu.stalled, lc := s.stallLamp.1 }

/-- The blocks once every imposition is laid, which is so at an entry alone (R76). -/
def State.stallLaid (s : State) : State := if s.cu.flag then s.stallTold else s.stallTold.laid

/-- The fan once it has heard of the lamp (R61). -/
def State.stallFan (s : State) : Reaction Fc := fanAfter { s.stallLaid with lc := s.lc } s.stallLamp.1

/-- The blocks once the fan has heard of the lamp. -/
def State.stallCut (s : State) : State := { s.stallLaid with fc := s.stallFan.1 }

/-- What is left to tell then. -/
def State.stallRest (s : State) : List Notice := if s.cu.flag then [] else s.stallTold.laidRest

/-- The entries up to there. -/
def State.stallLog (s : State) : List (Event × Half) :=
  [(.fanStall, argPair s.fc.demand (min 255 (4 * s.fc.pulses))), s.cu.stallEvent] ++
    (loggedOf s.stallLamp.2 ++ if s.cu.flag then [] else s.stallTold.laidLog) ++ loggedOf s.stallFan.2

theorem State.stallLaid_lc (s : State) : s.stallLaid.lc = s.stallLamp.1 := by
  unfold State.stallLaid
  split <;> rfl

/-- The impositions of FAN_STALL. -/
theorem Stretch.stalling (s : State) : Stretch s.cu.stallNotices { s with fc := s.fc.stalled, cu := s.cu.stalled }
    s.stallLaid (loggedOf s.stallLamp.2 ++ if s.cu.flag then [] else s.stallTold.laidLog)
    (Lc.fanNotices s.lc s.stallLamp.1 ++ s.stallRest) := by
  have lamp : Stretch (spare (s.cu.lampHanded == .off) (.lampImposition .off))
      { s with fc := s.fc.stalled, cu := s.cu.stalled } s.stallTold (loggedOf s.stallLamp.2)
      (Lc.fanNotices s.lc s.stallLamp.1) :=
    .skip (fun told => by simp [State.stallTold, State.stallLamp, told, fanNotices_eq_nil]) fun new => by
      rw [State.stallTold, State.stallLamp, new]
      exact handled_lampImposition { s with fc := s.fc.stalled, cu := s.cu.stalled } .off
  unfold Cu.stallNotices State.stallLaid State.stallRest
  split
  · simpa only [List.append_nil] using lamp
  · exact lamp.append (.laying s.stallTold)

section

variable {s : State} (calm : s.notices = []) (due : s.fc.windowPhase = some 0)
  (turns : s.fc.state = .running ∨ s.fc.state = .cooldown)
  (slow : 64 ≤ s.fc.demand ∧ 4 * min 255 (4 * s.fc.pulses) < s.fc.demand) (two : 2 ≤ s.fc.stallWindows)

include calm due turns slow two

/-- The act of the third stall window. -/
theorem thirdStall_stands : StandsAt { s with fc := s.fc.stalled }
    [(.fanStall, argPair s.fc.demand (min 255 (4 * s.fc.pulses)))] [.edgeCause .fanStall] (windowAct s) := by
  have stalls : s.fc.measured.stalls = true := by rw [Fc.stalls_eq]; exact decide_eq_true slow
  rw [windowAct_due due, Fc.check_stalled (fc := s.fc.measured) turns stalls two]
  exact (StandsAt.refl calm).putFc _

/-- A FAN_STALL that is enabled is in the set (R75). -/
theorem thirdStall_cuts (enabled : s.cu.enabled .fanStall = true) : CutFor .fanStall (s.run windowAct).cu := by
  have stands := thirdStall_stands calm due turns slow two
  rw [State.run, State.settle_cu, State.carry, Config.cascadeFuel,
    State.drain_cons _ _ _ _ (by rw [State.act_notices, stands.notices])]
  refine State.drain_keeps (P := fun k => CutFor .fanStall k.cu) (fun _ _ cut => cut) (fun k n cut => ?_) _ _ ?_
  · rw [State.act_cu]
    exact handle_keeps_cut cut n
  · simp only [State.act_cu, State.handle, State.putCu_cu, stands.cu]
    exact Cu.arrive_cut enabled

/-- A FAN_STALL that the Cutoff Unit does not take leaves the fan stalled, and nothing more (R66, R75, R76). -/
theorem thirdStall_known (known : s.cu.enabled .fanStall = false ∨ s.cu.flag = true ∧ s.cu.inSet .fanStall = true) :
    Ran { s with fc := s.fc.stalled } [(.fanStall, argPair s.fc.demand (min 255 (4 * s.fc.pulses)))]
      (s.run windowAct) := by
  have ignored : Handled (.edgeCause .fanStall) { s with fc := s.fc.stalled } { s with fc := s.fc.stalled } [] [] :=
    fun k before queue stands => by
      rw [State.handle, stands.cu, Cu.arrive_fanStall_known known]
      exact stands.putCu (s.cu, [])
  exact run_ran (thirdStall_stands calm due turns slow two) (.cons ignored (.nil _ _))

section

variable (enabled : s.cu.enabled .fanStall = true) (fresh : ¬ (s.cu.flag = true ∧ s.cu.inSet .fanStall = true))

include enabled fresh

/-- A FAN_STALL that is taken: where the fan has heard of the lamp. -/
theorem thirdStall_told : ∃ left k, StandsAt s.stallCut s.stallLog s.stallRest k ∧
    s.carry windowAct = State.drain left k := by
  have arrives : Stretch [.edgeCause .fanStall] { s with fc := s.fc.stalled }
      { s with fc := s.fc.stalled, cu := s.cu.stalled } [s.cu.stallEvent] s.cu.stallNotices :=
    .one fun k before queue stands => by
      obtain ⟨queued, logged⟩ := s.cu.stallNotices_waits
      have put := stands.putCu (s.cu.arrive .fanStall)
      rw [Cu.arrive_fanStall enabled fresh, loggedOf_log, queuedOf_log, queued, logged] at put
      rw [State.handle, stands.cu, Cu.arrive_fanStall enabled fresh]
      exact put
  have heard : Stretch (Lc.fanNotices s.lc s.stallLamp.1) s.stallLaid s.stallCut (loggedOf s.stallFan.2) [] := by
    rw [State.stallCut, State.stallFan, ← s.stallLaid_lc]
    exact .fanHears s.stallLaid s.lc
  have room : Config.cascadeFuel = 512 := rfl
  have seven := s.cu.stallNotices_length
  have one : (Lc.fanNotices s.lc s.stallLamp.1).length ≤ 1 := by unfold Lc.fanNotices; split <;> simp
  obtain ⟨left₁, k₁, stands₁, fuel₁, drains₁⟩ := arrives.drains (fuel := Config.cascadeFuel) (rest := [])
    (by simp [room]) (thirdStall_stands calm due turns slow two).act
  rw [List.length_singleton] at fuel₁
  obtain ⟨left₂, k₂, stands₂, fuel₂, drains₂⟩ := (Stretch.stalling s).drains (fuel := left₁) (rest := [])
    (by omega) (by simpa using stands₁)
  obtain ⟨left, k, stands, -, drains⟩ := heard.drains (fuel := left₂) (rest := s.stallRest) (by omega) stands₂
  refine ⟨left, k, ?_, drains₁.trans (drains₂.trans drains)⟩
  simpa only [State.stallLog, List.append_assoc, List.append_nil, List.singleton_append] using stands

/-- The fan hears nothing more. -/
theorem thirdStall_fan : (s.run windowAct).fc = s.stallFan.1 := by
  obtain ⟨left, k, stands, drains⟩ := thirdStall_told calm due turns slow two enabled fresh
  have stays : (State.drain left k).fc = k.fc := by
    by_cases flag : s.cu.flag = true
    · rw [State.drain_nil k left (stands.notices.trans (if_pos flag))]
    · have halted : k.ce.active = false := by
        rw [stands.ce, State.stallCut, State.stallLaid, if_neg flag]
        exact Ce.halt_inactive _ _
      refine drain_winds (g := true) (P := fun t => t.fc = k.fc) (fun _ _ _ same => same)
        (fun _ _ same step => step.fc.trans same) left halted nofun ?_ rfl
      rw [stands.notices, State.stallRest, if_neg flag]
      exact s.stallTold.laidRest_follows
  rw [State.run, State.settle_fc, drains, stays, stands.fc]
  rfl

/-- With nothing left to tell the command ends there. -/
theorem thirdStall_ran (silent : s.stallRest = []) : Ran s.stallCut s.stallLog (s.run windowAct) := by
  obtain ⟨left, k, stands, drains⟩ := thirdStall_told calm due turns slow two enabled fresh
  rw [silent] at stands
  exact ⟨k, stands, by rw [State.run, drains, State.drain_nil k left stands.notices]⟩

end

end

end Sys2Proof.Machine
end

section
/-! ## The fan after FAN_STALL, and what O20 says of the tachometer (03) -/

namespace Sys2Proof.Machine

open Sys2Proof.Safety

/-! ### A lamp that is out stays so through a cascade (R41, R51) -/

/-- The lamp is OFF, with no output. -/
def Lc.Out (lc : Lc) : Prop := lc.state = .off ∧ lc.output = 0

theorem Lc.recompute_isOut {lc : Lc} (off : lc.state = .off) : lc.recompute.Out :=
  ⟨(Lc.recompute_state lc).trans off, (Lc.recompute_output lc).trans (if_neg (by simp [off]))⟩

section

variable {lc : Lc} (out : lc.Out)

include out

theorem Lc.Out.takeDarken (outTime b : Nat) : (lc.takeDarken outTime b).Out := by
  unfold Lc.takeDarken
  dsimp only
  (repeat' split) <;> exact Lc.recompute_isOut out.1

theorem Lc.Out.takeSnap : lc.takeSnap.Out := by
  unfold Lc.takeSnap
  split
  · exact Lc.recompute_isOut out.1
  · exact out
  · exact out

theorem Lc.Out.takeRelease (inTime : Nat) : (lc.takeRelease inTime).Out := by
  rw [Lc.takeRelease_out (by simp [out.1]) (by simp [out.1])]
  split
  · exact out
  · exact Lc.recompute_isOut out.1

theorem Lc.Out.impose (new : LampImposition) (blackout inTime : Nat) : (lc.impose new blackout inTime).1.Out := by
  unfold Lc.impose
  dsimp only
  split
  · exact out
  · split
    · simp only [out.1]
      exact ⟨rfl, out.2⟩
    · exact Lc.recompute_isOut out.1
    · rw [if_neg (by simp [out.1]), if_neg (by simp [out.1])]
      exact Lc.recompute_isOut out.1

theorem Lc.Out.order (now : Bool) (level curve duration : Nat) : (lc.order now level curve duration).Out := by
  simp only [Lc.order, out.1]
  exact ⟨rfl, out.2⟩

end

/-- No notice strikes a lamp that is out. -/
theorem handle_out {s : State} (out : s.lc.Out) (n : Notice) : (State.handle n s).lc.Out := by
  have same {t : State} (lc : t.lc = s.lc) : t.lc.Out := lc ▸ out
  cases n with
  | deposit source kind => exact same (deposit_arbiterActs s source kind).lc
  | select => exact same (select_arbiterActs s).lc
  | outcome op result => exact same (takeOutcome_engineActs s op result).lc
  | deliver source result => exact same (deliver_engineActs s source result).lc
  | slotEmpty source => exact same (slotEmptied_engineActs s source).lc
  | terminalCount c => exact same (terminalCount_engineActs s c).lc
  | fifoJoined => exact same (lookTape_engineActs s).lc
  | progress => exact same (progress_engineActs s).lc
  | darken outTime level => simpa [State.handle] using out.takeDarken outTime level
  | snap => simpa [State.handle] using out.takeSnap
  | release inTime => simpa [State.handle] using out.takeRelease inTime
  | lampImposition i => simpa [State.handle] using out.impose i _ _
  | lampAction now level curve duration => simpa [State.handle] using out.order now level curve duration
  | _ => exact same (by simp [State.handle])

/-! ### The lamp under FAN_STALL (R51, R61, R77) -/

section

variable {s : State}

theorem State.stallLamp_estimate (s : State) : s.stallLamp.1.estimate = s.lc.estimate := by
  unfold State.stallLamp
  split
  · rfl
  · exact Lc.impose_estimate _ _ _ _

/-- OFF takes a lamp that neither strikes nor burns out of no group that the fan follows. -/
theorem Lc.impose_off_unheard {lc : Lc} (dark : ¬ (lc.state = .striking ∨ lc.state = .lit)) (blackout inTime : Nat) :
    Lc.fanNotices lc (lc.impose .off blackout inTime).1 = [] := by
  have estimate := lc.impose_estimate .off blackout inTime
  have group : (lc.impose .off blackout inTime).1.lampActive = lc.lampActive := by
    by_cases same : LampImposition.off = lc.imposition
    · rw [Lc.impose, if_pos same]
    · cases state : lc.state with
      | striking => exact absurd (.inl state) dark
      | lit => exact absurd (.inr state) dark
      | _ => simp [Lc.impose, Lc.lampActive_eq, Lc.enterOff, Lc.clearIntent, same, state]
  exact if_pos ⟨group.symm, (congrArg Lc.Estimate.h estimate).symm, (congrArg Lc.Estimate.derateStart estimate).symm⟩

theorem State.stallLamp_unheard (dark : ¬ (s.lc.state = .striking ∨ s.lc.state = .lit)) :
    Lc.fanNotices s.lc s.stallLamp.1 = [] := by
  unfold State.stallLamp
  split
  · exact fanNotices_eq_nil rfl rfl rfl
  · exact Lc.impose_off_unheard dark _ _

/-- OFF, where it is new, puts a lamp out that strikes or burns. -/
theorem Lc.impose_off_burning {lc : Lc} (new : lc.imposition ≠ .off) (burns : lc.state = .striking ∨ lc.state = .lit)
    (blackout inTime : Nat) : (lc.impose .off blackout inTime).1.Out ∧
      (lc.impose .off blackout inTime).2 = [.log .lampOff 1] := by
  have enters : lc.impose .off blackout inTime = Lc.enterOff { lc with imposition := .off, capLingers := false } 1 := by
    rcases burns with burns | burns <;> simp [Lc.impose, Ne.symm new, burns]
  rw [enters]
  exact ⟨Lc.recompute_isOut rfl, rfl⟩

end

/-! ### The fan under FAN_STALL (R61, R62, R68, R80) -/

/-- The fan stands stalled, with a demand. -/
structure Stuck (fc : Fc) : Prop where
  state : fc.state = .stalled
  windows : fc.stallWindows = 3
  driven : fc.demand ≠ 0

/-- A stalled fan stays stalled while its demand does not become 0 (R64, R67). -/
theorem Stuck.compute {fc : Fc} (stuck : Stuck fc) {h ds : Nat} {active : Bool} (wanted : fc.computed h ds active ≠ 0) :
    Stuck (fc.compute h ds active).1 := by
  rw [Fc.compute_goes (iff_of_false stuck.driven wanted), Fc.follow_fields]
  exact ⟨by simp [stuck.state], stuck.windows, wanted⟩

theorem Fc.computed_full {fc : Fc} (full : fc.full = true) (h ds : Nat) (active : Bool) : fc.computed h ds active ≠ 0 := by
  rw [Fc.computed, if_pos full]
  decide

theorem Fc.computed_hot {fc : Fc} {h : Nat} (hot : fc.coolDone < h) {ds : Nat}
    (base : baseDemand fc.minimum h ds ≠ 0) (active : Bool) : fc.computed h ds active ≠ 0 := by
  by_cases full : fc.full = true
  · exact Fc.computed_full full _ _ _
  · rw [Fc.computed, if_neg full, if_pos (.inr hot)]
    exact base

section

variable {s : State}

/-- Only an entry that drives the fan tells it so (R76, R80). -/
theorem State.stallLaid_undriven (kept : s.cu.flag = true ∨ s.cu.fanIgnore = true) : s.stallLaid.fc = s.fc.stalled := by
  unfold State.stallLaid
  split
  · rfl
  · next clear => exact congrArg Prod.fst (if_pos (kept.resolve_left clear))

/-- An entry that drives the fan tells it to run full (R80). -/
theorem State.stallLaid_driven (clear : s.cu.flag = false) (drives : s.cu.fanIgnore = false) :
    ∃ h ds active, s.stallLaid.fc = (s.fc.stalled.impose true h ds active).1 := by
  rw [State.stallLaid, if_neg (by simp [clear])]
  exact ⟨_, _, _, congrArg Prod.fst (if_neg (Bool.eq_false_iff.mp drives))⟩

/-- Where the fan stays stalled: the lamp goes out of no group, the fan runs full, or the lamp house is hot. -/
theorem State.stallFan_stuck (driven : s.fc.demand ≠ 0)
    (stays : ¬ (s.lc.state = .striking ∨ s.lc.state = .lit) ∨ s.fc.full = true ∨
      s.cu.flag = false ∧ s.cu.fanIgnore = false ∨
        s.fc.coolDone < s.lc.h ∧ baseDemand s.fc.minimum s.lc.h s.lc.derateStart ≠ 0) : Stuck s.stallFan.1 := by
  have stalled : Stuck s.fc.stalled := ⟨rfl, rfl, driven⟩
  have estimate := s.stallLamp_estimate
  unfold State.stallFan fanAfter
  by_cases drives : s.cu.flag = false ∧ s.cu.fanIgnore = false
  · obtain ⟨h, ds, active, laid⟩ := State.stallLaid_driven drives.1 drives.2
    have full : Stuck s.stallLaid.fc ∧ s.stallLaid.fc.full = true := by
      rw [laid]
      exact ⟨Stuck.compute (fc := { s.fc.stalled with full := true }) ⟨rfl, rfl, driven⟩ (Fc.computed_full rfl _ _ _),
        Fc.compute_full _ _ _ _⟩
    split
    · exact full.1
    · exact full.1.compute (Fc.computed_full full.2 _ _ _)
  · have laid : s.stallLaid.fc = s.fc.stalled := State.stallLaid_undriven (by
      by_contra neither
      simp only [not_or, Bool.not_eq_true] at neither
      exact drives neither)
    split
    · rw [laid]; exact stalled
    · next heard =>
      rw [laid]
      refine stalled.compute ?_
      rcases stays with dark | full | entry | ⟨hot, base⟩
      · exact absurd (State.stallLamp_unheard dark) heard
      · exact Fc.computed_full full _ _ _
      · exact absurd entry drives
      · rw [show s.stallLamp.1.h = s.lc.h from congrArg Lc.Estimate.h estimate,
          show s.stallLamp.1.derateStart = s.lc.derateStart from congrArg Lc.Estimate.derateStart estimate]
        exact Fc.computed_hot hot base _

/-- The lamp put out by FAN_STALL. -/
theorem State.stallLamp_out (unhanded : s.cu.lampHanded ≠ .off) (new : s.lc.imposition ≠ .off)
    (burns : s.lc.state = .striking ∨ s.lc.state = .lit) :
    s.stallLamp.1.Out ∧ s.stallLamp.2 = [.log .lampOff 1] := by
  rw [State.stallLamp, if_neg (by simpa using unhanded)]
  exact Lc.impose_off_burning new burns _ _

/-- A fan that nothing keeps running stops once a burning lamp goes out over a cool lamp house (R62, R64, R68). -/
theorem State.stallFan_stops (driven : s.fc.demand ≠ 0) (out : s.stallLamp.1.Out)
    (burns : s.lc.state = .striking ∨ s.lc.state = .lit) (kept : s.cu.flag = true ∨ s.cu.fanIgnore = true)
    (free : s.fc.full = false) (cool : s.lc.h ≤ s.fc.coolDone) :
    s.stallFan = ({ s.fc.stalled with demand := 0, state := .stopped, grace := 0, stallWindows := 0 },
      [.log .cooldownDone (halfOf s.lc.h)]) := by
  have dark : s.stallLamp.1.lampActive = false := by simp [Lc.lampActive_eq, out.1]
  have active : s.lc.lampActive = true := by rcases burns with burns | burns <;> simp [Lc.lampActive_eq, burns]
  have h : s.stallLamp.1.h = s.lc.h := congrArg Lc.Estimate.h s.stallLamp_estimate
  have heard : Lc.fanNotices s.lc s.stallLamp.1 ≠ [] := by simp [Lc.fanNotices, active, dark]
  have unwanted : s.fc.stalled.computed s.lc.h s.stallLamp.1.derateStart false = 0 := by
    have off : s.fc.stalled.full = false := free
    have cooled : ¬ s.fc.stalled.coolDone < s.lc.h := Nat.not_lt.mpr cool
    simp [Fc.computed, off, cooled]
  have stops := Fc.compute_stops (fc := s.fc.stalled) driven unwanted
  rw [if_pos ⟨free, rfl, cool⟩] at stops
  rw [State.stallFan, fanAfter, if_neg heard, dark, h, ← stops, ← State.stallLaid_undriven kept]

/-- In a cutoff in force, and in an entry that spares every other block, FAN_STALL reaches the lamp alone (R76 to R81). -/
theorem State.stallLaid_spared (spared : s.cu.flag = true ∨ s.cu.traySel = .ignore ∧ s.cu.tapeIgnore = true ∧
    s.cu.audioIgnore = true ∧ s.cu.fanIgnore = true ∧ s.ce.active = false) :
    s.stallLaid = s.stallTold ∧ s.stallRest = [] ∧
      s.stallLog = [(.fanStall, argPair s.fc.demand (min 255 (4 * s.fc.pulses))), s.cu.stallEvent] ++
        loggedOf s.stallLamp.2 ++ loggedOf s.stallFan.2 := by
  by_cases flag : s.cu.flag = true
  · simp [State.stallLaid, State.stallRest, State.stallLog, flag]
  · obtain ⟨tray, tape, sound, fan, idle⟩ := spared.resolve_left flag
    obtain ⟨laid, log, rest⟩ := Spared.laid (u := s.stallTold) ⟨tape, sound, fan, idle⟩ tray
    simp [State.stallLaid, State.stallRest, State.stallLog, flag, laid, log, rest]

end

/-! ### O20 -/

section

variable {s : State} (calm : s.notices = []) (due : s.fc.windowPhase = some 0)
  (turns : s.fc.state = .running ∨ s.fc.state = .cooldown)
  (slow : 64 ≤ s.fc.demand ∧ 4 * min 255 (4 * s.fc.pulses) < s.fc.demand) (two : 2 ≤ s.fc.stallWindows)

include calm due turns slow two

/-- A burning lamp is out at the end of the command, where OFF is new to it. -/
theorem thirdStall_out (enabled : s.cu.enabled .fanStall = true)
    (fresh : ¬ (s.cu.flag = true ∧ s.cu.inSet .fanStall = true)) (out : s.stallLamp.1.Out) : (s.run windowAct).lc.Out := by
  obtain ⟨left, k, stands, drains⟩ := thirdStall_told calm due turns slow two enabled fresh
  rw [State.run, State.settle_lc, drains]
  refine State.drain_keeps (P := fun t => t.lc.Out) (fun _ _ dark => dark) (fun t n dark => ?_) left k ?_
  · rw [State.act_lc]
    exact handle_out dark n
  · rw [stands.lc]
    exact s.stallLaid_lc ▸ out

/-- The fan stays stalled where its demand stays. -/
theorem thirdStall_stuck
    (stays : ¬ (s.lc.state = .striking ∨ s.lc.state = .lit) ∨ s.fc.full = true ∨
      s.cu.flag = false ∧ s.cu.fanIgnore = false ∨
        s.fc.coolDone < s.lc.h ∧ baseDemand s.fc.minimum s.lc.h s.lc.derateStart ≠ 0) :
    (s.run windowAct).fc.state = .stalled ∧ (s.run windowAct).fc.stallWindows = 3 := by
  by_cases known : s.cu.enabled .fanStall = false ∨ s.cu.flag = true ∧ s.cu.inSet .fanStall = true
  · rw [(thirdStall_known calm due turns slow two known).fc]
    exact ⟨rfl, rfl⟩
  · simp only [not_or, Bool.not_eq_false] at known
    rw [thirdStall_fan calm due turns slow two known.1 known.2]
    have stuck := State.stallFan_stuck (by omega) stays
    exact ⟨stuck.state, stuck.windows⟩

end

/-- Settles O20: the pulse, and the window's end by the fan's state; the third stall window by whether FAN_STALL is taken,
and then by the fan's demand once the lamp is told. -/
theorem fanMeasured : Obligations.FanMeasured := by
  intro s calm
  refine ⟨⟨_, rfl, putFc_quiet s calm (s.fc.pulse, []) rfl _ rfl⟩, fun early => ⟨_, execMeasurementWindowEnd_eq s, ?_⟩, ?_⟩
  · have still : StandsAt s [] [] (windowAct s) := by
      rw [windowAct_early early]
      exact .refl calm
    exact (run_ran_quiet still).effect rfl fun p _ => by cases p <;> simp [Part.same]
  · rintro due speed rfl active activeEq stall rfl turning turningEq
    rw [← Lc.lampActive_eq] at activeEq
    subst activeEq
    obtain rfl : turning = turningState s.lc.lampActive := turningEq
    have tachometer := windowEnd_tachometer due
    refine ⟨_, execMeasurementWindowEnd_eq s, congrArg Prod.fst tachometer, congrArg (·.2.1) tachometer,
      congrArg (·.2.2) tachometer, fun stopped => ?_, fun spinup => ?_, fun turns fast => ?_, fun turns slow few => ?_,
      fun turns slow two burning burns => ?_, fun stalled => ?_⟩
    · exact windowEnd_quiet calm due (Fc.check_stopped (fc := s.fc.measured) stopped)
    · exact windowEnd_quiet calm due (Fc.check_spinup (fc := s.fc.measured) spinup)
    · exact windowEnd_quiet calm due (Fc.check_kept (fc := s.fc.measured) turns ((Fc.stalls_eq _).trans fast))
    · exact windowEnd_quiet calm due (Fc.check_counted (fc := s.fc.measured) turns ((Fc.stalls_eq _).trans slow) few)
    · replace slow := of_decide_eq_true slow
      subst burns
      have driven : s.fc.demand ≠ 0 := by omega
      refine ⟨thirdStall_cuts calm due turns slow two, fun known => ?_, fun stays => ?_, ?_⟩
      · have ran := thirdStall_known calm due turns slow two known
        exact ⟨ran.fc, ran.effect rfl fun p hp => by cases p <;> simp [Part.same] at hp ⊢⟩
      · exact thirdStall_stuck calm due turns slow two (stays.imp_left of_decide_eq_false)
      · intro enabled absent burns unhanded new free kept cool
        have burns := of_decide_eq_true burns
        have fresh : ¬ (s.cu.flag = true ∧ s.cu.inSet .fanStall = true) := by simp [absent]
        obtain ⟨out, off⟩ := State.stallLamp_out unhanded new burns
        have stops := State.stallFan_stops driven out burns kept free cool
        obtain ⟨state, output⟩ := thirdStall_out calm due turns slow two enabled fresh out
        refine ⟨?_, state, output, fun spared => ?_⟩
        · rw [thirdStall_fan calm due turns slow two enabled fresh, stops]
          rfl
        · obtain ⟨laid, rest, log⟩ := State.stallLaid_spared (s := s) (by tauto)
          have ran := thirdStall_ran calm due turns slow two enabled fresh rest
          rw [log, off, stops, State.stallCut, laid] at ran
          exact ran.effect rfl fun p hp => by cases p <;> simp [Part.same, State.stallTold] at hp ⊢
    · exact windowEnd_quiet calm due (Fc.check_recovers (fc := s.fc.measured) stalled)

end Sys2Proof.Machine
end

section
/-! ## The Cutoff Unit's arrivals (04): what they change, and what they keep lawful -/

namespace Sys2Proof.Machine

open Sys2Proof.Safety

/-! ### What an arrival leaves unchanged (R75, R76) -/

/-- The flag, the set and the imposition handed to the lamp alone differ. -/
def Cu.SameSettings (cu cu' : Cu) : Prop :=
  cu' = { cu with flag := cu'.flag, causes := cu'.causes, lampHanded := cu'.lampHanded }

namespace Cu.SameSettings

theorem refl (cu : Cu) : cu.SameSettings cu := rfl

theorem trans {a b c : Cu} (h : a.SameSettings b) (k : b.SameSettings c) : a.SameSettings c := by
  rw [Cu.SameSettings, k, h]

variable {cu cu' : Cu} (h : cu.SameSettings cu')

include h

theorem enables : cu'.enables = cu.enables := by rw [h]

theorem enabled (c : Cause) : cu'.enabled c = cu.enabled c := by rw [h]; rfl

theorem present (c : Cause) : cu'.present c = cu.present c := by rw [h]; cases c <;> rfl

end Cu.SameSettings

theorem Cu.handLamp_same (cu : Cu) : cu.SameSettings cu.handLamp.1 := by
  unfold Cu.handLamp
  dsimp only
  split <;> rfl

theorem Cu.take_same (cu : Cu) (c : Cause) : cu.SameSettings (cu.take c).1 := by
  unfold Cu.take
  dsimp only
  split
  · exact (Cu.SameSettings.refl _).trans (Cu.handLamp_same { cu with flag := true, causes := cu.causes ||| c.bit })
  · split
    · exact .refl cu
    · exact (Cu.SameSettings.refl _).trans (Cu.handLamp_same { cu with causes := cu.causes ||| c.bit })

theorem Cu.arrive_same (cu : Cu) (c : Cause) : cu.SameSettings (cu.arrive c).1 := by
  unfold Cu.arrive
  split
  · exact cu.take_same c
  · exact .refl cu

/-- Several causes arrive one after another. -/
theorem Cu.arriveAll_cons (cu : Cu) (c : Cause) (cs : List Cause) :
    cu.arriveAll (c :: cs) = (cu.arrive c).andThen fun next => next.arriveAll cs := by
  have behind (cs : List Cause) (r : Reaction Cu) :
      cs.foldl (fun r c => let next := Cu.arrive r.1 c; (next.1, r.2 ++ next.2)) r = r.andThen (·.arriveAll cs) := by
    induction cs generalizing r with
    | nil => simp [Reaction.andThen, Cu.arriveAll]
    | cons c cs ih =>
      have first (cu : Cu) : cu.arriveAll (c :: cs) = Reaction.andThen (_, [] ++ (cu.arrive c).2) (·.arriveAll cs) := ih _
      simp only [List.foldl_cons, ih, first, Reaction.andThen, List.append_assoc, List.nil_append]
  exact behind cs (cu.arrive c)

theorem Cu.arriveAll_same (cu : Cu) (cs : List Cause) : cu.SameSettings (cu.arriveAll cs).1 := by
  induction cs generalizing cu with
  | nil => exact .refl cu
  | cons c cs ih =>
    rw [Cu.arriveAll_cons]
    exact (cu.arrive_same c).trans (ih _)

/-- A cause that arrives brings no other. -/
theorem Cu.arriveAll_calm (cu : Cu) (cs : List Cause) : Calm (cu.arriveAll cs).2 := by
  induction cs generalizing cu with
  | nil => exact calm_nil
  | cons c cs ih =>
    rw [Cu.arriveAll_cons]
    exact (calm_append _ _).mpr ⟨cu.arrive_calm c, ih _⟩

/-! ### The set (R74 to R76) -/

/-- Each cause has a bit of its own (10, section 10.7). -/
theorem Cause.bit_apart {c c' : Cause} (other : c' ≠ c) : c.bit &&& c'.bit = 0 := by
  revert other
  cases c <;> cases c' <;> decide

theorem Cu.inSet_join (cu : Cu) (c c' : Cause) :
    Cu.inSet { cu with causes := cu.causes ||| c.bit } c' = (cu.inSet c' || c' == c) := by
  by_cases same : c' = c
  · subst same
    simp [cu.inSet_added c']
  · have apart : (cu.causes ||| c.bit) &&& c'.bit = cu.causes &&& c'.bit := by
      rw [BitVec.and_or_distrib_right, Cause.bit_apart same]
      exact BitVec.or_zero
    simp [Cu.inSet, apart, same]

/-- An enabled cause joins the set, and each other cause stands there as before. -/
theorem Cu.arrive_inSet (cu : Cu) (c c' : Cause) :
    (cu.arrive c).1.inSet c' = (cu.inSet c' || cu.enabled c && c' == c) := by
  unfold Cu.arrive
  split
  · next enabled =>
    obtain ⟨_, causes, _⟩ := cu.take_fields c
    rw [enabled, Bool.true_and]
    rcases causes with added | ⟨known, same⟩
    · rw [← Cu.inSet_join]
      simp only [Cu.inSet, added]
    · have stands : (cu.take c).1.inSet c' = cu.inSet c' := by simp only [Cu.inSet, same]
      rw [stands]
      by_cases here : c' = c
      · simp [here, known]
      · simp [here]
  · next disabled => simp [disabled]

theorem Cu.arriveAll_inSet {cu : Cu} {cs : List Cause} (enabled : ∀ c ∈ cs, cu.enabled c = true) (c : Cause) :
    (cu.arriveAll cs).1.inSet c = (cu.inSet c || cs.contains c) := by
  induction cs generalizing cu with
  | nil => simp [Cu.arriveAll]
  | cons d cs ih =>
    rw [List.forall_mem_cons] at enabled
    rw [Cu.arriveAll_cons]
    refine (ih fun e he => ?_).trans ?_
    · rw [(cu.arrive_same d).enabled]
      exact enabled.2 e he
    · rw [Cu.arrive_inSet, enabled.1, List.contains_cons, Bool.true_and, Bool.or_assoc]

theorem Cu.arrive_flag {cu : Cu} (flag : cu.flag = true) (c : Cause) : (cu.arrive c).1.flag = true := by
  unfold Cu.arrive
  split
  · exact (cu.take_fields c).1
  · exact flag

theorem Cu.arriveAll_flag {cu : Cu} (flag : cu.flag = true) (cs : List Cause) : (cu.arriveAll cs).1.flag = true := by
  induction cs generalizing cu with
  | nil => exact flag
  | cons c cs ih =>
    rw [Cu.arriveAll_cons]
    exact ih (Cu.arrive_flag flag c)

/-! ### What the arrivals keep lawful (R74, R77, R83) -/

/-- The laws of the cutoff while these causes are still to arrive. -/
structure Cu.Lawful (owed : List Cause) (cu : Cu) : Prop where
  flag : cu.flag = false ↔ cu.causes = 0
  law : ∀ c, cu.enabled c = true → cu.present c = true → cu.inSet c = true ∨ c ∈ owed
  handed : cu.lampHanded = cu.lampImposition

theorem Cu.lawful_nil_iff (cu : Cu) : cu.Lawful [] ↔ Cutoff cu :=
  ⟨fun h => ⟨h.flag, fun c e p => (h.law c e p).resolve_right nofun, h.handed⟩,
    fun h => ⟨h.flag, fun c e p => .inl (h.law c e p), h.handed⟩⟩

/-- A cause in the set is a bit of it. -/
theorem Cu.causes_ne_zero {cu : Cu} {c : Cause} (inSet : cu.inSet c = true) : cu.causes ≠ 0 := by
  rintro empty
  simp [Cu.inSet, empty] at inSet

theorem Cu.handLamp_handed (cu : Cu) : cu.handLamp.1.lampHanded = cu.handLamp.1.lampImposition := by
  unfold Cu.handLamp
  dsimp only
  split
  · next same => exact same.symm
  · rfl

theorem Cu.arrive_handed {cu : Cu} (handed : cu.lampHanded = cu.lampImposition) (c : Cause) :
    (cu.arrive c).1.lampHanded = (cu.arrive c).1.lampImposition := by
  unfold Cu.arrive Cu.take
  dsimp only
  split
  · split
    · exact Cu.handLamp_handed _
    · split
      · exact handed
      · exact Cu.handLamp_handed _
  · exact handed

/-- A cause that was still to arrive has arrived. -/
theorem Cu.Lawful.arrive {cu : Cu} {c : Cause} {owed : List Cause} (h : cu.Lawful (c :: owed)) :
    (cu.arrive c).1.Lawful owed := by
  refine ⟨?_, fun d enabled present => ?_, Cu.arrive_handed h.handed c⟩
  · by_cases enabled : cu.enabled c = true
    · obtain ⟨flag, inSet⟩ := Cu.arrive_cut enabled
      exact iff_of_false (by simp [flag]) (Cu.causes_ne_zero inSet)
    · rw [Cu.arrive, if_neg enabled]
      exact h.flag
  · rw [(cu.arrive_same c).enabled] at enabled
    rw [(cu.arrive_same c).present] at present
    rw [Cu.arrive_inSet]
    rcases h.law d enabled present with inSet | owes
    · simp [inSet]
    · rcases List.mem_cons.mp owes with rfl | later
      · simp [enabled]
      · exact .inr later

theorem Cu.Lawful.arriveAll {cu : Cu} {cs : List Cause} (h : cu.Lawful cs) : Cutoff (cu.arriveAll cs).1 := by
  induction cs generalizing cu with
  | nil => exact cu.lawful_nil_iff.mp h
  | cons c cs ih =>
    rw [Cu.arriveAll_cons]
    exact ih h.arrive

theorem Cu.arrive_cutoff {cu : Cu} (sound : Cutoff cu) (c : Cause) : Cutoff (cu.arrive c).1 := by
  have h := cu.lawful_nil_iff.mpr sound
  exact (Cu.lawful_nil_iff _).mp
    (Cu.Lawful.arrive ⟨h.flag, fun d e p => .inl ((h.law d e p).resolve_right nofun), h.handed⟩)

/-! ### Every act of the Cutoff Unit keeps it sound -/

theorem Cu.setValue_present {cu : Cu} {c d : Cause} {v : Bool} (present : (cu.setValue c v).present d = true) :
    cu.present d = true ∨ d = c ∧ v = true := by
  by_cases same : d = c
  · subst same
    cases d <;> simp_all [Cu.setValue, Cu.present]
  · refine .inl ?_
    cases c <;> cases d <;> first | exact present | exact absurd rfl same

theorem Cu.setValue_lamp (cu : Cu) (c : Cause) (v : Bool) :
    (cu.setValue c v).lampHanded = cu.lampHanded ∧ (cu.setValue c v).lampImposition = cu.lampImposition := by
  cases c <;> exact ⟨rfl, rfl⟩

/-- A level cause may be reported at any time (R72). -/
theorem Cu.report_cutoff {cu : Cu} (sound : Cutoff cu) (c : Cause) (v : Bool) : Cutoff (cu.report c v).1 := by
  obtain ⟨flag, causes, enables, _⟩ := cu.setValue_fields c v
  obtain ⟨handed, imposition⟩ := cu.setValue_lamp c v
  have lawful (owed : List Cause) (new : ∀ d, d = c → v = true → cu.present d = true ∨ d ∈ owed) :
      (cu.setValue c v).Lawful owed := by
    refine ⟨by rw [flag, causes]; exact sound.flag, fun d enabled present => ?_,
      by rw [handed, imposition]; exact sound.handed⟩
    have before : cu.present d = true ∨ d ∈ owed := by
      rcases Cu.setValue_present present with old | ⟨same, value⟩
      · exact .inl old
      · exact new d same value
    refine before.imp_left fun old => ?_
    simpa only [Cu.inSet, causes] using sound.law d (by simpa only [Cu.enabled, enables] using enabled) old
  unfold Cu.report
  split
  · exact (Cu.lawful_nil_iff _).mp (lawful [c] fun d same _ => .inr (by simp [same])).arrive
  · next old =>
    refine (Cu.lawful_nil_iff _).mp (lawful [] fun d same value => .inl ?_)
    by_contra absent
    exact old ⟨value, by simpa [same] using absent⟩

theorem Cu.filterExpiry_cutoff {cu : Cu} (sound : Cutoff cu) (input : FilteredInput) : Cutoff (cu.filterExpiry input).1 := by
  unfold Cu.filterExpiry
  split
  · split
    · exact Cu.report_cutoff (cu := { cu with thswTimer := none }) ⟨sound.flag, sound.law, sound.handed⟩ _ _
    · exact sound
  · split
    · exact Cu.report_cutoff (cu := { cu with ilockTimer := none }) ⟨sound.flag, sound.law, sound.handed⟩ _ _
    · exact sound

/-- The selections are set only where no imposition is in force (R77, R82). -/
theorem Cu.select_cutoff {cu : Cu} (sound : Cutoff cu) (b0 b1 : Byte) : Cutoff (cu.select b0 b1).1 := by
  unfold Cu.select
  split
  · exact sound
  · next clear =>
    have free : cu.lampHanded = .none := sound.handed.trans (if_pos clear)
    (repeat' split) <;> first | exact sound | exact ⟨sound.flag, sound.law, free.trans (if_pos clear).symm⟩

theorem Cause.mem_levels_of_present {cu : Cu} {c : Cause} (present : cu.present c = true) : c ∈ Cause.levels := by
  cases c <;> first | decide | cases present

/-- What newly enabled causes that are present still owe, CUTOFF_ENABLE brings in (R83). -/
theorem Cu.enable_cutoff {cu : Cu} (sound : Cutoff cu) (enables : Byte) : Cutoff (cu.enable enables).1 := by
  refine Cu.Lawful.arriveAll ⟨sound.flag, fun c enabled present => ?_, sound.handed⟩
  by_cases inSet : cu.inSet c = true
  · exact .inl inSet
  · have disabled : cu.enabled c = false := by
      by_contra before
      exact inSet (sound.law c (by simpa using before) (by cases c <;> exact present))
    refine .inr (List.mem_filter.mpr ⟨Cause.mem_levels_of_present present, ?_⟩)
    have absent : Cu.inSet { cu with enables := enables } c = false := Bool.eq_false_iff.mpr inSet
    simp [disabled, enabled, present, absent]

theorem Cu.force_cutoff {cu : Cu} (sound : Cutoff cu) : Cutoff cu.force.1.1 := by
  unfold Cu.force
  split
  · exact Cu.arrive_cutoff sound _
  · exact sound

/-- A clear is taken only where no enabled level cause is present (R85). -/
theorem Cu.clear_cutoff {cu : Cu} (sound : Cutoff cu) : Cutoff cu.clear.1.1 := by
  by_cases flag : cu.flag = true
  · by_cases free : cu.blocking = 0
    · rw [Cu.clear_done flag free]
      refine ⟨iff_of_true rfl rfl, fun c enabled present => ?_, rfl⟩
      have held : cu.inSet c = true ∧ cu.present c = true := by
        have present : cu.present c = true := by cases c <;> exact present
        exact ⟨sound.law c enabled present, present⟩
      have sum := cu.blocking_toNat rfl
      rw [free] at sum
      have bit (n : Nat) : flagBit (cu.inSet c && cu.present c) n ≠ 0 := by simp [flagBit, held]
      have zero : (0 : Byte).toNat = 0 := rfl
      cases c with
      | overheat => have := bit 0; omega
      | thermostat => have := bit 1; omega
      | interlock => have := bit 2; omega
      | trayLost => have := bit 3; omega
      | _ => cases held.2
    · rw [Cu.clear, if_neg (by simp [flag]), if_pos free]
      exact sound
  · rw [Cu.clear, if_pos flag]
    exact sound

/-- At the end of a reset every level cause that is present has arrived (R87, R88). -/
theorem Cu.evaluate_cutoff (thsw ilock overheat trayLost : Bool) :
    Cutoff (Cu.fresh thsw ilock overheat trayLost).evaluate.1 :=
  Cu.Lawful.arriveAll ⟨iff_of_true rfl rfl,
    fun _ _ present => .inr (List.mem_filter.mpr ⟨Cause.mem_levels_of_present present, present⟩), rfl⟩

end Sys2Proof.Machine
end

section
/-! ## Who reports a level cause (R72)

Only the heat estimate reports OVERHEAT and only the tray code TRAY_LOST. Every other reaction of a block leaves both
values as they are and reports neither. -/

namespace Sys2Proof.Machine

open Sys2Proof.Safety

/-! ### Notices that report no level cause -/

/-- The notice reports a level cause to the Cutoff Unit. -/
def Notice.reports : Notice → Bool
  | .levelCause _ _ => true
  | _ => false

/-- None of these notices reports a level cause. -/
def Reportless (ns : List Notice) : Prop := ∀ n ∈ ns, n.reports = false

@[simp] theorem reportless_nil : Reportless [] := nofun

@[simp] theorem reportless_cons (n : Notice) (ns : List Notice) :
    Reportless (n :: ns) ↔ n.reports = false ∧ Reportless ns := List.forall_mem_cons

@[simp] theorem reportless_append (a b : List Notice) : Reportless (a ++ b) ↔ Reportless a ∧ Reportless b :=
  List.forall_mem_append

theorem Reportless.queued {ns : List Notice} (h : Reportless ns) : Reportless (queuedOf ns) :=
  fun n hn => h n (List.mem_of_mem_filter hn)

theorem Calm.reportless {ns : List Notice} (h : Calm ns) : Reportless ns := fun n hn => by
  have calm := h n hn
  cases n <;> first | rfl | cases calm

theorem Routine.reportless {ns : List Notice} (h : Routine ns) : Reportless ns :=
  Calm.reportless fun n hn => Notice.raises_of_routine (h n hn)

/-! ### The mechanism -/

/-- The reaction leaves TRAY_LOST as it is, and reports no level cause. -/
def Tmc.KeepsTray (t : Tmc) (r : Reaction Tmc) : Prop := r.1.trayLost = t.trayLost ∧ Reportless r.2

section

variable {t : Tmc}

theorem Tmc.KeepsTray.none {t' : Tmc} (same : t'.trayLost = t.trayLost) : t.KeepsTray (t', []) := ⟨same, reportless_nil⟩

/-- Notices that report nothing may come before those of a reaction. -/
theorem Tmc.KeepsTray.after {r : Reaction Tmc} (h : t.KeepsTray r) {ns : List Notice} (first : Reportless ns) :
    t.KeepsTray (r.1, ns ++ r.2) := ⟨h.1, (reportless_append _ _).mpr ⟨first, h.2⟩⟩

theorem Tmc.conclude_keepsTray (result : OpOutcome) {events : List Notice} (h : Reportless events) :
    t.KeepsTray (t.conclude result events) := by
  unfold Tmc.conclude
  split
  · exact ⟨rfl, h⟩
  · exact ⟨rfl, by simpa [Notice.reports] using h⟩

theorem Tmc.endNoDrop_keepsTray : t.KeepsTray t.endNoDrop :=
  Tmc.conclude_keepsTray (t := { t with
    state := if t.opKind == some .clearGate && t.fromUnhomed then .unhomed else .ready, motor := .unpowered
    lifter := t.opKind == some .clearGate && t.lifter, positionTimer := .none }) .done (by simp [Notice.reports])

theorem Tmc.shortPath_keepsTray : t.KeepsTray t.shortPath :=
  Tmc.conclude_keepsTray (t := { t with state := .ready }) .done (by simp [Notice.reports])

theorem Tmc.jam_keepsTray : t.KeepsTray t.jam :=
  Tmc.conclude_keepsTray
    (t := Tmc.unhome { t.stopTimers with state := .jammed, motor := t.rest, lifter := false, homing := false }) .jammed
    (by simp [Notice.reports])

theorem Tmc.enterDrop_trayLost : t.enterDrop.trayLost = t.trayLost := by
  unfold Tmc.enterDrop
  dsimp only
  split <;> rfl

theorem Tmc.turnEnd_keepsTray : t.KeepsTray t.turnEnd := by
  unfold Tmc.turnEnd
  dsimp only
  split
  · exact Tmc.endNoDrop_keepsTray (t := { t with motor := .unpowered, positionTimer := .none })
  · exact .none (Tmc.enterDrop_trayLost (t := { t with motor := .unpowered, positionTimer := .none }))

theorem Tmc.homingFound_keepsTray : t.KeepsTray t.homingFound := by
  have logged : Reportless [.log .homed (argPair t.reportedSource 0)] := by simp [Notice.reports]
  unfold Tmc.homingFound
  dsimp only
  split
  · exact Tmc.conclude_keepsTray (t := { foundHome t with state := .ready, lifter := false }) .done logged
  · exact Tmc.KeepsTray.after (Tmc.endNoDrop_keepsTray (t := foundHome t)) logged
  · split
    · exact Tmc.KeepsTray.after (Tmc.turnEnd_keepsTray (t := foundHome t)) logged
    · exact ⟨rfl, logged⟩

theorem Tmc.startHoming_keepsTray : t.KeepsTray t.startHoming := by
  unfold Tmc.startHoming
  split
  · exact Tmc.homingFound_keepsTray
  · exact .none rfl

theorem Tmc.afterLift_keepsTray : t.KeepsTray t.afterLift := by
  unfold Tmc.afterLift
  split
  · exact Tmc.startHoming_keepsTray
  · exact Tmc.endNoDrop_keepsTray
  · split
    · exact Tmc.turnEnd_keepsTray
    · exact .none rfl

theorem Tmc.liftDone_keepsTray : t.KeepsTray t.liftDone :=
  Tmc.afterLift_keepsTray (t := { t with liftTimer := .none, lowerTimer := .none, gate := .empty })

theorem Tmc.enterLift_keepsTray : t.KeepsTray t.enterLift := by
  unfold Tmc.enterLift
  dsimp only
  split
  · exact Tmc.liftDone_keepsTray (t := { t with state := .lift, lifter := true, lowerTimer := .none, dropTimer := .none })
  · exact .none rfl

theorem Tmc.endDarken_keepsTray : t.KeepsTray t.endDarken := by
  unfold Tmc.endDarken
  dsimp only
  split
  · exact Tmc.enterLift_keepsTray (t := { t with darkenLimit := .none })
  · exact Tmc.afterLift_keepsTray (t := { t with darkenLimit := .none })

theorem Tmc.begin_keepsTray (op : Operation) : t.KeepsTray (t.begin op) := by
  refine ⟨?_, (t.begin_routine op).reportless⟩
  unfold Tmc.begin
  dsimp only
  split
  · rfl
  · rfl
  · split
    · exact Tmc.shortPath_keepsTray.1
    · rfl

theorem Tmc.preempt_keepsTray (op : Operation) : t.KeepsTray (t.preempt op) := by
  refine ⟨?_, (t.preempt_routine op).reportless⟩
  unfold Tmc.preempt Tmc.preemptDarken Tmc.preemptTurn
  dsimp only
  split
  · split
    · rfl
    · rfl
    · split
      · exact Tmc.shortPath_keepsTray.1
      · rfl
  · rfl

theorem Tmc.cutoff_keepsTray (sel : TraySelection) : t.KeepsTray (t.cutoff sel) := by
  refine ⟨?_, (t.cutoff_routine sel).reportless⟩
  have conclude (u : Tmc) (result : OpOutcome) (events : List Notice) : (u.conclude result events).1.trayLost = u.trayLost := by
    unfold Tmc.conclude
    split <;> rfl
  unfold Tmc.cutoff Tmc.abort
  dsimp only
  (repeat' split) <;> first | rfl | exact conclude _ _ _

theorem Tmc.clear_keepsTray : t.KeepsTray t.clear := by
  rw [Tmc.clear_eq]
  exact .none rfl

theorem Tmc.takeReport_keepsTray : t.KeepsTray t.takeReport := by
  unfold Tmc.takeReport
  split
  · exact Tmc.endDarken_keepsTray
  · exact .none rfl

theorem Tmc.darkenLate_keepsTray : t.KeepsTray t.darkenLate := by
  unfold Tmc.darkenLate
  split
  · exact ⟨rfl, by simp [Notice.reports]⟩
  · exact .none rfl

theorem Tmc.ltopActive_keepsTray : t.KeepsTray t.ltopActive := by
  unfold Tmc.ltopActive
  dsimp only
  split
  · exact Tmc.liftDone_keepsTray (t := { t with sensors := { t.sensors with ltop := true } })
  · exact .none rfl

theorem Tmc.liftExpiry_keepsTray : t.KeepsTray t.liftExpiry := by
  unfold Tmc.liftExpiry
  split
  · split
    · exact Tmc.jam_keepsTray
    · exact ⟨rfl, by simp [Notice.reports]⟩
  · exact .none rfl

theorem Tmc.loweringEnd_keepsTray : t.KeepsTray t.loweringEnd := by
  unfold Tmc.loweringEnd
  split
  · exact Tmc.enterLift_keepsTray
  · exact .none rfl

theorem Tmc.arriveHoming_keepsTray : t.KeepsTray t.arriveHoming := by
  unfold Tmc.arriveHoming
  dsimp only
  split
  · exact Tmc.homingFound_keepsTray (t := { t with arrivals := t.arrivals + 1, positionTimer := some 250 })
  · split
    · exact Tmc.jam_keepsTray (t := { t with arrivals := t.arrivals + 1, positionTimer := some 250 })
    · exact .none rfl

theorem Tmc.actRedirect_keepsTray : t.KeepsTray t.actRedirect := by
  unfold Tmc.actRedirect
  dsimp only
  split
  · exact Tmc.endNoDrop_keepsTray (t := { t with redirect := false })
  · split
    · exact Tmc.homingFound_keepsTray (t := Tmc.unhome { t with redirect := false, homing := true, arrivals := 0 })
    · exact .none rfl
  · split
    · exact Tmc.turnEnd_keepsTray (t := { t with redirect := false })
    · exact .none rfl

theorem Tmc.count_trayLost : t.count.trayLost = t.trayLost := by
  unfold Tmc.count
  split <;> rfl

theorem Tmc.arriveCounting_keepsTray : t.KeepsTray t.arriveCounting := by
  rw [Tmc.KeepsTray, ← Tmc.count_trayLost (t := t)]
  unfold Tmc.arriveCounting
  generalize t.count = k
  show k.KeepsTray _
  dsimp only
  split
  · refine Tmc.KeepsTray.after (ns := [.dirty 1, .log .positionSlip (halfOf k.p)]) ?_ (by simp [Notice.reports])
    split
    · exact Tmc.actRedirect_keepsTray (t := { k with positionTimer := some 250, p := 0, display := 0 })
    · split
      · exact Tmc.turnEnd_keepsTray (t := { k with positionTimer := some 250, p := 0, display := 0 })
      · exact .none rfl
  · split
    · exact ⟨rfl, by simp [Notice.reports]⟩
    · split
      · exact Tmc.actRedirect_keepsTray (t := { k with positionTimer := some 250 })
      · split
        · exact Tmc.turnEnd_keepsTray (t := { k with positionTimer := some 250 })
        · exact .none rfl

theorem Tmc.arrive_keepsTray (thome : Bool) : t.KeepsTray (t.arrive thome) := by
  unfold Tmc.arrive
  dsimp only
  split
  · split
    · exact Tmc.arriveHoming_keepsTray (t := { t with sensors := { t.sensors with thome := thome } })
    · exact Tmc.arriveCounting_keepsTray (t := { t with sensors := { t.sensors with thome := thome } })
  · exact .none rfl

theorem Tmc.positionExpiry_keepsTray : t.KeepsTray t.positionExpiry := by
  unfold Tmc.positionExpiry
  split
  · exact Tmc.jam_keepsTray
  · exact .none rfl

theorem Tmc.gseatActive_keepsTray : t.KeepsTray t.gseatActive := by
  unfold Tmc.gseatActive
  dsimp only
  split <;> exact .none rfl

theorem Tmc.dropExpiry_keepsTray (gslide : Bool) : t.KeepsTray (t.dropExpiry gslide) := by
  unfold Tmc.dropExpiry
  dsimp only
  split
  · split
    · exact .none rfl
    · split
      · exact Tmc.jam_keepsTray (t := { t with sensors := { t.sensors with gslide := gslide } })
      · exact Tmc.KeepsTray.after (ns := [.dirty 1, .log .seatRetry _]) (Tmc.enterLift_keepsTray
          (t := { t with sensors := { t.sensors with gslide := gslide }, seatRetried := true
                         seatRetryCount := satInc 255 t.seatRetryCount, dropTimer := .none })) (by simp [Notice.reports])
  · exact .none rfl

theorem Tmc.settleEnd_keepsTray : t.KeepsTray t.settleEnd := by
  unfold Tmc.settleEnd
  dsimp only
  split
  · exact Tmc.KeepsTray.after (ns := [.release t.inTime]) (Tmc.conclude_keepsTray
      (t := { t with state := .ready, settleTimer := .none, darkenStanding := false }) _ (by simp [Notice.reports]))
      (by simp [Notice.reports])
  · exact .none rfl

theorem Tmc.changeProfile_keepsTray (outTime inTime blackout : Byte) :
    t.KeepsTray (t.changeProfile outTime inTime blackout).1 := by
  unfold Tmc.changeProfile
  split
  · exact .none rfl
  · exact ⟨rfl, by simp [Notice.reports]⟩

end

/-! ### The lamp -/

/-- The reaction leaves OVERHEAT as it is, and reports no level cause. -/
def Lc.KeepsHeat (lc : Lc) (r : Reaction Lc) : Prop := r.1.overheat = lc.overheat ∧ Reportless r.2

@[simp] theorem Lc.recompute_overheat (lc : Lc) : lc.recompute.overheat = lc.overheat :=
  congrArg Lc.Estimate.overheat lc.recompute_estimate

section

variable {lc : Lc}

theorem Lc.enterOff_keepsHeat (arg : Half) : lc.KeepsHeat (lc.enterOff arg) :=
  ⟨Lc.recompute_overheat _, by simp [Lc.enterOff, Notice.reports]⟩

theorem Lc.strikeOrWait_keepsHeat : lc.KeepsHeat lc.strikeOrWait := by
  unfold Lc.strikeOrWait Lc.enterStriking
  split <;> exact ⟨Lc.recompute_overheat _, by simp [Notice.reports]⟩

theorem Lc.fail_keepsHeat : lc.KeepsHeat lc.fail := by
  unfold Lc.fail Lc.enterExchange Lc.clearIntent
  dsimp only
  split
  · refine ⟨?_, by simp [Notice.reports]⟩
    split <;> exact Lc.recompute_overheat _
  · exact ⟨Lc.recompute_overheat _, by simp [Notice.reports]⟩

theorem Lc.on_keepsHeat : lc.KeepsHeat lc.on.1 := by
  unfold Lc.on Lc.enterExchange
  split
  · exact ⟨rfl, reportless_nil⟩
  · split
    · split
      · exact Lc.strikeOrWait_keepsHeat
      · exact ⟨Lc.recompute_overheat _, reportless_nil⟩
    all_goals exact ⟨rfl, reportless_nil⟩

theorem Lc.off_keepsHeat : lc.KeepsHeat lc.off := by
  unfold Lc.off
  split <;> first | exact Lc.enterOff_keepsHeat 0 | exact ⟨rfl, reportless_nil⟩

theorem Lc.moveEnd_keepsHeat : lc.KeepsHeat lc.moveEnd := by
  unfold Lc.moveEnd
  dsimp only
  split
  · split
    · exact ⟨Lc.recompute_overheat _, by simp [Notice.reports]⟩
    · split
      · obtain ⟨heat, none⟩ := Lc.strikeOrWait_keepsHeat
          (lc := { lc with moveTimer := .none, restrike := false, moveCleared := false })
        exact ⟨heat, (reportless_cons _ _).mpr ⟨rfl, none⟩⟩
      · refine ⟨Lc.recompute_overheat _, ?_⟩
        split <;> simp [Notice.reports]
  · exact ⟨rfl, reportless_nil⟩

theorem Lc.spare_overheat (goodA goodB : Bool) (chosen : Lamp) :
    (lc.spare goodA goodB chosen).1.overheat = lc.overheat := by
  unfold Lc.spare Lc.enterExchange
  dsimp only
  (repeat' split) <;> first | rfl | exact Lc.recompute_overheat _

theorem Lc.fadeDirective_overheat (level curve units : Nat) :
    (lc.fadeDirective level curve units).1.overheat = lc.overheat := by
  unfold Lc.fadeDirective
  split
  · rfl
  · exact congrArg Lc.Estimate.overheat (lc.order_estimate true (min level 1023) curve (units * 20))

theorem Lc.evalFade_overheat : lc.evalFade.overheat = lc.overheat := by
  unfold Lc.evalFade
  (repeat' split) <;> rfl

theorem Lc.timedUpdate_overheat : lc.timedUpdate.overheat = lc.overheat := by
  unfold Lc.timedUpdate
  split
  · exact (Lc.recompute_overheat _).trans (Lc.evalFade_overheat (lc := { lc with lampPhase := some 2 }))
  · rfl

theorem Lc.completeFade_overheat : lc.completeFade.overheat = lc.overheat := by
  unfold Lc.completeFade
  split
  · split
    · exact Lc.timedUpdate_overheat
    · rfl
  · rfl

theorem Lc.litFade_overheat (inTime : Nat) : (lc.litFade inTime).overheat = lc.overheat := by
  unfold Lc.litFade Lc.returnFade
  (repeat' split) <;> rfl

theorem Lc.strikeEnd_keepsHeat (inTime : Nat) : lc.KeepsHeat (lc.strikeEnd inTime) := by
  unfold Lc.strikeEnd
  split
  · split
    · exact ⟨rfl, reportless_nil⟩
    · split
      · refine ⟨?_, by simp [Notice.reports]⟩
        rw [Lc.enterLit_eq]
        exact (Lc.recompute_overheat _).trans ((Lc.litFade_overheat inTime).trans (Lc.recompute_overheat _))
      · exact Lc.fail_keepsHeat
  · exact ⟨rfl, reportless_nil⟩

theorem Lc.watchExpiry_keepsHeat : lc.KeepsHeat lc.watchExpiry := by
  unfold Lc.watchExpiry
  split
  · exact Lc.fail_keepsHeat
  · exact ⟨rfl, reportless_nil⟩

end

/-! ### The fan and the remote -/

theorem Fc.profile_reportless (fc : Fc) (minimum coolDone : Byte) (rm h ds : Nat) (active : Bool) :
    Reportless (fc.profile minimum coolDone rm h ds active).1.2 := by
  unfold Fc.profile
  split
  · exact (Fc.compute_routine _ _ _ _).reportless
  · exact reportless_nil

theorem Fc.windowEnd_reportless (fc : Fc) (active : Bool) : Reportless (fc.windowEnd active).2 := by
  unfold Fc.windowEnd Fc.check
  (repeat' (first | split | dsimp only)) <;> simp [Notice.reports]

section

variable (rr : Rr)

theorem Rr.fail_reportless (failure : FrameFailure) (listens : Bool) : Reportless (rr.fail failure listens).2 := by
  simp [Rr.fail, Notice.reports]

theorem Rr.edge_reportless (rising : Bool) (micros : Nat) : Reportless (rr.edge rising micros).2 := by
  unfold Rr.edge
  dsimp only
  (repeat' split) <;> first | exact reportless_nil | exact Rr.fail_reportless _ _ _

theorem Rr.frameError_reportless (failure : FrameFailure) : Reportless (rr.frameError failure).2 := by
  unfold Rr.frameError
  (repeat' split) <;> first | exact reportless_nil | exact Rr.fail_reportless _ _ _

theorem Rr.lowLimitExpiry_reportless : Reportless rr.lowLimitExpiry.2 := by
  unfold Rr.lowLimitExpiry
  (repeat' split) <;> first | exact reportless_nil | exact Rr.fail_reportless _ _ _

end

/-! ### The deck -/

section

variable (t : Ttc)

theorem Ttc.start_reportless (req : TapeRequest) : Reportless (t.start req).2 := by
  unfold Ttc.start
  (repeat' split) <;> simp [Ttc.locateDone, Notice.reports]

theorem Ttc.redirect_reportless (req : TapeRequest) : Reportless (t.redirect req).2 := by
  have brakes (latched : Option TapeRequest) : Reportless (t.brake latched).2 := (t.brake_routine latched).reportless
  unfold Ttc.redirect
  dsimp only
  split
  · exact reportless_nil
  · split
    · split
      · exact (reportless_cons _ _).mpr ⟨rfl, brakes _⟩
      · split
        · exact reportless_nil
        · exact brakes _
    · exact brakes _

theorem Ttc.request_reportless (req : TapeRequest) : Reportless (t.request req).1.2 := by
  unfold Ttc.request
  split
  · exact reportless_nil
  · split
    · exact t.start_reportless req
    · exact reportless_nil
    · exact t.redirect_reportless req

theorem Ttc.tapeEnd_reportless : Reportless t.tapeEnd.2 :=
  (reportless_cons _ _).mpr ⟨rfl, (t.brake_routine none).reportless⟩

theorem Ttc.checkTarget_reportless : Reportless t.checkTarget.2 := by
  unfold Ttc.checkTarget
  split
  · exact (reportless_cons _ _).mpr ⟨rfl, (t.brake_routine none).reportless⟩
  · exact reportless_nil

theorem Ttc.pulse_reportless : Reportless t.pulse.2 := by
  unfold Ttc.pulse
  dsimp only
  split
  · exact reportless_nil
  · split
    · exact Ttc.tapeEnd_reportless _
    · exact Ttc.checkTarget_reportless _

theorem Ttc.setTend_reportless (active : Bool) : Reportless (t.setTend active).2 := by
  unfold Ttc.setTend
  dsimp only
  (repeat' split) <;> first | exact reportless_nil | exact Ttc.tapeEnd_reportless _

theorem Ttc.brakingExpiry_reportless : Reportless t.brakingExpiry.2 := by
  unfold Ttc.brakingExpiry
  dsimp only
  (repeat' split) <;> first | exact reportless_nil | exact Ttc.start_reportless _ _

theorem Ttc.stallExpiry_reportless : Reportless t.stallExpiry.2 := by
  unfold Ttc.stallExpiry Ttc.leaveRecording
  dsimp only
  (repeat' split) <;> simp [Notice.reports]

theorem Ttc.routeCue_reportless (e : CueEntry) : Reportless (t.routeCue e).2 := by
  unfold Ttc.routeCue
  split
  · unfold Ttc.join
    split <;> simp [Notice.reports]
  · exact reportless_nil
  · split
    · simp [Notice.reports]
    · simp [Notice.reports]
    · cases t.markChannel <;> simp [Notice.reports]
    · exact t.stop_routine.reportless

theorem Ttc.burstEnd_reportless : Reportless t.burstEnd.2 := by
  unfold Ttc.burstEnd
  dsimp only
  split
  · simp [Notice.reports]
  · exact (reportless_cons _ _).mpr ⟨rfl, Ttc.routeCue_reportless _ _⟩

theorem Ttc.stick_reportless : Reportless t.stick.2 := by simp [Ttc.stick, Notice.reports]

theorem Ttc.edge_reportless (rising : Bool) (now : Word) : Reportless (t.edge rising now).2 := by
  unfold Ttc.edge
  dsimp only
  (repeat' split) <;> first | exact reportless_nil | exact Ttc.stick_reportless _

theorem Ttc.gapExpiry_reportless : Reportless t.gapExpiry.2 := by
  unfold Ttc.gapExpiry
  (repeat' split) <;> first | exact reportless_nil | exact Ttc.burstEnd_reportless _

theorem Ttc.stuckExpiry_reportless : Reportless t.stuckExpiry.2 := by
  unfold Ttc.stuckExpiry
  (repeat' split) <;> first | exact reportless_nil | exact Ttc.stick_reportless _

theorem Ttc.toneEnd_reportless : Reportless t.toneEnd.2 := by
  unfold Ttc.toneEnd
  (repeat' split) <;> simp [Notice.reports]

end

/-! ### Arbiter, channels and engine -/

theorem doneMark_reportless (result : Result) (lines : List Nat) : Reportless (doneMark result lines) := by
  unfold doneMark
  split
  · intro n hn
    obtain ⟨line, _, rfl⟩ := List.mem_map.mp hn
    rfl
  · exact reportless_nil

theorem Ca.setMasks_reportless (ca : Ca) (b : Byte) : Reportless (ca.setMasks b).1.2 := by
  unfold Ca.setMasks
  (repeat' split) <;> simp [Notice.reports]

section

variable (u : Rcu)

theorem Rcu.dwellExpiry_reportless (c : BitVec 2) : Reportless (u.dwellExpiry c).2 := by
  unfold Rcu.dwellExpiry
  split
  · exact (Rcu.choose_routine _).reportless
  · exact reportless_nil

theorem Rcu.setMasks_reportless (select values : Byte) : Reportless (u.setMasks select values).1.2 := by
  unfold Rcu.setMasks
  split
  · exact reportless_nil
  · exact (Rcu.choose_routine _).reportless

theorem Rcu.triggerDirective_reportless (channel : Byte) : Reportless (u.triggerDirective channel).1.2 := by
  unfold Rcu.triggerDirective
  split
  · exact reportless_nil
  · exact (Rcu.trigger_routine _ _).reportless

end

section

variable (ce : Ce)

theorem Ce.takeByte_reportless (b : Byte) : Reportless (ce.takeByte b).2 := by
  unfold Ce.takeByte
  split
  · exact reportless_nil
  · dsimp only
    split
    · simp [Notice.reports]
    · refine (Routine.andThen ?_ Ce.predict_routine).reportless
      split
      · exact Ce.judge_routine _ _
      · exact routine_nil

theorem refetch_reportless (x : Nat) (removed : List StagedEntry) : Reportless (refetch x removed) := by
  unfold refetch
  split <;> simp [Notice.reports]

theorem Ce.editLater_reportless (head : StagedEntry) (rest : List StagedEntry) (x : Nat) (cleared : Bool) :
    Reportless (ce.editLater head rest x cleared).2 := by
  unfold Ce.editLater
  split
  · split <;> simp [Notice.reports]
  · refine (reportless_append _ _).mpr ⟨?_, refetch_reportless _ _⟩
    split <;> simp [Notice.reports]

theorem Ce.edit_reportless (x : Nat) : Reportless (ce.edit x).2 := by
  unfold Ce.edit
  split
  · exact reportless_nil
  · split
    · split
      · exact Ce.editLater_reportless _ _ _ _ _
      · refine (reportless_append _ _).mpr ⟨?_, refetch_reportless _ _⟩
        split <;> simp [Notice.reports]
    · exact Ce.editLater_reportless _ _ _ _ _

theorem Ce.start_reportless (i : Nat) (cut : Bool) : Reportless (ce.start i cut).1.2 := by
  unfold Ce.start
  (repeat' split) <;> simp [Notice.reports]

theorem Ce.resume_reportless : Reportless ce.resume.1.2 := by
  unfold Ce.resume
  split <;> simp [Notice.reports]

theorem Ce.stop_reportless : Reportless ce.stop.2 := by simp [Ce.stop, Notice.reports]

theorem Ce.go_reportless (free : Bool) : Reportless (ce.go free).1.2 := by
  unfold Ce.go
  split
  · exact (Ce.resolve_routine _ _ _ _).reportless
  · exact reportless_nil

theorem Ce.takeKey_reportless (free : Bool) : Reportless (ce.takeKey free).2 := by
  unfold Ce.takeKey
  split
  · exact (Ce.resolve_routine _ _ _ _).reportless
  · exact reportless_nil

theorem Ce.setLead_reportless (enable extra : Byte) : Reportless (ce.setLead enable extra).1.2 := by
  unfold Ce.setLead
  split <;> simp [Notice.reports]

end

end Sys2Proof.Machine
end

section
/-! ## The reported levels in a cascade (R72)

A value that a block reports waits among the notices until the Cutoff Unit hears it. So what the blocks hold is, all along
a command, what the Cutoff Unit will have been told: `told` is the pair of OVERHEAT and TRAY_LOST after these notices. No
notice makes a report, so those of the act are the only ones, and they stand near enough to the front of the queue to be
heard. -/

namespace Sys2Proof.Machine

open Sys2Proof.Safety

/-! ### What the Cutoff Unit is told -/

/-- OVERHEAT and TRAY_LOST as the Cutoff Unit holds them. -/
def Cu.levels (cu : Cu) : Bool × Bool := (cu.overheat, cu.trayLost)

/-- OVERHEAT and TRAY_LOST as their owners hold them. -/
def State.levels (s : State) : Bool × Bool := (s.lc.overheat, s.tmc.trayLost)

/-- The two levels after this notice. -/
def Notice.tells : Notice → Bool × Bool → Bool × Bool
  | .levelCause .overheat v, levels => (v, levels.2)
  | .levelCause .trayLost v, levels => (levels.1, v)
  | _, levels => levels

/-- The two levels after these notices. -/
def told (levels : Bool × Bool) (ns : List Notice) : Bool × Bool := ns.foldl (fun levels n => n.tells levels) levels

theorem Notice.tells_of_silent {n : Notice} (silent : n.reports = false) (levels : Bool × Bool) :
    n.tells levels = levels := by
  cases n <;> first | rfl | cases silent

@[simp] theorem told_nil (levels : Bool × Bool) : told levels [] = levels := rfl

@[simp] theorem told_cons (levels : Bool × Bool) (n : Notice) (ns : List Notice) :
    told levels (n :: ns) = told (n.tells levels) ns := rfl

@[simp] theorem told_append (levels : Bool × Bool) (a b : List Notice) :
    told levels (a ++ b) = told (told levels a) b := List.foldl_append

theorem told_reportless {ns : List Notice} (h : Reportless ns) (levels : Bool × Bool) : told levels ns = levels := by
  induction ns with
  | nil => rfl
  | cons n ns ih =>
    rw [reportless_cons] at h
    rw [told_cons, Notice.tells_of_silent h.1, ih h.2]

/-- A report waits for the Cutoff Unit: none is lost on the way to the queue. -/
theorem told_queued (levels : Bool × Bool) (ns : List Notice) : told levels (queuedOf ns) = told levels ns := by
  induction ns generalizing levels with
  | nil => rfl
  | cons n ns ih =>
    by_cases waits : n.immediate = true
    · have silent : n.tells levels = levels := by cases n <;> first | rfl | cases waits
      rw [told_cons, silent, ← ih, queuedOf, queuedOf, List.filter_cons_of_neg (by simp [waits])]
    · have kept : queuedOf (n :: ns) = n :: queuedOf ns := List.filter_cons_of_pos (by simpa using waits)
      rw [kept, told_cons, told_cons, ih]

/-! ### What the acts of the Cutoff Unit do to the levels -/

theorem Cu.SameSettings.levels {cu cu' : Cu} (h : cu.SameSettings cu') : cu'.levels = cu.levels := by
  rw [h]
  rfl

theorem Cu.report_levels (cu : Cu) (c : Cause) (v : Bool) :
    (cu.report c v).1.levels = Notice.tells (.levelCause c v) cu.levels := by
  have value : (cu.setValue c v).levels = Notice.tells (.levelCause c v) cu.levels := by cases c <;> rfl
  unfold Cu.report
  split
  · rw [((cu.setValue c v).arrive_same c).levels, value]
  · exact value

/-! ### One notice -/

section

variable (n : Notice) (s : State)

theorem Served.trayLost {t t' : Tmc} (served : Served t t') : t'.trayLost = t.trayLost := by
  rcases served with rfl | ⟨op, _, _, rfl⟩ | ⟨op, _, rfl⟩
  · rfl
  · exact (Tmc.begin_keepsTray op).1
  · exact (Tmc.preempt_keepsTray op).1

/-- No notice changes the levels at their owners. -/
theorem handle_levels : (State.handle n s).levels = s.levels := by
  refine Prod.ext (congrArg Lc.Estimate.overheat (handle_estimate s n)) ?_
  show (State.handle n s).tmc.trayLost = s.tmc.trayLost
  cases n with
  | deposit source kind => exact (deposit_served s source kind).trayLost
  | select => exact (select_served s).trayLost
  | trayCutoff sel => simpa [State.handle] using (Tmc.cutoff_keepsTray (t := s.tmc) sel).1
  | trayClear => simpa [State.handle] using (Tmc.clear_keepsTray (t := s.tmc)).1
  | _ => simp [State.handle]

/-- No notice makes a report. -/
theorem handle_reportless : ∃ made, (State.handle n s).notices = s.notices ++ made ∧ Reportless made := by
  have quiet (calm : n.raises = false) : ∃ made, (State.handle n s).notices = s.notices ++ made ∧ Reportless made := by
    obtain ⟨⟨made, notices, routine⟩, _⟩ := handle_makes s calm
    exact ⟨made, notices, routine.reportless⟩
  cases n with
  | levelCause c v => exact ⟨_, State.putCu_notices s _, (s.cu.report_calm c v).reportless.queued⟩
  | edgeCause c => exact ⟨_, State.putCu_notices s _, (s.cu.arrive_calm c).reportless.queued⟩
  | _ => exact quiet rfl

/-- The Cutoff Unit hears the reports alone. -/
theorem handle_tells : (State.handle n s).cu.levels = n.tells s.cu.levels := by
  cases n with
  | levelCause c v => simpa [State.handle] using s.cu.report_levels c v
  | edgeCause c =>
    rw [State.handle, State.putCu_cu]
    exact (s.cu.arrive_same c).levels
  | _ =>
    rcases handle_cu _ s with same | ⟨_, _, e, _⟩ | ⟨_, e, _⟩
    · rw [same]; rfl
    · cases e
    · cases e

/-- Every notice keeps the cutoff sound. -/
theorem handle_cutoff {n : Notice} {s : State} (sound : Cutoff s.cu) : Cutoff (State.handle n s).cu := by
  rcases handle_cu n s with same | ⟨c, v, _, reported⟩ | ⟨c, _, arrived⟩
  · rwa [same]
  · rw [reported]; exact Cu.report_cutoff sound c v
  · rw [arrived]; exact Cu.arrive_cutoff sound c

end

/-! ### A cascade -/

/-- The cutoff is sound, and after as many notices as this the Cutoff Unit will have been told the levels. -/
structure Informed (fuel : Nat) (s : State) : Prop where
  cutoff : Cutoff s.cu
  levels : told s.cu.levels (s.notices.take fuel) = s.levels

/-- The cutoff is sound, and holds the levels as their owners do, with nothing left to tell. -/
structure Agreed (s : State) : Prop where
  cutoff : Cutoff s.cu
  levels : s.cu.levels = s.levels
  calm : s.notices = []

theorem Agreed.informed {s : State} (h : Agreed s) (fuel : Nat) : Informed fuel s :=
  ⟨h.cutoff, by rw [h.calm, List.take_nil]; exact h.levels⟩

/-- A notice taken is one that is told. -/
theorem Informed.handle {fuel : Nat} {s : State} (h : Informed (fuel + 1) s) {n : Notice} {rest : List Notice}
    (queue : s.notices = n :: rest) : Informed fuel (({ s with notices := rest }).act (State.handle n)) := by
  obtain ⟨made, notices, silent⟩ := handle_reportless n { s with notices := rest }
  have levels := h.levels
  rw [queue, List.take_succ_cons, told_cons] at levels
  refine ⟨by rw [State.act_cu]; exact handle_cutoff (s := { s with notices := rest }) h.cutoff, ?_⟩
  rw [State.levels, State.act_lc, State.act_tmc, ← State.levels, handle_levels, State.act_notices, notices, State.act_cu,
    handle_tells, List.take_append, told_append]
  exact (told_reportless (fun m hm => silent m (List.mem_of_mem_take hm)) _).trans levels

/-- When nothing more is taken the levels agree. -/
theorem drain_agreed {fuel : Nat} {s : State} (h : Informed fuel s) : Agreed (State.drain fuel s) := by
  induction fuel generalizing s with
  | zero => exact ⟨h.cutoff, h.levels, rfl⟩
  | succ fuel ih =>
    cases queue : s.notices with
    | nil =>
      have levels := h.levels
      rw [queue, List.take_nil] at levels
      rw [State.drain_nil s _ queue]
      exact ⟨h.cutoff, levels, queue⟩
    | cons n rest =>
      rw [State.drain_cons s _ n rest queue]
      exact ih (h.handle queue)

theorem carry_agreed {s : State} {f : State → State} (h : Informed Config.cascadeFuel (f s)) : Agreed (s.carry f) := by
  refine drain_agreed ⟨by rw [State.act_cu]; exact h.cutoff, ?_⟩
  rw [State.levels, State.act_lc, State.act_tmc, State.act_cu, State.act_notices]
  exact h.levels

theorem Agreed.of_eq {s t : State} (h : Agreed s) (cu : t.cu = s.cu) (lc : t.lc = s.lc) (tmc : t.tmc = s.tmc)
    (notices : t.notices = s.notices) : Agreed t :=
  ⟨cu ▸ h.cutoff, by rw [cu, State.levels, lc, tmc]; exact h.levels, notices.trans h.calm⟩

theorem settle_agreed {s : State} (h : Agreed s) : Agreed s.settle := h.of_eq (by simp) (by simp) (by simp) (by simp)

theorem run_agreed {s : State} {f : State → State} (h : Informed Config.cascadeFuel (f s)) : Agreed (s.run f) :=
  settle_agreed (carry_agreed h)

end Sys2Proof.Machine
end

section
/-! ## Acts that leave the reported levels alone -/

namespace Sys2Proof.Machine

open Sys2Proof.Safety

/-- The cutoff and both levels stand, and the notices made report none. -/
structure LevelsStand (s t : State) : Prop where
  cu : t.cu = s.cu
  levels : t.levels = s.levels
  made : ∃ made, t.notices = s.notices ++ made ∧ Reportless made

theorem LevelsStand.of_eq {s t : State} (cu : t.cu = s.cu) (lc : t.lc = s.lc) (tmc : t.tmc = s.tmc)
    (notices : t.notices = s.notices) : LevelsStand s t :=
  ⟨cu, by rw [State.levels, lc, tmc]; rfl, [], by rw [notices, List.append_nil], reportless_nil⟩

theorem LevelsStand.refl (s : State) : LevelsStand s s := .of_eq rfl rfl rfl rfl

theorem LevelsStand.trans {s t u : State} (h : LevelsStand s t) (k : LevelsStand t u) : LevelsStand s u := by
  obtain ⟨a, ha, silent⟩ := h.made
  obtain ⟨b, hb, still⟩ := k.made
  exact ⟨k.cu.trans h.cu, k.levels.trans h.levels, a ++ b, by rw [hb, ha, List.append_assoc],
    (reportless_append _ _).mpr ⟨silent, still⟩⟩

theorem LevelsStand.informed {fuel : Nat} {s t : State} (k : LevelsStand s t) (h : Informed fuel s) : Informed fuel t := by
  obtain ⟨made, notices, silent⟩ := k.made
  refine ⟨k.cu ▸ h.cutoff, ?_⟩
  rw [notices, k.cu, k.levels, List.take_append, told_append]
  exact (told_reportless (fun m hm => silent m (List.mem_of_mem_take hm)) _).trans h.levels

section

variable (s : State)

theorem post_stands {ns : List Notice} (silent : Reportless ns) : LevelsStand s (s.post ns) :=
  ⟨by simp, by simp [State.levels], _, State.post_notices s ns, silent.queued⟩

theorem putTmc_stands {r : Reaction Tmc} (keeps : s.tmc.KeepsTray r) : LevelsStand s (s.putTmc r) :=
  ⟨by simp, by simpa [State.levels] using keeps.1, _, State.putTmc_notices s r, keeps.2.queued⟩

theorem putLc_stands {r : Reaction Lc} (keeps : s.lc.KeepsHeat r) : LevelsStand s (s.putLc r) :=
  ⟨by simp, by simpa [State.levels] using keeps.1, _, State.putLc_notices s r,
    ((reportless_append _ _).mpr ⟨keeps.2, (fanNotices_routine _ _).reportless⟩).queued⟩

theorem putLc_stands_silent {lc : Lc} (heat : lc.overheat = s.lc.overheat) : LevelsStand s (s.putLc (lc, [])) :=
  putLc_stands s ⟨heat, reportless_nil⟩

theorem putFc_stands {r : Reaction Fc} (silent : Reportless r.2) : LevelsStand s (s.putFc r) :=
  ⟨by simp, by simp [State.levels], _, State.putFc_notices s r, silent.queued⟩

theorem putTtc_stands {r : Reaction Ttc} (silent : Reportless r.2) : LevelsStand s (s.putTtc r) :=
  ⟨by simp, by simp [State.levels], _, State.putTtc_notices s r, silent.queued⟩

theorem putRr_stands {r : Reaction Rr} (silent : Reportless r.2) : LevelsStand s (s.putRr r) :=
  ⟨by simp, by simp [State.levels], _, State.putRr_notices s r, silent.queued⟩

theorem putCa_stands {r : Reaction Ca} (silent : Reportless r.2) : LevelsStand s (s.putCa r) :=
  ⟨by simp, by simp [State.levels], _, State.putCa_notices s r, silent.queued⟩

theorem putRcu_stands {r : Reaction Rcu} (silent : Reportless r.2) : LevelsStand s (s.putRcu r) :=
  ⟨by simp, by simp [State.levels], _, State.putRcu_notices s r, silent.queued⟩

theorem putCe_stands {r : Reaction Ce} (silent : Reportless r.2) : LevelsStand s (s.putCe r) :=
  ⟨by simp, by simp [State.levels], _, State.putCe_notices s r, silent.queued⟩

/-! ### The remote -/

theorem toggleLamp_stands : LevelsStand s s.toggleLamp := by
  unfold State.toggleLamp
  split <;> first | exact putLc_stands s Lc.off_keepsHeat | exact putLc_stands s Lc.on_keepsHeat

theorem togglePause_stands : LevelsStand s s.togglePause := by
  unfold State.togglePause
  split
  · exact putCe_stands s reportless_nil
  · exact putCe_stands s s.ce.resume_reportless
  · exact .refl s

theorem performAction_stands (e : KeyEntry) (key : BitVec 5) : LevelsStand s (s.performAction e key) := by
  unfold State.performAction
  split
  case h_5 => exact toggleLamp_stands s
  case h_6 => exact togglePause_stands s
  case h_7 =>
    split
    · exact post_stands s (by simp [Notice.reports])
    · exact .refl s
  case h_8 => refine post_stands s ?_; cases cueClass? e.argument <;> simp [Notice.reports]
  case h_10 => exact .refl s
  all_goals exact post_stands s (by simp [Notice.reports])

theorem actOnPress_stands (key : BitVec 5) : LevelsStand s (s.actOnPress key) := by
  have acted := performAction_stands s (s.rr.entry key) key
  unfold State.actOnPress
  dsimp only
  split
  · exact putRr_stands s reportless_nil
  · split
    · exact acted
    · split
      · exact acted.trans (putRr_stands _ reportless_nil)
      · exact acted
    · exact .refl s

theorem press_stands (key : BitVec 5) (toggle : Bool) : LevelsStand s (s.press key toggle) := by
  unfold State.press
  dsimp only
  have held := putRr_stands s (r := (s.rr.hold key toggle (s.ce.takesKey key),
    [.log .key (argPair (flagNat (s.ce.takesKey key)) key.toNat), .dirty 6])) (by simp [Notice.reports])
  split
  · exact held.trans (putCe_stands _ (Ce.takeKey_reportless _ _))
  · exact held.trans (actOnPress_stands _ key)

theorem releaseKey_stands : LevelsStand s s.releaseKey := by
  unfold State.releaseKey
  split
  · exact .refl s
  · have dropped := putRr_stands s (r := (s.rr.dropKey, [])) reportless_nil
    dsimp only
    split
    · exact dropped.trans (performAction_stands _ _ _)
    · exact dropped

theorem releaseExpiry_stands : LevelsStand s s.releaseExpiry := by
  unfold State.releaseExpiry
  split
  · exact releaseKey_stands s
  · exact .refl s

theorem repeatExpiry_stands : LevelsStand s s.repeatExpiry := by
  unfold State.repeatExpiry
  split
  · exact .refl s
  · split
    · dsimp only
      split
      · exact (putRr_stands s reportless_nil).trans (performAction_stands _ _ _)
      · exact putRr_stands s reportless_nil
    · exact .refl s

/-! ### The mechanism, the passage and the decoder -/

theorem takeReport_stands : LevelsStand s s.takeReport := by
  unfold State.takeReport
  split
  · have taken : LevelsStand s { s with lc := { s.lc with report := false } } := ⟨rfl, rfl, [], by simp, reportless_nil⟩
    exact taken.trans (putTmc_stands { s with lc := { s.lc with report := false } } Tmc.takeReport_keepsTray)
  · exact .refl s

theorem byteWritten_stands : LevelsStand s s.byteWritten := by
  unfold State.byteWritten State.askByte
  (repeat' split) <;> exact .of_eq rfl rfl rfl rfl

theorem completeOwn_stands : LevelsStand s s.completeOwn := by
  unfold State.completeOwn
  split
  · exact .refl s
  · dsimp only
    split
    · split
      · refine .trans ?_ (byteWritten_stands _)
        exact .of_eq rfl rfl rfl rfl
      · exact .of_eq rfl rfl rfl rfl
    · split
      · refine .trans ?_ (putCe_stands _ (Ce.takeByte_reportless _ _))
        exact .of_eq rfl rfl rfl rfl
      · exact .of_eq rfl rfl rfl rfl

theorem answer_stands (code : Byte) (result : Result) : LevelsStand s (s.answer code result) := by
  refine .trans ?_ (post_stands { s with dd := s.dd.answer code result } (ns := [.dirty 0]) (by simp [Notice.reports]))
  exact .of_eq rfl rfl rfl rfl

theorem depositDirective_stands (kind : OpKind) (result : Result) :
    LevelsStand s (s.depositDirective kind result).1 := by
  unfold State.depositDirective
  split
  · exact .refl s
  · exact post_stands s (by simp [Notice.reports])

theorem dirTapeRequest_stands (req : TapeRequest) : LevelsStand s (dirTapeRequest req s).1 :=
  putTtc_stands s (s.ttc.request_reportless req)

end

end Sys2Proof.Machine
end

section
/-! ## The acts that do reach the reported levels -/

namespace Sys2Proof.Machine

open Sys2Proof.Safety

/-- The levels agree after an act whose notices tell what the act has changed, if they are few enough to be heard. -/
theorem Agreed.informed_of_told {s t : State} (h : Agreed s) {ns : List Notice} (cutoff : Cutoff t.cu)
    (made : t.notices = s.notices ++ queuedOf ns) (short : ns.length ≤ Config.cascadeFuel)
    (tells : told t.cu.levels ns = t.levels) : Informed Config.cascadeFuel t := by
  have few : (queuedOf ns).length ≤ Config.cascadeFuel := (List.length_filter_le _ ns).trans short
  refine ⟨cutoff, ?_⟩
  rw [made, h.calm, List.nil_append, List.take_of_length_le few, told_queued]
  exact tells

theorem Agreed.informed_of_eq {fuel : Nat} {s t : State} (h : Agreed s) (cu : t.cu = s.cu) (lc : t.lc = s.lc)
    (tmc : t.tmc = s.tmc) (notices : t.notices = s.notices) : Informed fuel t :=
  (h.of_eq cu lc tmc notices).informed fuel

/-! ### What the Cutoff Unit's own acts leave of the levels -/

theorem Cu.select_levels (cu : Cu) (b0 b1 : Byte) : (cu.select b0 b1).1.levels = cu.levels := by
  unfold Cu.select
  (repeat' split) <;> rfl

theorem Cu.clear_levels (cu : Cu) : cu.clear.1.1.levels = cu.levels := by
  unfold Cu.clear
  (repeat' split) <;> first | rfl | exact (Cu.handLamp_same _).levels

theorem Cu.clear_reportless (cu : Cu) : Reportless cu.clear.1.2 := by
  unfold Cu.clear
  split
  · exact reportless_nil
  · split
    · simp [Notice.reports]
    · have lifts : Reportless cu.clearNotices := by
        unfold Cu.clearNotices
        (repeat' split) <;> simp [Notice.reports]
      simpa [Notice.reports, lifts] using (Cu.handLamp_calm _).reportless

/-- The filtered inputs are causes of their own: their values are not those that another block reports. -/
theorem Cu.filterExpiry_levels (cu : Cu) (input : FilteredInput) : (cu.filterExpiry input).1.levels = cu.levels := by
  unfold Cu.filterExpiry
  split <;> split <;> first | rfl | exact Cu.report_levels _ _ _

theorem Cu.filterExpiry_reportless (cu : Cu) (input : FilteredInput) : Reportless (cu.filterExpiry input).2 := by
  unfold Cu.filterExpiry
  split <;> split <;> first | exact reportless_nil | exact (Cu.report_calm _ _ _).reportless

/-! ### What the lamp tells (R55) -/

theorem Lc.setCurrent_overheat (lc : Lc) (present : Bool) : (lc.setCurrent present).overheat = lc.overheat :=
  rfl

theorem derateEvents_reportless (before after hot : Nat) : Reportless (derateEvents before after hot) := by
  unfold derateEvents
  (repeat' split) <;> simp [Notice.reports]

theorem derateEvents_length (before after hot : Nat) : (derateEvents before after hot).length ≤ 1 := by
  unfold derateEvents
  (repeat' split) <;> simp

/-- What a new H or a new profile reports is what OVERHEAT has become. -/
theorem Lc.reheated_told (lc : Lc) (lost : Bool) :
    told (lc.overheat, lost) lc.reheated.2 = (lc.reheated.1.overheat, lost) := by
  have hot : lc.reheated.1.overheat = overheatOf lc.h lc.derateStart lc.overheatLevel lc.overheat :=
    congrArg Lc.Estimate.overheat lc.reheated_estimate
  rw [hot, Lc.reheated, Lc.reheat, told_append, told_reportless (derateEvents_reportless _ _ _)]
  split
  · next same => rw [same]; rfl
  · rfl

theorem Lc.reheated_length (lc : Lc) : lc.reheated.2.length ≤ 2 := by
  rw [Lc.reheated, Lc.reheat, List.length_append]
  have := derateEvents_length lc.derate (derateOf lc.h lc.derateStart lc.overheatLevel) lc.h
  split <;> simp <;> omega

theorem fanNotices_length (before after : Lc) : (Lc.fanNotices before after).length ≤ 1 := by
  unfold Lc.fanNotices
  split <;> simp

/-! ### What the mechanism tells (R18 to R20) -/

theorem Tmc.lose_reportless (t : Tmc) (enabled : Bool) : Reportless (t.lose enabled).2 := by
  unfold Tmc.lose
  dsimp only
  rw [reportless_append]
  refine ⟨(Tmc.conclude_keepsTray _ (reportless_cons _ _ |>.mpr ⟨rfl, ?_⟩)).2, ?_⟩ <;> split <;> simp [Notice.reports]

theorem Tmc.conclude_length (t : Tmc) (result : OpOutcome) (events : List Notice) :
    (t.conclude result events).2.length ≤ events.length + 1 := by
  unfold Tmc.conclude
  split <;> simp

theorem Tmc.lose_length (t : Tmc) (enabled : Bool) : (t.lose enabled).2.length ≤ 4 := by
  unfold Tmc.lose
  dsimp only
  rw [List.length_append]
  refine Nat.add_le_add (b := 3) (d := 1) ((Tmc.conclude_length _ _ _).trans (Nat.succ_le_succ (Nat.succ_le_succ ?_))) ?_ <;>
    split <;> simp

/-- What a change of the tray code reports last is what TRAY_LOST has become. -/
theorem Tmc.codeChange_told (t : Tmc) (enabled : Bool) (code : BitVec 2) (hot : Bool) :
    told (hot, t.trayLost) (t.codeChange enabled code).2 = (hot, (t.codeChange enabled code).1.trayLost) := by
  unfold Tmc.codeChange
  split
  · rfl
  · dsimp only
    generalize gone : (if codeSize t.tcode ≠ 0 then Tmc.lose { t with tcode := code } enabled else
      ({ t with tcode := code }, [])) = lost
    have silent : Reportless lost.2 := by
      rw [← gone]
      split
      · exact Tmc.lose_reportless _ _
      · exact reportless_nil
    split
    · have inserted : Reportless lost.1.insert.2 := by simp [Tmc.insert, Notice.reports]
      simp [told_reportless silent, told_reportless inserted, Tmc.lostNotice, Notice.tells]
    · split <;> simp [told_reportless silent, Tmc.lostNotice, Notice.tells]

theorem Tmc.codeChange_length (t : Tmc) (enabled : Bool) (code : BitVec 2) : (t.codeChange enabled code).2.length ≤ 8 := by
  unfold Tmc.codeChange
  split
  · exact Nat.zero_le _
  · dsimp only
    generalize gone : (if codeSize t.tcode ≠ 0 then Tmc.lose { t with tcode := code } enabled else
      ({ t with tcode := code }, [])) = lost
    have short : lost.2.length ≤ 4 := by
      rw [← gone]
      split
      · exact Tmc.lose_length _ _
      · exact Nat.zero_le _
    split
    · simp [Tmc.insert]; omega
    · split <;> simp <;> omega

section

variable {s : State} (h : Agreed s)

include h

/-! ### The Cutoff Unit's own acts -/

/-- The Cutoff Unit's own acts leave the levels that it was told, and make no report. -/
theorem putCu_informed {r : Reaction Cu} (cutoff : Cutoff r.1) (levels : r.1.levels = s.cu.levels)
    (silent : Reportless r.2) : Informed Config.cascadeFuel (s.putCu r) := by
  refine ⟨by simpa using cutoff, ?_⟩
  rw [State.putCu_notices, h.calm, List.nil_append, State.putCu_cu, levels]
  refine (told_reportless (fun n hn => silent.queued n (List.mem_of_mem_take hn)) _).trans (h.levels.trans ?_)
  simp [State.levels]

theorem dirCutoffSelect_informed (b0 b1 : Byte) : Informed Config.cascadeFuel (dirCutoffSelect b0 b1 s).1 :=
  putCu_informed h (Cu.select_cutoff h.cutoff b0 b1) (s.cu.select_levels b0 b1) (doneMark_reportless _ _)

theorem dirCutoffEnable_informed (causes : Byte) : Informed Config.cascadeFuel (dirCutoffEnable causes s).1 :=
  putCu_informed h (Cu.enable_cutoff h.cutoff causes) (Cu.arriveAll_same _ _).levels (Cu.arriveAll_calm _ _).reportless

theorem dirCutoffForce_informed : Informed Config.cascadeFuel (dirCutoffForce s).1 := by
  refine putCu_informed h (Cu.force_cutoff h.cutoff) ?_ ?_ <;> unfold Cu.force <;> split
  · exact (s.cu.arrive_same .forced).levels
  · rfl
  · exact (s.cu.arrive_calm .forced).reportless
  · exact reportless_nil

theorem dirCutoffClear_informed : Informed Config.cascadeFuel (dirCutoffClear s).1 :=
  putCu_informed h (Cu.clear_cutoff h.cutoff) s.cu.clear_levels s.cu.clear_reportless

theorem filterExpiry_informed (input : FilteredInput) : Informed Config.cascadeFuel (s.putCu (s.cu.filterExpiry input)) :=
  putCu_informed h (Cu.filterExpiry_cutoff h.cutoff input) (s.cu.filterExpiry_levels input)
    (s.cu.filterExpiry_reportless input)

/-! ### A new heat or a new profile (R55) -/

theorem reheated_informed {lc : Lc} (same : lc.overheat = s.lc.overheat) :
    Informed Config.cascadeFuel (s.putLc lc.reheated) := by
  have levels : s.cu.levels = (lc.overheat, s.tmc.trayLost) := by rw [h.levels, same]; rfl
  have short := lc.reheated_length
  have fan := fanNotices_length s.lc lc.reheated.1
  have fuel : 3 ≤ Config.cascadeFuel := by decide
  refine h.informed_of_told (by simpa using h.cutoff) (State.putLc_notices s _) ?_ ?_
  · rw [List.length_append]
    omega
  · rw [told_append, State.putLc_cu, levels, lc.reheated_told, told_reportless (fanNotices_routine _ _).reportless]
    simp [State.levels]

theorem heatUpdate_informed :
    Informed Config.cascadeFuel (if s.lc.heatPhase.due then s.putLc (s.lc.heatUpdate s.fc.speed) else s) := by
  split
  · exact reheated_informed h (lc := s.lc.heated s.fc.speed) rfl
  · exact h.informed _

theorem dirHeatProfile_informed (lg fg ds oh rm : Byte) :
    Informed Config.cascadeFuel (dirHeatProfile lg fg ds oh rm s).1 := by
  by_cases lawful : 1 ≤ lg.toNat ∧ 256 * rm.toNat < 256 * ds.toNat ∧ 256 * ds.toNat < 256 * oh.toNat ∧
      s.fc.coolDone < 256 * rm.toNat
  · obtain ⟨gain, low, high, cool⟩ := lawful
    rw [dirHeatProfile, Lc.heatProfile_good s.lc gain low high cool]
    exact reheated_informed h rfl
  · rw [dirHeatProfile, Lc.heatProfile_bad s.lc lawful]
    exact (putLc_stands_silent s rfl).informed (h.informed _)

/-! ### A change of the tray code (R1, R18 to R20) -/

theorem codeChange_informed (enabled : Bool) (code : BitVec 2) :
    Informed Config.cascadeFuel (s.putTmc (s.tmc.codeChange enabled code)) := by
  have levels : s.cu.levels = (s.lc.overheat, s.tmc.trayLost) := h.levels
  refine h.informed_of_told (by simpa using h.cutoff) (State.putTmc_notices s _) ?_ ?_
  · exact (s.tmc.codeChange_length enabled code).trans (by decide)
  · rw [State.putTmc_cu, levels, s.tmc.codeChange_told]
    simp [State.levels]
end

end Sys2Proof.Machine
end

section
/-! ## Every step keeps the cutoff sound, and the levels agreed -/

namespace Sys2Proof.Machine

open Sys2Proof.Safety

/-! ### The answer -/

theorem take_informed {owner : State → State × Result} (code : Byte) (act : Informed Config.cascadeFuel (owner s).1) :
    Informed Config.cascadeFuel (s.take owner code) :=
  (answer_stands _ _ _).informed act

/-! ### The resets (R87, R88) -/

/-- The evaluation at the end of a reset, on a Cutoff Unit that holds the levels as their owners do. -/
theorem evaluate_informed {t : State} {thsw ilock : Bool}
    (cu : t.cu = Cu.fresh thsw ilock t.lc.overheat t.tmc.trayLost) (calm : t.notices = []) :
    Informed Config.cascadeFuel (t.putCu t.cu.evaluate) := by
  have silent : Reportless t.cu.evaluate.2 := (Cu.arriveAll_calm _ _).reportless
  refine ⟨by rw [State.putCu_cu, cu]; exact Cu.evaluate_cutoff _ _ _ _, ?_⟩
  rw [State.putCu_notices, calm, List.nil_append, State.putCu_cu,
    told_reportless fun n hn => silent.queued n (List.mem_of_mem_take hn)]
  exact ((Cu.arriveAll_same _ _).levels.trans (by rw [cu]; rfl : t.cu.levels = t.levels)).trans (by simp [State.levels])

/-- A tray code that is no code is logged, and nothing waits (R30). -/
theorem Tmc.fresh_quiet (tcode : BitVec 2) (sensors : Sensors) : queuedOf (Tmc.fresh tcode sensors).2 = [] := by
  show queuedOf (if tcode = 3 then _ else _) = []
  split <;> rfl

theorem partReset_informed (s : State) : Informed Config.cascadeFuel s.partReset := by
  unfold State.partReset
  refine evaluate_informed (thsw := s.cu.thswRaw) (ilock := s.cu.ilockRaw) ?_ ?_
  · simp [State.answer]
  · have lamp : queuedOf s.lc.partReset.2 = [] := derateEvents_quiet _ _ _
    simp [State.answer, Tmc.fresh_quiet, lamp]

theorem powerOn_informed (s : State) (pins : Pins) : Informed Config.cascadeFuel (s.powerOn pins) := by
  unfold State.powerOn
  refine evaluate_informed (thsw := pins.thsw) (ilock := pins.ilockOpen) ?_ ?_
  · simp [State.porBlocks, Lc.reset]
  · simp [State.porBlocks, Tmc.fresh_quiet]

section

variable {s : State} (h : Agreed s)

include h

/-! ### Directives -/

/-- The owner of a directive tells the Cutoff Unit what it changes of the levels: most change none. -/
theorem rowAct_informed {c : Instr} {owner : State → State × Result} (act : rowAct c = some owner) :
    Informed Config.cascadeFuel (owner s).1 := by
  have stands (t : State) (k : LevelsStand s t) : Informed Config.cascadeFuel t := k.informed (h.informed _)
  cases c
  case heatProfile => obtain rfl := Option.some.inj act; exact dirHeatProfile_informed h _ _ _ _ _
  case cutoffSelect => obtain rfl := Option.some.inj act; exact dirCutoffSelect_informed h _ _
  case cutoffEnable => obtain rfl := Option.some.inj act; exact dirCutoffEnable_informed h _
  case cutoffForce => obtain rfl := Option.some.inj act; exact dirCutoffForce_informed h
  case cutoffClear => obtain rfl := Option.some.inj act; exact dirCutoffClear_informed h
  all_goals first
    | exact (Option.some_ne_none _ act.symm).elim
    | refine stands _ ?_; obtain rfl := Option.some.inj act
  case home | moveBy | clearGate => exact depositDirective_stands s _ _
  case gotoSlot =>
    unfold dirGotoSlot
    split
    · exact depositDirective_stands s _ _
    · exact .refl s
  case changeProfile => exact putTmc_stands s (Tmc.changeProfile_keepsTray _ _ _)
  case lampOn => exact putLc_stands s Lc.on_keepsHeat
  case lampOff => exact putLc_stands s Lc.off_keepsHeat
  case lampFade => exact putLc_stands_silent s (Lc.fadeDirective_overheat _ _ _)
  case lampCeiling => exact putLc_stands_silent s (Lc.recompute_overheat _)
  case lampSpare => exact putLc_stands_silent s (Lc.spare_overheat _ _ _)
  case fanProfile => exact putFc_stands s (s.fc.profile_reportless _ _ _ _ _ _)
  case tapePlay | tapeLocate | tapeRecord => exact dirTapeRequest_stands s _
  case tapeStop => exact putTtc_stands s s.ttc.stop_routine.reportless
  case tapeWind =>
    unfold dirTapeWind
    split
    · exact .refl s
    · exact dirTapeRequest_stands s _
  case tapeZero => exact putTtc_stands s (Ttc.checkTarget_reportless _)
  case cueWrite =>
    unfold dirCueWrite
    split
    · exact .refl s
    · exact putTtc_stands s reportless_nil
  case remoteSetup => exact putRr_stands s reportless_nil
  case cueRoute | audioLevel => exact putTtc_stands s reportless_nil
  case arbLevels => exact putCa_stands s (doneMark_reportless _ _)
  case arbMask => exact putCa_stands s (s.ca.setMasks_reportless _)
  case runLoad => exact putRcu_stands s (doneMark_reportless _ _)
  case runClearAll => exact putRcu_stands s (doneMark_reportless .done [7, 8])
  case runMask => exact putRcu_stands s (s.rcu.setMasks_reportless _ _)
  case runTrigger => exact putRcu_stands s (s.rcu.triggerDirective_reportless _)
  case runOrder => exact putRcu_stands s reportless_nil
  case showStart => exact putCe_stands s (s.ce.start_reportless _ _)
  case showPause => exact putCe_stands s reportless_nil
  case showResume => exact putCe_stands s s.ce.resume_reportless
  case showStop => exact putCe_stands s s.ce.stop_reportless
  case cueGo => exact putCe_stands s (s.ce.go_reportless _)
  case showLead => exact putCe_stands s (s.ce.setLead_reportless _ _)

theorem directive_informed (code : Byte) (operands : List Byte) :
    Informed Config.cascadeFuel (s.directive code operands).1 :=
  State.directive_induction (P := fun r => Informed Config.cascadeFuel r.1) s (h.informed _)
    (fun _ _ act => rowAct_informed h act) code operands

/-- An abandonment is a log entry and a mark. -/
theorem abandon_agreed : Agreed s.abandon := by
  obtain ⟨dd, ns, e, quiet, _⟩ := abandon_eq s
  exact h.of_eq (by rw [e]; simp) (by rw [e]; simp) (by rw [e]; simp) (by rw [e, State.post_notices, quiet]; simp)

theorem takeRow_informed {owner : State → State × Result} (code : Byte)
    (act : ∀ k : State, Agreed k → Informed Config.cascadeFuel (owner k).1) :
    Informed Config.cascadeFuel (State.takeRow code owner s) := by
  unfold State.takeRow
  dsimp only
  split
  · exact h.informed _
  · split
    · exact take_informed code (act s h)
    · exact take_informed code (act _ (abandon_agreed h))

/-! ### The bus -/

theorem leadByte_informed (code : Byte) : Informed Config.cascadeFuel (s.leadByte code) := by
  have closed := abandon_agreed h
  unfold State.leadByte
  dsimp only
  split
  · exact partReset_informed _
  · split
    · exact (answer_stands _ _ _).informed (closed.informed _)
    · exact take_informed code (directive_informed closed _ _)
    · exact closed.informed_of_eq rfl rfl rfl rfl

theorem operandByte_informed (b : Byte) : Informed Config.cascadeFuel (s.operandByte b) := by
  unfold State.operandByte
  split
  · dsimp only
    split
    · exact take_informed _ (directive_informed h _ _)
    · exact h.informed_of_eq rfl rfl rfl rfl
  · exact (post_stands s (by simp [Notice.reports])).informed (h.informed _)

theorem snoop_informed (a : Address) (b : Byte) : Informed Config.cascadeFuel (s.snoop a b) := by
  unfold State.snoop State.route
  split
  · exact h.informed _
  · split
    · exact leadByte_informed h b
    · split
      · exact operandByte_informed h b
      · split
        · exact h.informed_of_eq rfl rfl rfl rfl
        · split
          · exact ⟨h.cutoff, (h.informed _).levels⟩
          · split
            · exact h.informed_of_eq rfl rfl rfl rfl
            · split
              · exact (putCe_stands s (s.ce.edit_reportless _)).informed (h.informed _)
              · exact h.informed _

theorem beforeHost_agreed : Agreed s.beforeHost := by
  have held : Agreed s.holdHost := by
    unfold State.holdHost
    split
    · exact carry_agreed ((completeOwn_stands s).informed (h.informed _))
    · split
      · have served : Agreed { s with pu := s.pu.serve } := h.of_eq rfl rfl rfl rfl
        exact carry_agreed ((completeOwn_stands _).informed (served.informed _))
      · exact h
  unfold State.beforeHost
  dsimp only
  split
  · obtain ⟨_, _, e, _⟩ := s.holdHost.kickReports_eq
    rw [e]
    exact held.of_eq rfl rfl rfl rfl
  · exact h.of_eq rfl rfl rfl rfl

theorem hostWrite_agreed (a : Address) (b : Byte) (gap : Bool) : Agreed (s.hostWrite a b gap) := by
  unfold State.hostWrite
  refine run_agreed (snoop_informed ?_ a b)
  exact (beforeHost_agreed h).of_eq rfl rfl rfl rfl

theorem hostRead_agreed (a : Address) (gap : Bool) : Agreed (s.hostRead a gap) :=
  settle_agreed ((beforeHost_agreed h).of_eq rfl rfl rfl rfl)

/-! ### The remote -/

theorem acceptFrame_informed (key : BitVec 5) (toggle : Bool) :
    Informed Config.cascadeFuel (s.acceptFrame key toggle) := by
  rcases s.acceptFrame_cases key toggle with ⟨-, e⟩ | ⟨_, -, ⟨-, -, e⟩ | ⟨-, e⟩⟩ <;> rw [e]
  · exact (press_stands s key toggle).informed (h.informed _)
  · exact (putRr_stands s reportless_nil).informed (h.informed _)
  · have released := carry_agreed ((releaseKey_stands s).informed (h.informed _))
    exact (press_stands _ key toggle).informed (released.informed _)

theorem completeFrame_informed : Informed Config.cascadeFuel s.completeFrame := by
  unfold State.completeFrame
  split
  · exact h.informed _
  · split
    · dsimp only
      have done : Agreed (s.putRr (s.rr.frameDone, [])) :=
        h.of_eq (by simp) (by simp) (by simp) (by simp [State.putRr_notices])
      split
      · exact acceptFrame_informed done _ _
      · exact done.informed _
    · exact (putRr_stands s (s.rr.fail_reportless _ _)).informed (h.informed _)
end

/-! ### Every command -/

section

variable {s t : State}

theorem perform_agreed {f : State → State} (act : Informed Config.cascadeFuel (f s)) (ends : perform f s = .next t) :
    Agreed t := by
  obtain rfl : s.run f = t := Host.Outcome.next.inj ends
  exact run_agreed act

theorem performReset_agreed {f : State → State} (act : Informed Config.cascadeFuel (f s))
    (ends : performReset f s = .next t) : Agreed t := by
  obtain rfl : s.carry f = t := Host.Outcome.next.inj ends
  exact carry_agreed act

/-- A command whose act leaves the levels alone. -/
theorem perform_stands (h : Agreed s) {f : State → State} (act : LevelsStand s (f s)) (ends : perform f s = .next t) :
    Agreed t :=
  perform_agreed (act.informed (h.informed _)) ends

theorem hostWriteAt_agreed (h : Agreed s) {offset : Nat} {b : Byte} {gap : Bool}
    (ends : (.next (s.hostWriteAt offset b gap) : Host.Outcome State Fault Refusal) = .next t) : Agreed t := by
  obtain rfl := Host.Outcome.next.inj ends
  exact hostWrite_agreed h _ _ _

/-- Every command leaves a sound cutoff that holds the levels as their owners do. -/
theorem exec_agreed (h : Agreed s) {c : Instr} (ends : exec c s = .next t) : Agreed t := by
  cases row : rowAct c with
  | some owner =>
    obtain ⟨code, -, e⟩ := exec_row row
    rw [e] at ends
    exact perform_agreed (takeRow_informed h code fun _ k => rowAct_informed k row) ends
  | none =>
    cases c
    case powerOnReset pins => exact performReset_agreed (powerOn_informed s pins) ends
    case hostWrite => exact Host.Outcome.next.inj ends ▸ hostWrite_agreed h _ _ _
    case hostRead => exact Host.Outcome.next.inj ends ▸ hostRead_agreed h _ _
    case leadByte | unknownCode | operandByte | ridxWrite | curveWrite | keyMapWrite => exact hostWriteAt_agreed h ends
    case cueStoreWrite =>
      simp only [exec, execCueStoreWrite] at ends
      split at ends
      · exact hostWriteAt_agreed h ends
      · exact absurd ends nofun
    case partReset =>
      refine performReset_agreed ?_ ends
      unfold State.resetRow
      split
      · exact h.informed _
      · exact partReset_informed _
    case resetAsserted =>
      exact performReset_agreed (f := fun k => { k with pu := k.pu.hold }) (h.informed_of_eq rfl rfl rfl rfl) ends
    case ownCycleComplete => exact perform_stands h (completeOwn_stands s) ends
    case uptimeTick => exact perform_agreed ⟨⟨h.cutoff.flag, h.cutoff.law, h.cutoff.handed⟩, (h.informed _).levels⟩ ends
    case trayCodeChange => exact perform_agreed (codeChange_informed h _ _) ends
    case heatUpdate => exact perform_agreed (heatUpdate_informed h) ends
    case filterTimerExpiry input => exact perform_agreed (filterExpiry_informed h input) ends
    case thswChange | ilockChange =>
      exact perform_agreed (putCu_informed h ⟨h.cutoff.flag, h.cutoff.law, h.cutoff.handed⟩ rfl reportless_nil) ends
    case blackoutReport => exact perform_stands h (takeReport_stands s) ends
    case darkenLate => exact perform_stands h (putTmc_stands s Tmc.darkenLate_keepsTray) ends
    case ltopActive => exact perform_stands h (putTmc_stands s Tmc.ltopActive_keepsTray) ends
    case liftTimerExpiry => exact perform_stands h (putTmc_stands s Tmc.liftExpiry_keepsTray) ends
    case liftLoweringEnd => exact perform_stands h (putTmc_stands s Tmc.loweringEnd_keepsTray) ends
    case arrival => exact perform_stands h (putTmc_stands s (Tmc.arrive_keepsTray _)) ends
    case positionTimerExpiry => exact perform_stands h (putTmc_stands s Tmc.positionExpiry_keepsTray) ends
    case gseatActive => exact perform_stands h (putTmc_stands s Tmc.gseatActive_keepsTray) ends
    case dropTimerExpiry => exact perform_stands h (putTmc_stands s (Tmc.dropExpiry_keepsTray _)) ends
    case settleEnd => exact perform_stands h (putTmc_stands s Tmc.settleEnd_keepsTray) ends
    case lampUpdate => exact perform_stands h (putLc_stands_silent s Lc.timedUpdate_overheat) ends
    case fadeComplete => exact perform_stands h (putLc_stands_silent s Lc.completeFade_overheat) ends
    case strikeEnd => exact perform_stands h (putLc_stands s (Lc.strikeEnd_keepsHeat _)) ends
    case lcurChange => exact perform_stands h (putLc_stands_silent s (Lc.setCurrent_overheat _ _)) ends
    case failureWatchExpiry => exact perform_stands h (putLc_stands s Lc.watchExpiry_keepsHeat) ends
    case exchangeMoveEnd => exact perform_stands h (putLc_stands s Lc.moveEnd_keepsHeat) ends
    case ftachPulse => exact perform_stands h (putFc_stands s reportless_nil) ends
    case measurementWindowEnd =>
      refine perform_stands h ?_ ends
      split
      · exact putFc_stands s (s.fc.windowEnd_reportless _)
      · exact .refl s
    case tmotnPulse => exact perform_stands h (putTtc_stands s s.ttc.pulse_reportless) ends
    case leaderAllowanceEnd =>
      refine perform_stands h ?_ ends
      split
      · exact putTtc_stands s s.ttc.pulse_reportless
      · exact .refl s
    case tendChange => exact perform_stands h (putTtc_stands s (s.ttc.setTend_reportless _)) ends
    case brakingTimerExpiry => exact perform_stands h (putTtc_stands s s.ttc.brakingExpiry_reportless) ends
    case stallWatchExpiry => exact perform_stands h (putTtc_stands s s.ttc.stallExpiry_reportless) ends
    case cueinEdge => exact perform_stands h (putTtc_stands s (s.ttc.edge_reportless _ _)) ends
    case gapTimerExpiry => exact perform_stands h (putTtc_stands s s.ttc.gapExpiry_reportless) ends
    case stuckTimerExpiry => exact perform_stands h (putTtc_stands s s.ttc.stuckExpiry_reportless) ends
    case writerToneEnd => exact perform_stands h (putTtc_stands s s.ttc.toneEnd_reportless) ends
    case writerQuietEnd | audioRampStep => exact perform_stands h (putTtc_stands s reportless_nil) ends
    case remoteFrame => exact perform_agreed (completeFrame_informed h) ends
    case frameError => exact perform_stands h (putRr_stands s (s.rr.frameError_reportless _)) ends
    case lowLimitExpiry => exact perform_stands h (putRr_stands s s.rr.lowLimitExpiry_reportless) ends
    case rlineEdge => exact perform_stands h (putRr_stands s (s.rr.edge_reportless _ _)) ends
    case idleTimerExpiry | flimChange | escapeWatchExpiry => exact perform_stands h (putRr_stands s reportless_nil) ends
    case releaseTimerExpiry => exact perform_stands h (releaseExpiry_stands s) ends
    case repeatTimerExpiry => exact perform_stands h (repeatExpiry_stands s) ends
    case dwellTimerExpiry => exact perform_stands h (putRcu_stands s (s.rcu.dwellExpiry_reportless _)) ends
    case fireInstant => exact perform_stands h (putCe_stands s (s.ce.fireInstantReached_routine _ _).reportless) ends
    case timelineInstant => exact perform_stands h (putCe_stands s s.ce.timelineReached_routine.reportless) ends
    case awaitTimeout => exact perform_stands h (putCe_stands s (s.ce.timeoutReached_routine _).reportless) ends
    all_goals exact absurd row (Option.some_ne_none _)

end

/-- Settles O56: every command of the queue keeps the cutoff sound, and whatever changes OVERHEAT or TRAY_LOST tells the
Cutoff Unit within the command. -/
theorem cutoffKept : Obligations.CutoffKept := by
  intro s calm sound overheat trayLost t ends
  have h : Agreed s := ⟨sound, Prod.ext overheat trayLost, calm⟩
  have kept : Agreed t := by
    unfold step at ends
    split at ends
    · exact Host.Outcome.next.inj ends ▸ h
    · next c rest _ => exact exec_agreed (s := { s with pending := rest }) (h.of_eq rfl rfl rfl rfl) ends
  exact ⟨kept.cutoff, congrArg Prod.fst kept.levels, congrArg Prod.snd kept.levels⟩

end Sys2Proof.Machine
end

section
/-! ## THSW and ILOCK through their filters (R72, R73, R75) -/

namespace Sys2Proof.Machine

open Sys2Proof.Safety

theorem State.putCu_self (s : State) : s.putCu (s.cu, []) = s := rfl

/-- Where an act raises no further cause, its own record is that of the Cutoff Unit after the command. -/
theorem run_calm_cu {s : State} {f : State → State} (calm : Calm (f s).notices) : (s.run f).cu = (f s).cu := by
  rw [State.run, State.settle_cu, State.carry, drain_calm _ (by simpa using calm), State.act_cu]

/-! ### A reported level (R72) -/

section

variable (cu : Cu) (c : Cause) (v : Bool)

/-- The value is taken, and nothing else of the settings changes. -/
theorem Cu.report_same : (cu.setValue c v).SameSettings (cu.report c v).1 := by
  unfold Cu.report
  split
  · exact Cu.arrive_same _ c
  · exact .refl _

variable {cu c v}

/-- A value that does not become present, or whose cause is disabled, is taken and no more. -/
theorem Cu.report_taken (idle : v = false ∨ cu.present c = true ∨ cu.enabled c = false) :
    cu.report c v = (cu.setValue c v, []) := by
  unfold Cu.report
  split
  · next comes =>
    obtain ⟨rfl, absent⟩ := comes
    have disabled : cu.enabled c = false := by simpa [absent] using idle
    have still : (cu.setValue c true).enabled c = false := by
      simpa [Cu.enabled, (cu.setValue_fields c true).2.2.1] using disabled
    rw [Cu.arrive, if_neg (by simp [still])]
  · rfl

/-- An enabled cause that becomes present is in the set (R75). -/
theorem Cu.report_cuts (comes : v = true) (absent : cu.present c = false) (enabled : cu.enabled c = true) :
    CutFor c (cu.report c v).1 := by
  rw [Cu.report, if_pos ⟨comes, absent⟩]
  refine Cu.arrive_cut ?_
  simpa [Cu.enabled, (cu.setValue_fields c v).2.2.1] using enabled

end

/-! ### The expiry of a filter timer (R73) -/

/-- The expiry as the command carries it out. -/
def filterAct (input : FilteredInput) (k : State) : State := k.putCu (k.cu.filterExpiry input)

theorem execFilterTimerExpiry_eq (input : FilteredInput) (s : State) :
    exec (.filterTimerExpiry input) s = .next (s.run (filterAct input)) := rfl

section

variable {s : State} (calm : s.notices = []) {input : FilteredInput}

include calm

/-- A filter timer that has not run out leaves everything as it is. -/
theorem filter_early (early : s.cu.filterExpiry input = (s.cu, [])) : Effect [] [] s (s.run (filterAct input)) := by
  have still : StandsAt s [] [] (filterAct input s) := by
    rw [filterAct, early, State.putCu_self]
    exact .refl calm
  exact (run_ran_quiet still).effect rfl fun p _ => by cases p <;> simp [Part.same]

variable {cu : Cu} {c : Cause} {v : Bool} (due : s.cu.filterExpiry input = cu.report c v)

include due

theorem filter_cu : (s.run (filterAct input)).cu = (cu.report c v).1 := by
  rw [run_calm_cu]
  · rw [filterAct, State.putCu_cu, due]
  · rw [filterAct, State.putCu_notices, calm, due]
    exact (Cu.report_calm cu c v).queued

theorem filter_taken (idle : v = false ∨ cu.present c = true ∨ cu.enabled c = false) :
    (s.run (filterAct input)).cu = cu.setValue c v ∧ Effect [.cutoff] [] s (s.run (filterAct input)) :=
  putCu_quiet s calm (cu.setValue c v, []) rfl _ (by rw [filterAct, due, Cu.report_taken idle])

theorem filter_cut (comes : v = true) (absent : cu.present c = false) (enabled : cu.enabled c = true) :
    CutFor c (s.run (filterAct input)).cu := by
  rw [filter_cu calm due]
  exact Cu.report_cuts comes absent enabled

theorem filter_same : (cu.setValue c v).SameSettings (s.run (filterAct input)).cu := by
  rw [filter_cu calm due]
  exact cu.report_same c v

end

theorem Cu.filterExpiry_thermostat_early {cu : Cu} (early : cu.thswTimer ≠ some 0) :
    cu.filterExpiry .thermostat = (cu, []) :=
  if_neg (by simpa [Timer.due] using early)

theorem Cu.filterExpiry_thermostat_due {cu : Cu} (due : cu.thswTimer = some 0) :
    cu.filterExpiry .thermostat = Cu.report { cu with thswTimer := none } .thermostat cu.thswRaw :=
  if_pos (by simp [Timer.due, due])

theorem Cu.filterExpiry_interlock_early {cu : Cu} (early : cu.ilockTimer ≠ some 0) :
    cu.filterExpiry .interlock = (cu, []) :=
  if_neg (by simpa [Timer.due] using early)

theorem Cu.filterExpiry_interlock_due {cu : Cu} (due : cu.ilockTimer = some 0) :
    cu.filterExpiry .interlock = Cu.report { cu with ilockTimer := none } .interlock cu.ilockRaw :=
  if_pos (by simp [Timer.due, due])

/-- Settles O24: a change of a raw level touches its timer alone; an expiry whose time has come is a report of the raw
level. -/
theorem inputsFiltered : Obligations.InputsFiltered := by
  intro s calm
  refine ⟨fun active => ⟨_, rfl, putCu_quiet s calm (s.cu.setThsw active, []) rfl _ rfl⟩,
    fun opened => ⟨_, rfl, putCu_quiet s calm (s.cu.setIlock opened, []) rfl _ rfl⟩,
    ⟨_, execFilterTimerExpiry_eq _ s, fun early => filter_early calm (Cu.filterExpiry_thermostat_early early),
      fun due => ?_⟩,
    ⟨_, execFilterTimerExpiry_eq _ s, fun early => filter_early calm (Cu.filterExpiry_interlock_early early),
      fun due => ?_⟩⟩
  · have reports := Cu.filterExpiry_thermostat_due due
    have same := filter_same calm reports
    exact ⟨by rw [same]; rfl, by rw [same]; rfl, filter_taken calm reports, filter_cut calm reports⟩
  · have reports := Cu.filterExpiry_interlock_due due
    have same := filter_same calm reports
    exact ⟨by rw [same]; rfl, by rw [same]; rfl, filter_taken calm reports, filter_cut calm reports⟩

end Sys2Proof.Machine
end

section
/-! ## Several causes that arrive at once (R75 to R77, R83) -/

namespace Sys2Proof.Machine

open Sys2Proof.Safety

/-- The Cutoff Unit with this cause in the set besides. -/
def Cu.joined (cu : Cu) (c : Cause) : Cu := { cu with causes := cu.causes ||| c.bit }

theorem Cu.joined_inSet (cu : Cu) (c c' : Cause) : (cu.joined c).inSet c' = (cu.inSet c' || c' == c) := cu.inSet_join c c'

/-! ### The entries (R75, R76) -/

theorem Cu.handLamp_logged (cu : Cu) : loggedOf cu.handLamp.2 = [] := by
  unfold Cu.handLamp
  dsimp only
  split <;> rfl

theorem Cu.entryNotices_logged (cu : Cu) : loggedOf cu.entryNotices = [] := by
  simp only [Cu.entryNotices, loggedOf_append, List.append_eq_nil_iff]
  refine ⟨⟨⟨⟨?_, ?_⟩, ?_⟩, ?_⟩, rfl⟩ <;> split <;> rfl

section

variable {cu : Cu} {c : Cause} (enabled : cu.enabled c = true)

include enabled

/-- The first cause enters cutoff. -/
theorem Cu.arrive_enters (flag : cu.flag = false) :
    loggedOf (cu.arrive c).2 = [(.cutoffEnter, halfOf c.number)] := by
  rw [Cu.arrive, if_pos enabled, Cu.take, if_pos (by simp [flag])]
  simp [Cu.handLamp_logged, Cu.entryNotices_logged]

/-- A cause that comes to a cutoff without it is added. -/
theorem Cu.arrive_joins (flag : cu.flag = true) (fresh : cu.inSet c = false) : cu.arrive c =
    ((cu.joined c).handLamp.1, .log .cutoffCauseAdded (halfOf c.number) :: (cu.joined c).handLamp.2) := by
  rw [Cu.arrive, if_pos enabled, Cu.take, if_neg (by simp [flag]), if_neg (by simp [fresh])]
  rfl

end

/-- Causes that are still to arrive: each enabled, none in the set, none twice. -/
structure Cu.Awaits (cu : Cu) (cs : List Cause) : Prop where
  enabled : ∀ c ∈ cs, cu.enabled c = true
  fresh : ∀ c ∈ cs, cu.inSet c = false
  once : cs.Nodup

/-- The first of them has arrived. -/
theorem Cu.Awaits.next {cu : Cu} {c : Cause} {cs : List Cause} (h : cu.Awaits (c :: cs)) : (cu.arrive c).1.Awaits cs where
  enabled d hd := by
    rw [(cu.arrive_same c).enabled]
    exact h.enabled d (List.mem_cons_of_mem _ hd)
  fresh d hd := by
    have other : d ≠ c := fun same => (List.nodup_cons.mp h.once).1 (same ▸ hd)
    simp [Cu.arrive_inSet, h.fresh d (List.mem_cons_of_mem _ hd), other]
  once := (List.nodup_cons.mp h.once).2

/-- In a cutoff each is added. -/
theorem Cu.arriveAll_added {cu : Cu} {cs : List Cause} (h : cu.Awaits cs) (flag : cu.flag = true) :
    loggedOf (cu.arriveAll cs).2 = cs.map fun c => (Event.cutoffCauseAdded, halfOf c.number) := by
  induction cs generalizing cu with
  | nil => rfl
  | cons c cs ih =>
    have added : loggedOf (cu.arrive c).2 = [(.cutoffCauseAdded, halfOf c.number)] := by
      rw [Cu.arrive_joins (h.enabled c List.mem_cons_self) flag (h.fresh c List.mem_cons_self)]
      simp [Cu.handLamp_logged]
    rw [Cu.arriveAll_cons, Reaction.andThen, loggedOf_append, added, ih h.next (Cu.arrive_flag flag c)]
    rfl

/-- Without one the first of them enters cutoff and each other is added. -/
theorem Cu.arriveAll_entered {cu : Cu} {c : Cause} {cs : List Cause} (h : cu.Awaits (c :: cs)) (flag : cu.flag = false) :
    (cu.arriveAll (c :: cs)).1.flag = true ∧ loggedOf (cu.arriveAll (c :: cs)).2 =
      (.cutoffEnter, halfOf c.number) :: cs.map fun d => (Event.cutoffCauseAdded, halfOf d.number) := by
  have enabled := h.enabled c List.mem_cons_self
  have entered := (Cu.arrive_cut enabled).1
  rw [Cu.arriveAll_cons, Reaction.andThen, loggedOf_append, Cu.arrive_enters enabled flag, Cu.arriveAll_added h.next entered]
  exact ⟨Cu.arriveAll_flag entered cs, rfl⟩

/-- An enabled cause among them leaves cutoff standing. -/
theorem Cu.arriveAll_cut {cu : Cu} {c : Cause} {cs : List Cause} (h : cu.Awaits cs) (member : c ∈ cs) :
    CutFor c (cu.arriveAll cs).1 := by
  refine ⟨?_, by simp [Cu.arriveAll_inSet h.enabled, member]⟩
  cases cs with
  | nil => exact absurd member List.not_mem_nil
  | cons d cs =>
    rw [Cu.arriveAll_cons]
    exact Cu.arriveAll_flag (Cu.arrive_cut (h.enabled d List.mem_cons_self)).1 cs

/-! ### The lamp (R77) -/

theorem Cu.joined_heatInSet (cu : Cu) (c : Cause) : (cu.joined c).heatInSet = true ↔ cu.heatInSet = true ∨ c ∈ Cause.heat := by
  simp only [Cu.heatInSet, List.any_eq_true, Cu.joined_inSet, Bool.or_eq_true, beq_iff_eq]
  constructor
  · rintro ⟨d, heats, known | rfl⟩
    · exact .inl ⟨d, heats, known⟩
    · exact .inr heats
  · rintro (⟨d, heats, known⟩ | heats)
    · exact ⟨d, heats, .inl known⟩
    · exact ⟨c, heats, .inr rfl⟩

/-- The lamp has been told, and has nothing new to hear of these causes: it is out already, or none is a heat cause. -/
structure Cu.Unheard (cu : Cu) (cs : List Cause) : Prop where
  told : cu.lampHanded = cu.lampImposition
  stays : cu.lampImposition = .off ∨ ∀ c ∈ cs, c ∉ Cause.heat

/-- A cause of which the lamp hears nothing leaves the imposition as it is. -/
theorem Cu.joined_lampImposition {cu : Cu} {c : Cause} (flag : cu.flag = true)
    (stays : cu.lampImposition = .off ∨ c ∉ Cause.heat) : (cu.joined c).lampImposition = cu.lampImposition := by
  by_cases heat : c ∈ Cause.heat
  · have hot := (cu.joined_heatInSet c).mpr (.inr heat)
    have cut : (cu.joined c).flag = true := flag
    rw [stays.resolve_right (not_not_intro heat), Cu.lampImposition, if_neg (not_not_intro cut), if_pos hot]
  · have same : (cu.joined c).heatInSet = cu.heatInSet :=
      Bool.eq_iff_iff.mpr ((cu.joined_heatInSet c).trans (or_iff_left heat))
    rw [Cu.lampImposition, same]
    rfl

/-- Such a cause is added and nothing more is made of it. -/
theorem Cu.arrive_unheard {cu : Cu} {c : Cause} {cs : List Cause} (h : cu.Awaits (c :: cs)) (flag : cu.flag = true)
    (unheard : cu.Unheard (c :: cs)) :
    cu.arrive c = (cu.joined c, [.log .cutoffCauseAdded (halfOf c.number)]) ∧ (cu.joined c).Unheard cs := by
  have stays := Cu.joined_lampImposition flag (unheard.stays.imp_right fun cool => cool c List.mem_cons_self)
  have told : (cu.joined c).lampHanded = (cu.joined c).lampImposition := unheard.told.trans stays.symm
  have silent : (cu.joined c).handLamp = (cu.joined c, []) := if_pos told.symm
  refine ⟨?_, told, unheard.stays.imp stays.trans fun cool d hd => cool d (List.mem_cons_of_mem _ hd)⟩
  rw [Cu.arrive_joins (h.enabled c List.mem_cons_self) flag (h.fresh c List.mem_cons_self), silent]

/-- Causes of which the lamp hears nothing change the set alone. -/
theorem Cu.arriveAll_unheard {cu : Cu} {cs : List Cause} (h : cu.Awaits cs) (flag : cu.flag = true)
    (unheard : cu.Unheard cs) :
    (cu.arriveAll cs).1 = { cu with causes := (cu.arriveAll cs).1.causes } ∧ queuedOf (cu.arriveAll cs).2 = [] := by
  induction cs generalizing cu with
  | nil => exact ⟨rfl, rfl⟩
  | cons c cs ih =>
    obtain ⟨arrives, still⟩ := Cu.arrive_unheard h flag unheard
    have next := h.next
    rw [arrives] at next
    obtain ⟨record, quiet⟩ := ih next flag still
    rw [Cu.arriveAll_cons, Reaction.andThen, arrives]
    exact ⟨record, by simpa using quiet⟩

end Sys2Proof.Machine
end

section
/-! ## CUTOFF_SELECT and CUTOFF_ENABLE (04) -/

namespace Sys2Proof.Machine

open Sys2Proof.Safety

/-! ### The selections (R82) -/

theorem lampSelection?_some {b : Byte} (assigned : b.toNat % 4 < 3) : lampSelection? b =
    some (if b.toNat % 4 = 0 then .off else if b.toNat % 4 = 1 then .holdBlackout else .ignore) := by
  unfold lampSelection?
  generalize b.toNat % 4 = n at assigned
  interval_cases n <;> rfl

theorem lampSelection?_none {b : Byte} (unassigned : b.toNat % 4 = 3) : lampSelection? b = none := by
  simp [lampSelection?, unassigned]

theorem traySelection?_some {b : Byte} (assigned : b.toNat / 4 < 3) : traySelection? b =
    some (if b.toNat / 4 = 0 then .brake else if b.toNat / 4 = 1 then .free else .ignore) := by
  unfold traySelection?
  generalize b.toNat / 4 = n at assigned
  interval_cases n <;> rfl

theorem traySelection?_none {b : Byte} (unassigned : b.toNat / 4 = 3) : traySelection? b = none := by
  simp [traySelection?, unassigned]

section

variable {cu : Cu} {b0 b1 : Byte}

theorem Cu.select_refused (flag : cu.flag = true) : cu.select b0 b1 = (cu, .refusedState) := if_pos flag

theorem Cu.select_bad (flag : cu.flag = false) (bad : b0.toNat % 4 = 3 ∨ 3 ≤ b0.toNat / 4 ∨ 8 ≤ b1.toNat) :
    cu.select b0 b1 = (cu, .badOperand) := by
  rw [Cu.select, if_neg (by simp [flag])]
  split
  · next lamp tray =>
    have assigned : b0.toNat % 4 ≠ 3 := fun none_ => by simp [lampSelection?_none none_] at lamp
    have within : b0.toNat / 4 ≠ 3 := fun none_ => by simp [traySelection?_none none_] at tray
    exact if_pos (by omega)
  · rfl

theorem Cu.select_good (flag : cu.flag = false) (lamp : b0.toNat % 4 < 3) (tray : b0.toNat / 4 < 3) (rest : b1.toNat < 8) :
    cu.select b0 b1 = ({ cu with
      lampSel := if b0.toNat % 4 = 0 then .off else if b0.toNat % 4 = 1 then .holdBlackout else .ignore
      traySel := if b0.toNat / 4 = 0 then .brake else if b0.toNat / 4 = 1 then .free else .ignore
      tapeIgnore := b1.getLsbD 0, audioIgnore := b1.getLsbD 1, fanIgnore := b1.getLsbD 2 }, .done) := by
  rw [Cu.select, if_neg (by simp [flag]), lampSelection?_some lamp, traySelection?_some tray]
  exact if_neg (by omega)

end

theorem cutoffSelect_took {s : State} (ready : Ready s) {b0 b1 : Byte} {cu : Cu} {result : Result}
    (selects : s.cu.select b0 b1 = (cu, result)) :
    Took 0x38 result s { s with cu := cu } [] (s.run (State.takeRow 0x38 (dirCutoffSelect b0 b1))) := by
  have took := row_took_cu (u' := { s with cu := cu }) (code := 0x38) (owner := dirCutoffSelect b0 b1) ready
    (cu, doneMark result [4]) (fun k same => by rw [dirCutoffSelect, same, selects]) (later := [])
    fun dd => by simpa using .nil _ _
  simpa using took

/-! ### The enables (R83) -/

section

variable (s : State) (causes : Byte)

/-- The Cutoff Unit with the new enables, before anything arrives. -/
def Cu.enabling (cu : Cu) (causes : Byte) : Cu := { cu with enables := causes }

theorem Cu.awakened_awaits (cu : Cu) (causes : Byte) :
    (cu.enabling causes).Awaits (Cu.awakened cu (cu.enabling causes)) where
  enabled c hc := by
    have woken := (List.mem_filter.mp hc).2
    simp only [Bool.and_eq_true] at woken
    exact woken.1.1.2
  fresh c hc := by
    have woken := (List.mem_filter.mp hc).2
    simp only [Bool.and_eq_true, Bool.not_eq_true'] at woken
    exact woken.2
  once := List.Nodup.filter _ (by decide)

/-- The causes that CUTOFF_ENABLE wakes. -/
theorem Cu.mem_awakened {cu : Cu} {causes : Byte} {c : Cause} : c ∈ Cu.awakened cu (cu.enabling causes) ↔
    cu.enabled c = false ∧ (cu.enabling causes).enabled c = true ∧ cu.present c = true ∧ cu.inSet c = false := by
  have present : (cu.enabling causes).present c = cu.present c := by cases c <;> rfl
  have inSet : (cu.enabling causes).inSet c = cu.inSet c := rfl
  simp only [Cu.awakened, List.mem_filter, Bool.and_eq_true, Bool.not_eq_true', present, inSet]
  constructor
  · rintro ⟨-, ⟨⟨disabled, enabled⟩, stands⟩, fresh⟩
    exact ⟨disabled, enabled, stands, fresh⟩
  · rintro ⟨disabled, enabled, stands, fresh⟩
    exact ⟨Cause.mem_levels_of_present stands, ⟨⟨disabled, enabled⟩, stands⟩, fresh⟩

variable {s causes} (ready : Ready s)

include ready

/-- CUTOFF_ENABLE as it stands before its notices are taken. -/
theorem cutoffEnable_stands : ∃ dd : Dd, dd.taken = s.dd.taken ∧
    StandsAt { s with cu := (s.cu.enable causes).1, dd := dd.answer 0x39 .done }
      (abandoned 0x39 s ++ loggedOf (s.cu.enable causes).2) (queuedOf (s.cu.enable causes).2)
      (State.takeRow 0x39 (dirCutoffEnable causes) s) :=
  row_stands_cu ready _ fun k same => by rw [dirCutoffEnable, same]

/-- The Cutoff Unit's record is its own to the end: what it hands on brings no cause. -/
theorem cutoffEnable_cu :
    (s.run (State.takeRow 0x39 (dirCutoffEnable causes))).cu = (s.cu.enable causes).1 := by
  obtain ⟨dd, _, stands⟩ := cutoffEnable_stands (causes := causes) ready
  rw [run_calm_cu (by rw [stands.notices]; exact (Cu.arriveAll_calm _ _).queued), stands.cu]

/-- Its entries come first (R213). -/
theorem cutoffEnable_logs : LogsFirst (abandoned 0x39 s ++ loggedOf (s.cu.enable causes).2) s
    (s.run (State.takeRow 0x39 (dirCutoffEnable causes))) := by
  obtain ⟨dd, _, stands⟩ := cutoffEnable_stands (causes := causes) ready
  exact logsFirst_run stands rfl (Cu.arriveAll_calm _ _).queued

theorem cutoffEnable_answer : (s.run (State.takeRow 0x39 (dirCutoffEnable causes))).dd.lastCode = 0x39 ∧
    (s.run (State.takeRow 0x39 (dirCutoffEnable causes))).dd.lastResult = 0 ∧
    (s.run (State.takeRow 0x39 (dirCutoffEnable causes))).dd.taken = s.dd.taken + 1 := by
  obtain ⟨dd, taken, stands⟩ := cutoffEnable_stands (causes := causes) ready
  rw [State.run_dd, stands.dd, ← taken]
  exact ⟨rfl, rfl, rfl⟩

/-- Where nothing is handed on, the cutoff alone has changed. -/
theorem cutoffEnable_answered (quiet : queuedOf (s.cu.enable causes).2 = []) :
    Answered 0x39 .done [.cutoff] (loggedOf (s.cu.enable causes).2) s
      (s.run (State.takeRow 0x39 (dirCutoffEnable causes))) := by
  have took := row_took_cu (u' := { s with cu := (s.cu.enable causes).1 }) (code := 0x39) (owner := dirCutoffEnable causes)
    ready (result := .done) (later := []) (s.cu.enable causes) (fun k same => by rw [dirCutoffEnable, same])
    fun dd => by rw [quiet]; exact .nil _ _
  rw [List.append_nil] at took
  exact took.answered rfl fun p hp => by cases p <;> simp [Part.same] at hp ⊢

end

/-- Settles O21: the selections by the flag and the operands; the enables by the causes that they wake, which arrive in
order at a Cutoff Unit with the new enables. -/
theorem cutoffSettings : Obligations.CutoffSettings := by
  constructor
  · rintro b0 b1 s ready lamp rfl tray rfl
    refine ⟨_, rfl, fun flag => ?_, fun flag bad => ?_, fun flag lamp tray rest => ?_⟩
    · exact (cutoffSelect_took ready (Cu.select_refused flag)).answered rfl fun p hp => by
        cases p <;> simp [Part.same]
    · exact (cutoffSelect_took ready (Cu.select_bad flag bad)).answered rfl fun p hp => by
        cases p <;> simp [Part.same]
    · have took := cutoffSelect_took ready (Cu.select_good flag lamp tray rest)
      exact ⟨took.cu, took.answered rfl fun p hp => by cases p <;> simp [Part.same] at hp ⊢⟩
  · rintro causes s ready after rfl
    have record := cutoffEnable_cu (causes := causes) ready
    have awaits := s.cu.awakened_awaits causes
    have inSet := Cu.arriveAll_inSet awaits.enabled
    obtain ⟨code, result, taken⟩ := cutoffEnable_answer (causes := causes) ready
    refine ⟨_, rfl, ?_, code, result, taken, fun c member => ?_, fun c disabled enabled present => ?_, ?_, fun none_ => ?_⟩
    · rw [record]
      exact (Cu.arriveAll_same _ _).enables
    · rw [record]
      exact (inSet c).trans (by rw [show (s.cu.enabling causes).inSet c = true from member, Bool.true_or])
    · rw [record]
      by_cases member : s.cu.inSet c = true
      · exact .inr member
      · exact .inl (Cu.arriveAll_cut awaits (Cu.mem_awakened.mpr ⟨disabled, enabled, present, by simpa using member⟩))
    · intro woken law
      obtain rfl : woken = Cu.awakened s.cu (s.cu.enabling causes) := law
      rw [record]
      refine ⟨inSet, fun flag first rest woken => ?_, fun flag => ?_⟩
      · have logs := cutoffEnable_logs (causes := causes) ready
        rw [woken] at awaits
        obtain ⟨entered, log⟩ := Cu.arriveAll_entered awaits flag
        rw [show s.cu.enable causes = (s.cu.enabling causes).arriveAll (first :: rest) from
          congrArg (s.cu.enabling causes).arriveAll woken] at logs ⊢
        exact ⟨entered, log ▸ logs⟩
      · have log := Cu.arriveAll_added awaits flag
        refine ⟨Cu.arriveAll_flag (cu := s.cu.enabling causes) flag _, log ▸ cutoffEnable_logs ready, fun told stays => ?_⟩
        have cool : Cause.overheat ∉ Cu.awakened s.cu (s.cu.enabling causes) ∧
            Cause.thermostat ∉ Cu.awakened s.cu (s.cu.enabling causes) →
            ∀ c ∈ Cu.awakened s.cu (s.cu.enabling causes), c ∉ Cause.heat := by
          rintro ⟨overheat, thermostat⟩ c hc
          cases c with
          | overheat => exact absurd hc overheat
          | thermostat => exact absurd hc thermostat
          | fanStall => exact absurd (Cu.mem_awakened.mp hc).2.2.1 nofun
          | _ => decide
        obtain ⟨same, quiet⟩ := Cu.arriveAll_unheard awaits flag ⟨told, stays.imp_right cool⟩
        exact ⟨same, log ▸ cutoffEnable_answered ready quiet⟩
    · have asleep : Cu.awakened s.cu (s.cu.enabling causes) = [] := List.eq_nil_iff_forall_not_mem.mpr fun c hc => by
        obtain ⟨disabled, enabled, present, fresh⟩ := Cu.mem_awakened.mp hc
        have known : (s.cu.enabling causes).enabled c = false ∨ _ := (none_ c).resolve_left (by simp [disabled])
        simp [enabled, present, fresh] at known
      have still : s.cu.enable causes = (s.cu.enabling causes, []) := congrArg (s.cu.enabling causes).arriveAll asleep
      have answered := cutoffEnable_answered (causes := causes) ready (by rw [still]; rfl)
      rw [still] at answered record
      exact ⟨record, answered⟩

end Sys2Proof.Machine
end
section
/-! ## The laws of the deck, reaction by reaction (05)

Each reaction of the tape transport keeps the deck sound: what a brake, a motion begun and a request make of the record is
said once, in the words of Safety, and the laws are read off it. -/

namespace Sys2Proof.Machine

open Sys2Proof.Safety

/-! ### What the shared steps of the transport make of the record -/

/-- A motion entered is the one that Safety describes (R90, R97, R98, R102). -/
theorem Ttc.enterMoving_begins (t : Ttc) (state : Transport) (direction : Direction) :
    t.enterMoving state direction = begins t state direction := by
  unfold Ttc.enterMoving begins Ttc.deafen
  dsimp only
  split <;> rfl

/-- A reaction that leaves this record, hands over these entries and makes no notice. -/
def Gives {α : Type} (r : Reaction α) (a : α) (events : List (Event × Half)) : Prop :=
  r.1 = a ∧ loggedOf r.2 = events ∧ queuedOf r.2 = []

/-- What leaving a state does to the record and to a burst in progress (R102, R107). -/
theorem Ttc.leaveRecording_gives (t : Ttc) : Gives t.leaveRecording (recordingEnds t) (cutBurst t) := by
  unfold Ttc.leaveRecording recordingEnds cutBurst
  split
  · next recording =>
    rw [recording]
    cases t.writer <;> exact ⟨rfl, rfl, rfl⟩
  · next other =>
    refine ⟨rfl, ?_, rfl⟩
    split
    · next recording _ => exact absurd recording other
    · rfl

/-- What a brake does, with the burst it cuts (R92, R107). -/
theorem Ttc.brake_gives (t : Ttc) (latched : Option TapeRequest) :
    Gives (t.brake latched) (brakes t latched) (cutBurst t) := ⟨t.brake_brakes latched, t.leaveRecording_gives.2⟩

/-- A request carried out from STOPPED is the one that Safety describes (R90, R95). -/
theorem Ttc.start_gives (t : Ttc) (req : TapeRequest) : Gives (t.start req) (carriedOut t req).1 (carriedOut t req).2 := by
  cases req with
  | play => exact ⟨t.enterMoving_begins .playing .forward, rfl, rfl⟩
  | record => exact ⟨t.enterMoving_begins .recording .forward, rfl, rfl⟩
  | wind reverse =>
    cases reverse
    · exact ⟨t.enterMoving_begins .windFwd .forward, rfl, rfl⟩
    · exact ⟨t.enterMoving_begins .windRev .reverse, rfl, rfl⟩
  | locate target =>
    unfold Ttc.start carriedOut Ttc.locateDirection
    by_cases here : target = t.counter
    · simp [Gives, here, Ttc.locateDone]
    · have apart : target.toNat ≠ t.counter.toNat := fun same => here (BitVec.eq_of_toNat_eq same)
      by_cases ahead : t.counter.toNat < target.toNat
      · simp [Gives, here, ahead, Ttc.enterMoving_begins]
      · have behind : target.toNat < t.counter.toNat := by omega
        simp [Gives, here, ahead, behind, Ttc.enterMoving_begins]

/-! ### Brakes and motions -/

section

variable {t : Ttc} (h : Deck t)

include h

/-- A moving tape has a direction (05, section 5.1). -/
theorem directed_of_moving (moving : t.state.moving = true) : t.direction ≠ .none := by
  intro still
  rw [h.direction.mp still] at moving
  cases moving

/-- The writer rests outside RECORDING (R107). -/
theorem writer_rests (other : t.state ≠ .recording) : t.writer = .idle :=
  Decidable.byContradiction fun works => other (h.writer works)

/-- Nothing is latched outside BRAKING (R89). -/
theorem none_latched (other : t.state ≠ .braking) : t.latched = none :=
  Option.not_isSome_iff_eq_none.mp fun latched => other (h.latched latched)

theorem brakes_deck (directed : t.direction ≠ .none) (latched : Option TapeRequest) : Deck (brakes t latched) := by
  by_cases recording : t.state = .recording
  · constructor <;> simp [brakes, recordingEnds, recording, h.fifo, directed]
    split <;> simp
  · have listens : t.decoder ≠ .off := fun off => recording (h.decoder.mp off)
    constructor <;> simp [brakes, recordingEnds, recording, h.fifo, directed, listens, writer_rests h recording]

theorem begins_deck (stopped : t.state = .stopped) {state : Transport} {direction : Direction}
    (moving : state.moving = true) (directed : direction ≠ .none) : Deck (begins t state direction) := by
  have rests : t.writer = .idle := writer_rests h (by rw [stopped]; decide)
  have listens : t.decoder ≠ .off := fun off => absurd (h.decoder.mp off) (by rw [stopped]; decide)
  have goes : state ≠ .stopped := by rintro rfl; cases moving
  by_cases recording : state = .recording
  · subst recording
    constructor <;> simp [begins, h.fifo, directed, rests, Transport.moving]
  · constructor <;> simp [begins, recording, h.fifo, directed, listens, rests, goes, moving]

/-- A request carried out from STOPPED (R90, R95). -/
theorem carriedOut_deck (stopped : t.state = .stopped) (req : TapeRequest) : Deck (carriedOut t req).1 := by
  cases req with
  | play => exact begins_deck (state := .playing) h stopped rfl nofun
  | record => exact begins_deck (state := .recording) h stopped rfl nofun
  | wind reverse =>
    cases reverse
    · exact begins_deck (state := .windFwd) h stopped rfl nofun
    · exact begins_deck (state := .windRev) h stopped rfl nofun
  | locate target =>
    have aimed : Deck { t with locateTarget := some target } := { h with }
    rw [carriedOut]
    split
    · exact { h with latched := nofun }
    · exact begins_deck (state := .locating) aimed stopped rfl (by split <;> exact nofun)

/-! ### Requests, stops and the end of the tape -/

theorem redirect_deck (moving : t.state.moving = true) (req : TapeRequest) : Deck (t.redirect req).1 := by
  have braked (latched : Option TapeRequest) : Deck (t.brake latched).1 := by
    rw [Ttc.brake_brakes]
    exact brakes_deck h (directed_of_moving h moving) latched
  unfold Ttc.redirect
  split
  · exact h
  · split
    · dsimp only
      split
      · exact braked none
      · split
        · exact { h with }
        · exact braked _
    · exact braked _

theorem request_deck (req : TapeRequest) : Deck (t.request req).1.1 := by
  unfold Ttc.request
  split
  · exact h
  · split
    · next stopped =>
      rw [(t.start_gives req).1]
      exact carriedOut_deck h stopped req
    · next braking => exact { h with latched := fun _ => braking }
    · next running braking =>
      refine redirect_deck h ?_ req
      cases state : t.state <;> first | rfl | contradiction

theorem stop_deck : Deck t.stop.1 := by
  unfold Ttc.stop
  split
  · exact h
  · exact { h with latched := nofun }
  · next running _ =>
    rw [Ttc.brake_brakes]
    exact brakes_deck h (fun still => running (h.direction.mp still)) none

theorem tapeEnd_deck (moving : t.state.moving = true) : Deck t.tapeEnd.1 := by
  rw [show t.tapeEnd.1 = brakes t none from t.brake_brakes none]
  exact brakes_deck h (directed_of_moving h moving) none

omit h in
/-- The target of a locate is reached in LOCATING alone (R96). -/
theorem locating_of_atTarget (reached : t.atTarget = true) : t.state = .locating := by
  unfold Ttc.atTarget at reached
  split at reached
  · assumption
  · cases reached

theorem checkTarget_deck : Deck t.checkTarget.1 := by
  unfold Ttc.checkTarget
  split
  · next reached =>
    exact tapeEnd_deck h (by rw [locating_of_atTarget reached]; rfl)
  · exact h

/-! ### The counter, TEND and the two timers of the transport -/

theorem pulse_deck : Deck t.pulse.1 := by
  unfold Ttc.pulse
  split
  · exact h
  · have watch : (if t.state = .playing ∨ t.state = .recording then some 500 else t.stallWatch).isSome = true ↔
        t.state = .playing ∨ t.state = .recording := by
      split
      · next watched => simpa using watched
      · exact h.watch
    have counted : Deck { t with
        counter := t.stepped,
        stallWatch := if t.state = .playing ∨ t.state = .recording then some 500 else t.stallWatch,
        leader := t.leader.map (· + 1) } :=
      { h with watch := watch, leader := by simpa using h.leader }
    dsimp only
    split
    · next last => exact tapeEnd_deck counted last.1
    · exact checkTarget_deck counted

theorem zero_deck : Deck t.zero.1 := checkTarget_deck (t := { t with counter := 0 }) { h with }

theorem setTend_deck (active : Bool) : Deck (t.setTend active).1 := by
  unfold Ttc.setTend
  split
  · exact h
  · next changes =>
    cases active with
    | true =>
      have raised : Deck { t with tend := true } := { h with leader := fun runs => ⟨(h.leader runs).1, rfl⟩ }
      dsimp only
      split
      · split
        · next moving => exact tapeEnd_deck raised moving
        · exact raised
      · contradiction
    | false => exact { h with leader := nofun }

theorem brakingExpiry_deck : Deck t.brakingExpiry.1 := by
  unfold Ttc.brakingExpiry
  split
  · next expired =>
    have braking := expired.1
    have stopped : Deck { t with state := .stopped, direction := .none, brakingTimer := none, latched := none } := by
      constructor
      · exact h.fifo
      · exact nofun
      · simp
      · simp [h.decoder, braking]
      · simp [writer_rests h (by rw [braking]; decide)]
      · simpa [braking] using h.watch
      · simpa [braking, Transport.moving] using h.leader
    dsimp only
    split
    · exact stopped
    · next req _ =>
      rw [(Ttc.start_gives _ req).1]
      exact carriedOut_deck stopped rfl req
  · exact h

theorem stallExpiry_deck : Deck t.stallExpiry.1 := by
  unfold Ttc.stallExpiry
  split
  · next stalled =>
    have unlatched : t.latched = none := none_latched h (by rcases stalled.1 with e | e <;> rw [e] <;> decide)
    dsimp only
    rw [(Ttc.leaveRecording_gives t).1]
    by_cases recording : t.state = .recording
    · constructor <;> simp [recordingEnds, recording, h.fifo, unlatched]
      split <;> simp
    · have listens : t.decoder ≠ .off := fun off => recording (h.decoder.mp off)
      constructor <;> simp [recordingEnds, recording, h.fifo, unlatched, listens, writer_rests h recording]
  · exact h

/-! ### The cue track -/

/-- A decoder that listens goes from one state to another (R99, R101, R102). -/
theorem redecoded_deck (listening : t.decoder ≠ .off) {u : Ttc} (same : u = { t with
    cuein := u.cuein, decoder := u.decoder, burstStart := u.burstStart, burstCount := u.burstCount, lastFall := u.lastFall,
    gapTimer := u.gapTimer, stuckTimer := u.stuckTimer, past800 := u.past800 }) (listens : u.decoder ≠ .off) : Deck u := by
  have tape : t.state ≠ .recording := fun recording => listening (h.decoder.mpr recording)
  rw [same]
  exact { h with decoder := ⟨fun off => absurd off listens, fun recording => absurd recording tape⟩ }

theorem routeCue_deck (e : CueEntry) : Deck (t.routeCue e).1 := by
  unfold Ttc.routeCue
  split
  · unfold Ttc.join
    split
    · next room => exact { h with fifo := by simpa using room }
    · exact h
  · exact h
  · split
    · exact h
    · exact h
    · exact h
    · exact stop_deck h

theorem burstEnd_deck (listening : t.decoder ≠ .off) : Deck t.burstEnd.1 := by
  have heard : Deck { t with decoder := .quiet, gapTimer := none, stuckTimer := none, past800 := false } :=
    redecoded_deck h listening rfl nofun
  unfold Ttc.burstEnd
  dsimp only
  split
  · exact heard
  · exact routeCue_deck heard _

theorem stick_deck (listening : t.decoder ≠ .off) : Deck t.stick.1 := redecoded_deck h listening rfl nofun

theorem edge_deck (rising : Bool) (now : Word) : Deck (t.edge rising now).1 := by
  unfold Ttc.edge
  split
  · exact h
  · have edged : Deck { t with cuein := rising } := { h with }
    dsimp only
    split
    case h_1 e _ => exact redecoded_deck h (by rw [e]; nofun) rfl nofun
    case h_2 e _ => exact redecoded_deck h (by rw [e]; nofun) rfl nofun
    case h_3 e _ =>
      split
      · exact stick_deck edged (by rw [e]; nofun)
      · exact redecoded_deck h (by rw [e]; nofun) rfl nofun
    case h_4 => exact { h with }
    case h_5 => exact { h with }
    case h_6 => exact { h with }

theorem gapExpiry_deck : Deck t.gapExpiry.1 := by
  unfold Ttc.gapExpiry
  split
  · split
    case h_1 e => exact burstEnd_deck h (by rw [e]; nofun)
    case h_2 e => exact redecoded_deck h (by rw [e]; nofun) rfl nofun
    case h_3 e => exact redecoded_deck h (by rw [e]; nofun) rfl nofun
    case h_4 => exact h
  · exact h

theorem stuckExpiry_deck : Deck t.stuckExpiry.1 := by
  unfold Ttc.stuckExpiry
  split
  · split
    case h_1 e => exact stick_deck h (by rw [e]; nofun)
    case h_2 e => exact { h with }
    case h_3 => exact h
  · exact h

theorem setRoute_deck (mode markChannel : Byte) : Deck (t.setRoute mode markChannel).1 := by
  unfold Ttc.setRoute
  split
  · refine { h with fifo := ?_ }
    dsimp only
    split
    · exact Nat.zero_le _
    · exact h.fifo
  · exact h

omit h in
/-- A look at the FIFO takes entries out of it (R179). -/
theorem lookFifo_length (cls : Nat) (fifo : List CueEntry) : (lookFifo cls fifo).1.length ≤ fifo.length := by
  induction fifo with
  | nil => exact Nat.le_refl _
  | cons e rest ih =>
    unfold lookFifo
    split
    · exact Nat.le_succ _
    · exact Nat.le_succ_of_le ih

/-! ### The writer and the sound -/

theorem write_deck (cls : CueClass) : Deck (t.write cls).1 := by
  unfold Ttc.write
  split
  · exact h
  · next recording =>
    split
    · exact h
    · exact { h with writer := fun _ => not_not.mp recording }

theorem toneEnd_deck : Deck t.toneEnd.1 := by
  unfold Ttc.toneEnd
  split
  · next tone =>
    split
    · exact { h with writer := fun _ => h.writer (by rw [tone]; nofun) }
    · exact h
  · exact h

theorem quietEnd_deck : Deck t.quietEnd := by
  unfold Ttc.quietEnd
  split
  · exact { h with writer := fun works => absurd rfl works }
  · exact h

theorem rampStep_deck : Deck t.rampStep := by
  unfold Ttc.rampStep
  split
  · exact h
  · split
    · exact { h with }
    · exact h

theorem startRamp_deck (target time : Nat) : Deck (t.startRamp target time) := by
  unfold Ttc.startRamp
  (repeat' split) <;> exact { h with }

theorem audioLevel_deck (level time : Nat) : Deck (t.audioLevel level time) := by
  have set : Deck { t with setLevel := level } := { h with }
  unfold Ttc.audioLevel
  dsimp only
  split
  · exact set
  · exact startRamp_deck set _ _

/-! ### Impositions, time and the reset -/

theorem imposeTape_deck (stop : Bool) : Deck (t.imposeTape stop).1 := by
  unfold Ttc.imposeTape
  split
  · exact stop_deck (t := { t with stopImposed := true }) { h with }
  · exact { h with }

theorem imposeAudio_deck (mute : Bool) : Deck (t.imposeAudio mute) := by
  unfold Ttc.imposeAudio
  split
  · exact h
  · exact startRamp_deck (t := { t with muteImposed := mute }) { h with } _ _

theorem tick_deck : Deck t.tick := { h with watch := by simpa [Ttc.tick, Timer.tick] using h.watch }

omit h in
/-- A tape at rest, with the pins as they stand (R111, R112). -/
theorem rested_deck (tend cuein : Bool) (counter : Half) :
    Deck (Ttc.listen { Ttc.reset with tend := tend, cuein := cuein, counter := counter }) := by
  constructor <;> simp [Ttc.listen, Ttc.reset]
  split <;> simp

end

end Sys2Proof.Machine
end

section
/-! ## The laws of the remote, reaction by reaction (06) -/

namespace Sys2Proof.Machine

open Sys2Proof.Safety

section

variable {rr : Rr} (h : Remote rr)

include h

/-! ### The frame receiver -/

theorem resync_remote : Remote rr.resync := { h with bits := trivial }

/-- A frame that fails discards its bits and counts the error up to 255 (R116). -/
theorem fail_remote (failure : FrameFailure) (listens : Bool) : Remote (rr.fail failure listens).1 := by
  have counted : Remote { rr with errors := satInc 255 rr.errors } := { h with errors := Nat.min_le_left _ _ }
  unfold Rr.fail
  dsimp only
  split
  · exact { counted with bits := trivial }
  · exact resync_remote counted

theorem enterSpace_remote {bits : List Bool} (short : bits.length ≤ 12) : Remote (rr.enterSpace bits) :=
  { h with bits := short }

/-- The bits of SPACE (R114). -/
theorem space_bits {bits : List Bool} (space : rr.receiver = .space bits) : bits.length ≤ 12 := by
  have short := h.bits
  rwa [space] at short

/-- The bits of BIT (R114). -/
theorem bit_bits {bits : List Bool} (bit : rr.receiver = .bit bits) : bits.length ≤ 11 := by
  have short := h.bits
  rwa [bit] at short

theorem rlineEdge_remote (rising : Bool) (micros : Nat) : Remote (rr.edge rising micros).1 := by
  unfold Rr.edge
  split
  · exact h
  · have edged : Remote { rr with rline := rising } := { h with }
    dsimp only
    split
    · exact { h with bits := trivial }
    · split
      · exact enterSpace_remote edged (Nat.zero_le _)
      · exact fail_remote edged _ _
    · next bits space _ =>
      have short := space_bits h space
      split
      · exact fail_remote edged _ _
      · next few =>
        split
        · exact { h with bits := show bits.length ≤ 11 by omega }
        · exact fail_remote edged _ _
    · next bits bit _ =>
      have short := bit_bits h bit
      split
      · exact enterSpace_remote edged (by rw [List.length_append]; exact Nat.succ_le_succ short)
      · exact fail_remote edged _ _
    · exact { h with }
    · exact edged

theorem lowLimitExpiry_remote : Remote rr.lowLimitExpiry.1 := by
  unfold Rr.lowLimitExpiry
  (repeat' split) <;> first | exact h | exact fail_remote h _ _

theorem idleExpiry_remote : Remote rr.idleExpiry := by
  unfold Rr.idleExpiry
  split
  · exact { h with bits := trivial }
  · exact h

theorem frameDone_remote : Remote rr.frameDone := { h with bits := trivial }

theorem frameError_remote (failure : FrameFailure) : Remote (rr.frameError failure).1 := by
  have high : Remote { rr with rline := true } := { h with }
  have low : Remote { rr with rline := false } := { h with }
  unfold Rr.frameError
  (repeat' split) <;> first | exact h | exact fail_remote h _ _ | exact fail_remote high _ _ | exact fail_remote low _ _

theorem setup_remote (unit enable : Byte) : Remote (rr.setup unit enable).1 := by
  unfold Rr.setup
  split
  · exact h
  · exact { h with }

/-! ### The focus drive and the held key -/

theorem stopFocus_remote : Remote rr.stopFocus := { h with drive := fun drives => absurd rfl drives }

/-- A drive begins for the key that is held (R124). -/
theorem startFocus_remote (held : rr.held.isSome = true) (direction : Focus) : Remote (rr.startFocus direction) := by
  unfold Rr.startFocus
  split
  · exact h
  · exact { h with drive := fun _ => held }

theorem limitReached_remote : Remote rr.limitReached :=
  stopFocus_remote (rr := { rr with limitSide := rr.focus.side }) { h with }

theorem setFlim_remote (active : Bool) : Remote (rr.setFlim active) := by
  have set : Remote { rr with flim := active } := { h with }
  unfold Rr.setFlim
  dsimp only
  split
  · exact h
  · split
    · split
      · exact set
      · exact limitReached_remote set
    · exact { set with }

theorem escapeExpiry_remote : Remote rr.escapeExpiry := by
  unfold Rr.escapeExpiry
  split
  · exact limitReached_remote h
  · exact h

/-- A key that ends takes its drive with it (R119, R124). -/
theorem dropKey_remote : Remote rr.dropKey := { h with drive := fun drives => absurd rfl drives }

theorem hold_remote (key : BitVec 5) (toggle consumed : Bool) : Remote (rr.hold key toggle consumed) :=
  { h with drive := fun _ => rfl }

theorem rrTick_remote : Remote rr.tick := { h with }

omit h in
/-- The receiver at rest, with the pins and a key map as they stand (R127, R128). -/
theorem rested_remote (rline flim : Bool) (keyMap : List Byte) :
    Remote (Rr.resync { Rr.reset with rline := rline, flim := flim, keyMap := keyMap }) :=
  ⟨trivial, Nat.zero_le _, fun drives => absurd rfl drives⟩

end

end Sys2Proof.Machine
end

section
/-! ## Every step keeps the deck and the remote sound (05, 06) -/

namespace Sys2Proof.Machine

open Sys2Proof.Safety

/-- Deck and remote are sound. -/
def Attended (s : State) : Prop := Deck s.ttc ∧ Remote s.rr

/-- Where deck and remote stand, they are sound still. -/
theorem Attended.of_eq {s t : State} (h : Attended s) (ttc : t.ttc = s.ttc) (rr : t.rr = s.rr) : Attended t := by
  rwa [Attended, ttc, rr]

/-! ### What leaves the deck and the remote alone -/

section

variable (s : State)

@[simp] theorem attended_putTmc (r : Reaction Tmc) : Attended (s.putTmc r) ↔ Attended s := by simp [Attended]

@[simp] theorem attended_putLc (r : Reaction Lc) : Attended (s.putLc r) ↔ Attended s := by simp [Attended]

@[simp] theorem attended_putFc (r : Reaction Fc) : Attended (s.putFc r) ↔ Attended s := by simp [Attended]

@[simp] theorem attended_putCu (r : Reaction Cu) : Attended (s.putCu r) ↔ Attended s := by simp [Attended]

@[simp] theorem attended_putCa (r : Reaction Ca) : Attended (s.putCa r) ↔ Attended s := by simp [Attended]

@[simp] theorem attended_putRcu (r : Reaction Rcu) : Attended (s.putRcu r) ↔ Attended s := by simp [Attended]

@[simp] theorem attended_putCe (r : Reaction Ce) : Attended (s.putCe r) ↔ Attended s := by simp [Attended]

@[simp] theorem attended_post (ns : List Notice) : Attended (s.post ns) ↔ Attended s := by simp [Attended]

@[simp] theorem attended_act (f : State → State) : Attended (s.act f) ↔ Attended (f s) := by simp [Attended]

@[simp] theorem attended_settle : Attended s.settle ↔ Attended s := by simp [Attended]

@[simp] theorem attended_kickReports : Attended s.kickReports ↔ Attended s := by
  obtain ⟨_, _, e, _⟩ := s.kickReports_eq
  rw [e]
  rfl

@[simp] theorem attended_answer (code : Byte) (result : Result) : Attended (s.answer code result) ↔ Attended s := by
  simp [Attended, State.answer]

end

section

variable {s : State} (h : Attended s)

include h

theorem abandon_attended : Attended s.abandon := by
  obtain ⟨dd, ns, e, _⟩ := abandon_eq s
  exact h.of_eq (by rw [e]; simp) (by rw [e]; simp)

theorem completeOwn_attended : Attended s.completeOwn := by
  unfold State.completeOwn State.byteWritten State.askByte
  (repeat' (first | split | dsimp only)) <;> first | exact h | exact (attended_putCe _ _).mpr h

theorem depositDirective_attended (kind : OpKind) (result : Result) : Attended (s.depositDirective kind result).1 := by
  unfold State.depositDirective
  split
  · exact h
  · simpa using h

/-! ### The reactions of deck and remote -/

theorem putTtc_attended {r : Reaction Ttc} (deck : Deck r.1) : Attended (s.putTtc r) :=
  ⟨by simpa using deck, by simpa using h.2⟩

theorem putRr_attended {r : Reaction Rr} (remote : Remote r.1) : Attended (s.putRr r) :=
  ⟨by simpa using h.1, by simpa using remote⟩

theorem performAction_attended (e : KeyEntry) (key : BitVec 5) : Attended (s.performAction e key) := by
  unfold State.performAction State.toggleLamp State.togglePause
  (repeat' split) <;> simpa using h

/-- A press acts with its key held, so a drive that it starts is one of a key held (R121, R124). -/
theorem actOnPress_attended (held : s.rr.held.isSome = true) (key : BitVec 5) : Attended (s.actOnPress key) := by
  unfold State.actOnPress
  dsimp only
  split
  · exact putRr_attended h (startFocus_remote h.2 held _)
  · split
    · exact performAction_attended h _ _
    · have acted := performAction_attended h (s.rr.entry key) key
      split
      · exact putRr_attended acted { acted.2 with }
      · exact acted
    · exact h

theorem press_attended (key : BitVec 5) (toggle : Bool) : Attended (s.press key toggle) := by
  have holds (ns : List Notice) : Attended (s.putRr (s.rr.hold key toggle (s.ce.takesKey key), ns)) :=
    putRr_attended h (hold_remote h.2 _ _ _)
  unfold State.press
  dsimp only
  split
  · exact (attended_putCe _ _).mpr (holds _)
  · exact actOnPress_attended (holds _) (by simp [Rr.hold]) key

theorem releaseKey_attended : Attended s.releaseKey := by
  unfold State.releaseKey
  split
  · exact h
  · have dropped : Attended (s.putRr (s.rr.dropKey, [])) := putRr_attended h (dropKey_remote h.2)
    dsimp only
    split
    · exact performAction_attended dropped _ _
    · exact dropped

theorem releaseExpiry_attended : Attended s.releaseExpiry := by
  unfold State.releaseExpiry
  split
  · exact releaseKey_attended h
  · exact h

theorem repeatExpiry_attended : Attended s.repeatExpiry := by
  have retimed (timer : Timer) : Attended (s.putRr ({ s.rr with repeatTimer := timer }, [])) :=
    putRr_attended h { h.2 with }
  unfold State.repeatExpiry
  split
  · exact h
  · split
    · dsimp only
      split
      · exact performAction_attended (retimed _) _ _
      · exact retimed _
    · exact h

/-! ### The notices -/

/-- A look at the FIFO leaves a shorter one (R179). -/
theorem lookTape_attended : Attended s.lookTape := by
  unfold State.lookTape
  split
  · exact h
  · next r _ =>
    have shorter : Deck { s.ttc with fifo := (lookFifo (recWaitArg r) s.ttc.fifo).1 } :=
      { h.1 with fifo := (lookFifo_length _ _).trans h.1.fifo }
    have looked (ns : List Notice) := (attended_post _ ns).mpr
      (putTtc_attended h (r := ({ s.ttc with fifo := (lookFifo (recWaitArg r) s.ttc.fifo).1 }, [])) shorter)
    dsimp only
    split
    · exact (attended_putCe _ _).mpr (looked _)
    · exact looked _

theorem consumeRun_attended : Attended s.consumeRun := by
  unfold State.consumeRun
  (repeat' split) <;> simpa using h

theorem terminalCount_attended (c : BitVec 2) : Attended (s.terminalCount c) := by
  unfold State.terminalCount
  (repeat' split) <;> first | exact h | exact consumeRun_attended h

theorem progress_attended : Attended s.progress := by
  unfold State.progress
  (repeat' split) <;> first | exact h | exact lookTape_attended h | exact consumeRun_attended h | simpa using h

/-- Every notice taken leaves deck and remote sound: none reaches the remote, and few the deck. -/
theorem handle_attended (n : Notice) : Attended (State.handle n s) := by
  have remote (t : State) (kept : State.Kept s t) (ttc : t.ttc = s.ttc) : Attended t := h.of_eq ttc kept.rr
  cases n with
  | deposit source kind => exact remote _ (s.deposit_kept source kind) (deposit_arbiterActs s source kind).ttc
  | select => exact remote _ s.select_kept (select_arbiterActs s).ttc
  | outcome op result => simp only [State.handle, State.takeOutcome]; split <;> simpa using h
  | deliver source result => cases source <;> simpa [State.handle, State.deliver] using h
  | slotEmpty source => cases source <;> simpa [State.handle, State.slotEmptied] using h
  | terminalCount c => exact terminalCount_attended h c
  | fifoJoined => exact lookTape_attended h
  | progress => exact progress_attended h
  | tapeImposition stop => exact putTtc_attended h (imposeTape_deck h.1 stop)
  | audioImposition mute => exact putTtc_attended h (imposeAudio_deck h.1 mute)
  | tapePlay => exact putTtc_attended h (request_deck h.1 _)
  | tapeStop => exact putTtc_attended h (stop_deck h.1)
  | audioAction level => exact putTtc_attended h (audioLevel_deck h.1 _ _)
  | writeCue cls => exact putTtc_attended h (write_deck h.1 cls)
  | askRead offset => exact h
  | dropRead => exact h
  | _ => simpa [State.handle] using h

end

theorem carry_attended {s : State} {f : State → State} (h : Attended (f s)) : Attended (s.carry f) := by
  refine State.drain_keeps (P := Attended) (fun _ _ k => k) ?_ _ _ (by simpa using h)
  exact fun t n k => by simpa using handle_attended k n

theorem run_attended {s : State} {f : State → State} (h : Attended (f s)) : Attended (s.run f) := by
  simpa [State.run] using carry_attended h

/-! ### Directives -/

section

variable {s : State} (h : Attended s)

include h

theorem dirTapeRequest_attended (req : TapeRequest) : Attended (dirTapeRequest req s).1 :=
  putTtc_attended h (request_deck h.1 req)

/-- The owner of a directive leaves deck and remote alone, but for the deck's own and REMOTE_SETUP. -/
theorem rowAct_attended {c : Instr} {owner : State → State × Result} (act : rowAct c = some owner) :
    Attended (owner s).1 := by
  cases c
  case remoteSetup => obtain rfl := Option.some.inj act; exact putRr_attended h (setup_remote h.2 _ _)
  case tapePlay | tapeRecord | tapeLocate => obtain rfl := Option.some.inj act; exact dirTapeRequest_attended h _
  case tapeStop => obtain rfl := Option.some.inj act; exact putTtc_attended h (stop_deck h.1)
  case tapeZero => obtain rfl := Option.some.inj act; exact putTtc_attended h (zero_deck h.1)
  case cueRoute => obtain rfl := Option.some.inj act; exact putTtc_attended h (setRoute_deck h.1 _ _)
  case audioLevel => obtain rfl := Option.some.inj act; exact putTtc_attended h (audioLevel_deck h.1 _ _)
  case tapeWind =>
    obtain rfl := Option.some.inj act
    unfold dirTapeWind
    split
    · exact h
    · exact dirTapeRequest_attended h _
  case cueWrite =>
    obtain rfl := Option.some.inj act
    unfold dirCueWrite
    split
    · exact h
    · exact putTtc_attended h (write_deck h.1 _)
  case home | moveBy | clearGate => obtain rfl := Option.some.inj act; exact depositDirective_attended h _ _
  case gotoSlot =>
    obtain rfl := Option.some.inj act
    unfold dirGotoSlot
    split
    · exact depositDirective_attended h _ _
    · exact h
  all_goals first
    | exact (Option.some_ne_none _ act.symm).elim
    | obtain rfl := Option.some.inj act
      simpa [dirChangeProfile, dirLampOn, dirLampOff, dirLampFade, dirLampCeiling, dirLampSpare, dirHeatProfile,
        dirFanProfile, dirCutoffSelect, dirCutoffEnable, dirCutoffForce, dirCutoffClear, dirArbLevels, dirArbMask,
        dirRunLoad, dirRunMask, dirRunTrigger, dirRunClearAll, dirRunOrder, dirShowStart, dirShowPause, dirShowResume,
        dirShowStop, dirCueGo, dirShowLead] using h

theorem directive_attended (code : Byte) (operands : List Byte) : Attended (s.directive code operands).1 :=
  State.directive_induction (P := fun r => Attended r.1) s h (fun _ _ act => rowAct_attended h act) code operands

omit h in
theorem take_attended {owner : State → State × Result} (code : Byte) (act : Attended (owner s).1) :
    Attended (s.take owner code) := by
  simpa [State.take] using act

theorem takeRow_attended {owner : State → State × Result} (code : Byte)
    (act : ∀ k : State, Attended k → Attended (owner k).1) : Attended (State.takeRow code owner s) := by
  unfold State.takeRow
  dsimp only
  split
  · exact h
  · split
    · exact take_attended code (act s h)
    · exact take_attended code (act _ (abandon_attended h))

/-! ### The resets -/

omit h in
theorem partReset_attended : Attended s.partReset := by
  unfold State.partReset
  dsimp only
  rw [attended_putCu, attended_answer, attended_post]
  exact ⟨rested_deck _ _ _, rested_remote _ _ _⟩

omit h in
theorem powerOn_attended (pins : Pins) : Attended (s.powerOn pins) := by
  unfold State.powerOn
  dsimp only
  rw [attended_putCu, attended_post]
  exact ⟨rested_deck _ _ _, rested_remote _ _ _⟩

/-! ### The bus -/

theorem leadByte_attended (code : Byte) : Attended (s.leadByte code) := by
  have closed := abandon_attended h
  unfold State.leadByte
  dsimp only
  split
  · exact partReset_attended
  · split
    · exact (attended_answer _ _ _).mpr closed
    · exact take_attended code (directive_attended closed _ _)
    · exact closed

theorem operandByte_attended (b : Byte) : Attended (s.operandByte b) := by
  unfold State.operandByte
  split
  · dsimp only
    split
    · exact take_attended _ (directive_attended h _ _)
    · exact h
  · simpa using h

theorem snoop_attended (a : Address) (b : Byte) : Attended (s.snoop a b) := by
  unfold State.snoop State.route
  split
  · exact h
  · split
    · exact leadByte_attended h b
    · split
      · exact operandByte_attended h b
      · (repeat' split) <;> first | exact h | exact ⟨h.1, { h.2 with }⟩ | exact (attended_putCe _ _).mpr h

theorem beforeHost_attended : Attended s.beforeHost := by
  have held : Attended s.holdHost := by
    unfold State.holdHost
    split
    · exact carry_attended (completeOwn_attended h)
    · split
      · exact carry_attended (completeOwn_attended (s := { s with pu := s.pu.serve }) h)
      · exact h
  unfold State.beforeHost
  dsimp only
  split
  · exact (attended_kickReports _).mpr held
  · exact h

theorem hostWrite_attended (a : Address) (b : Byte) (gap : Bool) : Attended (s.hostWrite a b gap) := by
  unfold State.hostWrite
  refine run_attended (snoop_attended ?_ a b)
  exact beforeHost_attended h

/-! ### The other commands' acts -/

theorem acceptFrame_attended (key : BitVec 5) (toggle : Bool) : Attended (s.acceptFrame key toggle) := by
  rcases s.acceptFrame_cases key toggle with ⟨-, e⟩ | ⟨_, -, ⟨-, -, e⟩ | ⟨-, e⟩⟩ <;> rw [e]
  · exact press_attended h key toggle
  · exact putRr_attended h { h.2 with }
  · exact press_attended (carry_attended (releaseKey_attended h)) key toggle

theorem completeFrame_attended : Attended s.completeFrame := by
  unfold State.completeFrame
  split
  · exact h
  · split
    · have done : Attended (s.putRr (s.rr.frameDone, [])) := putRr_attended h (frameDone_remote h.2)
      dsimp only
      split
      · exact acceptFrame_attended done _ _
      · exact done
    · exact putRr_attended h (fail_remote h.2 _ _)

theorem takeReport_attended : Attended s.takeReport := by
  unfold State.takeReport
  split
  · exact (attended_putTmc _ _).mpr h
  · exact h

theorem leaderAllowanceEnd_attended : Attended (if s.ttc.lastOfAllowance then s.putTtc s.ttc.pulse else s) := by
  split
  · exact putTtc_attended h (pulse_deck h.1)
  · exact h

end

/-! ### Every command -/

section

variable {s t : State}

theorem perform_attended {f : State → State} (act : Attended (f s)) (ends : perform f s = .next t) : Attended t := by
  obtain rfl : s.run f = t := Host.Outcome.next.inj ends
  exact run_attended act

theorem performReset_attended {f : State → State} (act : Attended (f s)) (ends : performReset f s = .next t) :
    Attended t := by
  obtain rfl : s.carry f = t := Host.Outcome.next.inj ends
  exact carry_attended act

theorem hostWriteAt_attended (h : Attended s) {offset : Nat} {b : Byte} {gap : Bool}
    (ends : (.next (s.hostWriteAt offset b gap) : Host.Outcome State Fault Refusal) = .next t) : Attended t := by
  obtain rfl := Host.Outcome.next.inj ends
  exact hostWrite_attended h _ _ _

/-- Every command leaves deck and remote sound. -/
theorem exec_attended (h : Attended s) {c : Instr} (ends : exec c s = .next t) : Attended t := by
  have deck {r : Reaction Ttc} (sound : Deck r.1) := putTtc_attended h sound
  have remote {r : Reaction Rr} (sound : Remote r.1) := putRr_attended h sound
  cases row : rowAct c with
  | some owner =>
    obtain ⟨code, -, e⟩ := exec_row row
    rw [e] at ends
    exact perform_attended (takeRow_attended h code fun _ k => rowAct_attended k row) ends
  | none =>
    cases c
    case powerOnReset pins => exact performReset_attended (powerOn_attended pins) ends
    case hostWrite => exact Host.Outcome.next.inj ends ▸ hostWrite_attended h _ _ _
    case hostRead => exact Host.Outcome.next.inj ends ▸ (attended_settle _).mpr (beforeHost_attended h)
    case leadByte | unknownCode | operandByte | ridxWrite | curveWrite | keyMapWrite => exact hostWriteAt_attended h ends
    case cueStoreWrite =>
      simp only [exec, execCueStoreWrite] at ends
      split at ends
      · exact hostWriteAt_attended h ends
      · exact absurd ends nofun
    case ownCycleComplete => exact perform_attended (completeOwn_attended h) ends
    case partReset =>
      refine performReset_attended ?_ ends
      unfold State.resetRow
      split
      · exact h
      · exact partReset_attended
    case resetAsserted => exact performReset_attended (f := fun k => { k with pu := k.pu.hold }) h ends
    case tmotnPulse => exact perform_attended (deck (pulse_deck h.1)) ends
    case leaderAllowanceEnd => exact perform_attended (leaderAllowanceEnd_attended h) ends
    case tendChange => exact perform_attended (deck (setTend_deck h.1 _)) ends
    case brakingTimerExpiry => exact perform_attended (deck (brakingExpiry_deck h.1)) ends
    case stallWatchExpiry => exact perform_attended (deck (stallExpiry_deck h.1)) ends
    case cueinEdge => exact perform_attended (deck (edge_deck h.1 _ _)) ends
    case gapTimerExpiry => exact perform_attended (deck (gapExpiry_deck h.1)) ends
    case stuckTimerExpiry => exact perform_attended (deck (stuckExpiry_deck h.1)) ends
    case writerToneEnd => exact perform_attended (deck (toneEnd_deck h.1)) ends
    case writerQuietEnd => exact perform_attended (deck (quietEnd_deck h.1)) ends
    case audioRampStep => exact perform_attended (deck (rampStep_deck h.1)) ends
    case remoteFrame => exact perform_attended (completeFrame_attended h) ends
    case frameError => exact perform_attended (remote (frameError_remote h.2 _)) ends
    case lowLimitExpiry => exact perform_attended (remote (lowLimitExpiry_remote h.2)) ends
    case idleTimerExpiry => exact perform_attended (remote (idleExpiry_remote h.2)) ends
    case releaseTimerExpiry => exact perform_attended (releaseExpiry_attended h) ends
    case repeatTimerExpiry => exact perform_attended (repeatExpiry_attended h) ends
    case flimChange => exact perform_attended (remote (setFlim_remote h.2 _)) ends
    case escapeWatchExpiry => exact perform_attended (remote (escapeExpiry_remote h.2)) ends
    case rlineEdge => exact perform_attended (remote (rlineEdge_remote h.2 _ _)) ends
    case uptimeTick => exact perform_attended ⟨tick_deck h.1, rrTick_remote h.2⟩ ends
    case blackoutReport => exact perform_attended (takeReport_attended h) ends
    case heatUpdate | measurementWindowEnd =>
      refine perform_attended ?_ ends
      split
      · simpa using h
      · exact h
    all_goals first
      | exact absurd row (Option.some_ne_none _)
      | exact perform_attended (by simpa using h) ends

end

/-- Settles O57: every command of the queue keeps deck and remote sound, through the notices that it leads to. -/
theorem deckAndRemoteKept : Obligations.DeckAndRemoteKept := by
  intro s _ deck remote t ends
  have h : Attended s := ⟨deck, remote⟩
  unfold step at ends
  split at ends
  · exact Host.Outcome.next.inj ends ▸ h
  · next c rest _ => exact exec_attended (s := { s with pending := rest }) h ends

end Sys2Proof.Machine
end

section
/-! ## The deck's commands and directives: one reaction each (05)

A command of the deck is one reaction of the tape transport, and most make no notice: what the reaction gives is then all
that the command does. -/

namespace Sys2Proof.Machine

open Sys2Proof.Safety

/-! ### A command that is one reaction of the deck -/

section

variable {s : State} (calm : s.notices = []) {f : State → State} {r : Reaction Ttc} (act : f s = s.putTtc r) {u : Ttc}
  {events : List (Event × Half)}

include calm act

theorem deck_command (gives : Gives r u events) : (s.run f).ttc = u ∧ Effect [.deck] events s (s.run f) := by
  obtain ⟨rfl, rfl, quiet⟩ := gives
  exact putTtc_quiet s calm r quiet f act

/-- A reaction that leaves the deck as it was changes nothing. -/
theorem deck_command_nothing (gives : Gives r s.ttc events) : Effect [] events s (s.run f) := by
  obtain ⟨same, parts, logs⟩ := deck_command calm act gives
  refine ⟨fun p _ => ?_, logs⟩
  by_cases here : p = .deck
  · subst here
    exact same
  · exact parts p (by simpa using here)

end

/-! ### A directive that is one reaction of the deck -/

section

variable {s : State} (ready : Ready s) {code : Byte} {owner : State → State × Result} {r : Reaction Ttc} {result : Result}
  (act : ∀ k : State, k.ttc = s.ttc → owner k = (k.putTtc r, result)) {u : Ttc} {events : List (Event × Half)}

include ready act

theorem deck_row (gives : Gives r u events) :
    (s.run (State.takeRow code owner)).ttc = u ∧
      Answered code result [.deck] events s (s.run (State.takeRow code owner)) := by
  obtain ⟨rfl, rfl, quiet⟩ := gives
  have took : Took code result s { s with ttc := r.1 } (loggedOf r.2 ++ []) (s.run (State.takeRow code owner)) :=
    row_took (u := { s with ttc := r.1 }) (made := []) ready
      (fun dd k before h => by
        rw [act k h.ttc]
        have put := h.putTtc r
        rw [quiet] at put
        exact ⟨rfl, put⟩)
      fun dd => .nil _ _
  rw [List.append_nil] at took
  exact ⟨took.ttc, took.answered rfl fun p hp => by cases p <;> simp [Part.same] at hp ⊢⟩

/-- A directive whose owner leaves the deck as it was is answered, and nothing else changes. -/
theorem deck_row_nothing (gives : Gives r s.ttc events) :
    Answered code result [] events s (s.run (State.takeRow code owner)) := by
  obtain ⟨same, idle, code, result, taken, parts, logs⟩ := deck_row ready act gives
  refine ⟨idle, code, result, taken, fun p hp => ?_, logs⟩
  by_cases here : p = .deck
  · subst here
    exact same
  · exact parts p (by simp at hp ⊢; exact ⟨hp, here⟩)

end

/-- A directive that its owner refuses, or that asks for what stands, is answered and changes nothing. -/
theorem row_answered_idle {s : State} (ready : Ready s) {code : Byte} {owner : State → State × Result} {result : Result}
    (act : ∀ k : State, k.ttc = s.ttc → owner k = (k, result)) :
    Answered code result [] [] s (s.run (State.takeRow code owner)) :=
  deck_row_nothing (r := (s.ttc, [])) ready (fun k same => by rw [act k same, ← same]; rfl) ⟨rfl, rfl, rfl⟩

end Sys2Proof.Machine
end

section
/-! ## The requests of the tape (05): TAPE_PLAY, TAPE_RECORD, TAPE_WIND, TAPE_LOCATE, TAPE_STOP and TAPE_ZERO -/

namespace Sys2Proof.Machine

open Sys2Proof.Safety

/-! ### A request, by the state of the transport (R90 to R92, R95, R96, R110) -/

section

variable {t : Ttc}

/-- A burst is cut in RECORDING alone (R107). -/
theorem cutBurst_nil (other : t.state ≠ .recording) : cutBurst t = [] := by
  unfold cutBurst
  split
  · next recording _ => exact absurd recording other
  · rfl

theorem Ttc.sameMotion_iff (t : Ttc) (req : TapeRequest) : t.sameMotion req = true ↔ inProgress t.state req := by
  unfold Ttc.sameMotion inProgress
  (repeat' split) <;> simp_all

/-- A motion in progress is one of the moving states. -/
theorem moving_of_inProgress {state : Transport} {req : TapeRequest} (same : inProgress state req) :
    state.moving = true := by
  cases state <;> first | rfl | exact False.elim same

theorem Ttc.request_imposed (imposed : t.stopImposed = true) (req : TapeRequest) :
    t.request req = ((t, []), false) := by
  simp [Ttc.request, imposed]

variable (free : t.stopImposed = false)

include free

theorem Ttc.request_stopped (stopped : t.state = .stopped) (req : TapeRequest) :
    t.request req = (t.start req, true) := by
  simp [Ttc.request, free, stopped]

theorem Ttc.request_braking (braking : t.state = .braking) (req : TapeRequest) :
    t.request req = (({ t with latched := some req }, []), true) := by
  simp [Ttc.request, free, braking]

theorem Ttc.request_moving (moving : t.state.moving = true) (req : TapeRequest) :
    t.request req = (t.redirect req, true) := by
  cases state : t.state <;> simp_all [Ttc.request, Transport.moving]

/-- A request for the motion in progress changes nothing (R91). -/
theorem Ttc.request_same {req : TapeRequest} (same : inProgress t.state req) : t.request req = ((t, []), true) := by
  rw [Ttc.request_moving free (moving_of_inProgress same)]
  unfold Ttc.redirect
  rw [if_pos ((t.sameMotion_iff req).mpr same)]

/-- A request for another motion brakes with the request latched (R91). -/
theorem Ttc.request_other {req : TapeRequest} (moving : t.state.moving = true) (other : ¬ inProgress t.state req)
    (aimed : t.state = .locating → ∀ g, req ≠ .locate g) : t.request req = (t.brake (some req), true) := by
  rw [Ttc.request_moving free moving]
  unfold Ttc.redirect
  rw [if_neg fun same => other ((t.sameMotion_iff req).mp same)]
  split
  · next target locating => exact absurd rfl (aimed locating target)
  · rfl

/-- A new target of a locate in progress (R96). -/
theorem Ttc.request_retarget (locating : t.state = .locating) (g : Half) :
    t.request (.locate g) =
      (if t.locateDirection g = .none then ((t.brake none).1, t.locateDone :: (t.brake none).2)
       else if t.locateDirection g = t.direction then ({ t with locateTarget := some g }, [])
       else t.brake (some (.locate g)), true) := by
  rw [Ttc.request_moving free (by rw [locating]; rfl)]
  simp [Ttc.redirect, Ttc.sameMotion, locating]

end

theorem Ttc.locateDirection_ahead {t : Ttc} {g : Half} (ahead : t.counter.toNat < g.toNat) :
    t.locateDirection g = .forward := if_pos ahead

theorem Ttc.locateDirection_behind {t : Ttc} {g : Half} (behind : g.toNat < t.counter.toNat) :
    t.locateDirection g = .reverse := by
  rw [Ttc.locateDirection, if_neg (by omega), if_pos behind]

theorem Ttc.locateDirection_here (t : Ttc) : t.locateDirection t.counter = .none := by
  simp [Ttc.locateDirection]

/-! ### The directives that ask the tape to move -/

theorem halfOf_word16 (lo hi : Byte) : halfOf (word16 lo hi) = hi ++ lo := by
  refine BitVec.eq_of_toNat_eq ?_
  have low := lo.isLt
  have high := hi.isLt
  rw [BitVec.toNat_append, ← Nat.shiftLeft_add_eq_or_of_lt low, Nat.shiftLeft_eq, BitVec.toNat_ofNat, word16]
  omega

/-- A row that asks the tape to move hands its request to the deck under its code (R90, R95). -/
theorem exec_tapeRequest {c : Instr} {row : Byte × TapeRequest} (asks : tapeRequestOf c = some row) (s : State) :
    exec c s = .next (s.run (State.takeRow row.1 (dirTapeRequest row.2))) := by
  cases c with
  | tapePlay => obtain rfl := Option.some.inj asks; rfl
  | tapeRecord => obtain rfl := Option.some.inj asks; rfl
  | tapeWind direction =>
    simp only [tapeRequestOf] at asks
    split at asks
    · next here => subst here; obtain rfl := Option.some.inj asks; rfl
    · split at asks
      · next here => subst here; obtain rfl := Option.some.inj asks; rfl
      · cases asks
  | tapeLocate lo hi =>
    obtain rfl := Option.some.inj asks
    rw [← halfOf_word16]
    rfl
  | _ => cases asks

/-- Of these rows the locate alone has code 0x43 (10, section 10.6). -/
theorem locate_code {c : Instr} {code : Byte} {g : Half} (asks : tapeRequestOf c = some (code, .locate g)) :
    code = 0x43 := by
  cases c with
  | tapeLocate lo hi => cases asks; rfl
  | tapeWind direction =>
    simp only [tapeRequestOf] at asks
    split at asks
    · cases asks
    · split at asks <;> cases asks
  | _ => cases asks

/-- A request of the tape as a row: what the deck makes of it, and its answer (R90, R110). -/
theorem tapeRequest_row {s : State} {req : TapeRequest} {r : Reaction Ttc} {taken : Bool}
    (asked : s.ttc.request req = (r, taken)) (k : State) (same : k.ttc = s.ttc) :
    dirTapeRequest req k = (k.putTtc r, if taken then .done else .refusedState) := by
  rw [dirTapeRequest, same, asked]

/-- Settles O25, by the state of the transport. -/
theorem tapeRequests : Obligations.TapeRequests := by
  intro c s ready
  refine ⟨fun row asks => ⟨_, exec_tapeRequest asks s, fun imposed => ?_, fun free => ⟨fun stopped => ?_, fun braking => ?_,
    fun same => ?_, fun moving other aimed => ?_⟩⟩, fun direction wild => ⟨_, rfl, ?_⟩, ?_⟩
  · exact deck_row_nothing ready (tapeRequest_row (Ttc.request_imposed imposed row.2)) ⟨rfl, rfl, rfl⟩
  · exact deck_row ready (tapeRequest_row (Ttc.request_stopped free stopped row.2)) (s.ttc.start_gives row.2)
  · exact deck_row ready (tapeRequest_row (Ttc.request_braking free braking row.2)) ⟨rfl, rfl, rfl⟩
  · exact deck_row_nothing ready (tapeRequest_row (Ttc.request_same free same)) ⟨rfl, rfl, rfl⟩
  · refine deck_row ready (tapeRequest_row (Ttc.request_other free moving other ?_)) (s.ttc.brake_gives _)
    rintro locating g locates
    obtain ⟨code, req⟩ := row
    obtain rfl : req = .locate g := locates
    exact aimed ⟨locating, locate_code asks⟩
  · exact row_answered_idle ready fun k _ => if_pos (by omega)
  · rintro lo hi g rfl free locating
    have quiet : cutBurst s.ttc = [] := cutBurst_nil (by rw [locating]; decide)
    have asked := Ttc.request_retarget free locating (hi ++ lo)
    have braked (latched : Option TapeRequest) : Gives (s.ttc.brake latched) (brakes s.ttc latched) [] :=
      quiet ▸ s.ttc.brake_gives latched
    have runs := exec_tapeRequest (c := .tapeLocate lo hi) rfl s
    refine ⟨_, runs, fun here => ?_, fun ahead directed => ?_, fun behind directed => ?_⟩
    · rw [here, Ttc.locateDirection_here, if_pos rfl] at asked
      obtain ⟨record, none_cut, none_made⟩ := braked none
      rw [here]
      exact deck_row ready (tapeRequest_row asked)
        ⟨record, by rw [Ttc.locateDone, loggedOf_log, none_cut], by rw [Ttc.locateDone, queuedOf_log, none_made]⟩
    · rw [Ttc.locateDirection_ahead ahead, if_neg nofun] at asked
      rcases directed with forward | reverse
      · rw [if_pos forward.symm] at asked
        rw [if_pos forward]
        exact deck_row ready (tapeRequest_row asked) ⟨rfl, rfl, rfl⟩
      · rw [if_neg (by rw [reverse]; nofun)] at asked
        rw [if_neg (by rw [reverse]; nofun)]
        exact deck_row ready (tapeRequest_row asked) (braked _)
    · rw [Ttc.locateDirection_behind behind, if_neg nofun] at asked
      rcases directed with forward | reverse
      · rw [if_neg (by rw [forward]; nofun)] at asked
        rw [if_neg (by rw [forward]; nofun)]
        exact deck_row ready (tapeRequest_row asked) (braked _)
      · rw [if_pos reverse.symm] at asked
        rw [if_pos reverse]
        exact deck_row ready (tapeRequest_row asked) ⟨rfl, rfl, rfl⟩

/-! ### TAPE_STOP and TAPE_ZERO (R91, R92, R94, R96) -/

section

variable {t : Ttc}

theorem Ttc.stop_stopped (stopped : t.state = .stopped) : Gives t.stop t [] := by
  simp [Gives, Ttc.stop, stopped]

theorem Ttc.stop_braking (braking : t.state = .braking) : Gives t.stop { t with latched := none } [] := by
  simp [Gives, Ttc.stop, braking]

theorem Ttc.stop_brakes (moving : t.state.moving = true) : Gives t.stop (brakes t none) (cutBurst t) := by
  rw [Ttc.stop_moving moving]
  exact t.brake_gives none

/-- A locate that reaches its target ends with its entry (R96). -/
theorem Ttc.checkTarget_reached (reached : t.atTarget = true) :
    Gives t.checkTarget (brakes t none) [(.locateDone, t.counter)] := by
  have quiet : cutBurst t = [] := cutBurst_nil (by rw [locating_of_atTarget reached]; decide)
  obtain ⟨record, logged, queued⟩ := t.brake_gives none
  rw [Ttc.checkTarget, if_pos reached]
  exact ⟨record, by rw [Ttc.locateDone, loggedOf_log, logged, quiet], by rw [Ttc.locateDone, queuedOf_log, queued]⟩

theorem Ttc.checkTarget_short (short : t.atTarget = false) : Gives t.checkTarget t [] := by
  rw [Ttc.checkTarget, if_neg (by simp [short])]
  exact ⟨rfl, rfl, rfl⟩

/-- Outside LOCATING there is no target to reach (R96). -/
theorem Ttc.atTarget_other (other : t.state ≠ .locating) : t.atTarget = false :=
  Bool.eq_false_iff.mpr fun reached => other (locating_of_atTarget reached)

/-- The target of a locate, approached from below or from above (R96). -/
theorem Ttc.atTarget_locating {g : Half} (locating : t.state = .locating) (target : t.locateTarget = some g) :
    t.atTarget = if t.direction = .reverse then decide (t.counter.toNat ≤ g.toNat) else decide (g.toNat ≤ t.counter.toNat) := by
  simp [Ttc.atTarget, locating, target]

end

/-- Settles O26, by the state of the transport. -/
theorem tapeStopAndZero : Obligations.TapeStopAndZero := by
  intro s ready
  have stops (k : State) (same : k.ttc = s.ttc) : dirTapeStop k = (k.putTtc s.ttc.stop, .done) := by rw [dirTapeStop, same]
  have zeroes (k : State) (same : k.ttc = s.ttc) : dirTapeZero k = (k.putTtc s.ttc.zero, .done) := by rw [dirTapeZero, same]
  refine ⟨⟨_, rfl, fun stopped => ?_, fun braking => ?_, fun moving => ?_⟩, ⟨_, rfl, fun other => ?_,
    fun g target locating => ⟨fun reaches => ?_, fun forward away => ?_⟩⟩⟩
  · exact deck_row_nothing ready stops (Ttc.stop_stopped stopped)
  · exact deck_row ready stops (Ttc.stop_braking braking)
  · exact deck_row ready stops (Ttc.stop_brakes moving)
  · exact deck_row ready zeroes (Ttc.checkTarget_short (Ttc.atTarget_other other))
  · have reached := Ttc.atTarget_locating (t := { s.ttc with counter := 0 }) locating target
    refine deck_row ready zeroes (Ttc.checkTarget_reached (reached.trans ?_))
    rcases reaches with reverse | rfl
    · simp [reverse]
    · simp
  · have reached := Ttc.atTarget_locating (t := { s.ttc with counter := 0 }) locating target
    refine deck_row ready zeroes (Ttc.checkTarget_short (reached.trans ?_))
    have positive : g.toNat ≠ 0 := fun zero => away (BitVec.eq_of_toNat_eq zero)
    rw [if_neg forward, decide_eq_false_iff_not]
    simpa using positive

end Sys2Proof.Machine
end

section
/-! ## CUE_WRITE, CUE_ROUTE, AUDIO_LEVEL, the burst writer and the sound ramp (05) -/

namespace Sys2Proof.Machine

open Sys2Proof.Safety

/-! ### CUE_WRITE (R106) -/

section

variable {t : Ttc}

theorem cueClass?_none {n : Nat} (wild : 4 ≤ n) : cueClass? n = none := by
  unfold cueClass?
  split <;> first | omega | rfl

theorem cueClass?_number {n : Nat} {cls : CueClass} (known : cueClass? n = some cls) : cls.number = n := by
  unfold cueClass? at known
  split at known <;> first | (obtain rfl := Option.some.inj known; rfl) | cases known

theorem cueClass?_some {n : Nat} (small : n < 4) : ∃ cls, cueClass? n = some cls := by
  interval_cases n <;> exact ⟨_, rfl⟩

theorem Ttc.write_elsewhere (other : t.state ≠ .recording) (cls : CueClass) : t.write cls = (t, .refusedState) :=
  if_pos other

theorem Ttc.write_busy (recording : t.state = .recording) (busy : t.writer ≠ .idle) (cls : CueClass) :
    t.write cls = (t, .refusedBusy) := by
  simp [Ttc.write, recording, busy]

theorem Ttc.write_begins (recording : t.state = .recording) (idle : t.writer = .idle) (cls : CueClass) :
    t.write cls = ({ t with writer := .tone cls, writerTimer := some cls.written }, .done) := by
  simp [Ttc.write, recording, idle]

/-- CUE_WRITE of a class is the writer's answer (R106). -/
theorem cueWrite_row {s : State} {a : Byte} {cls : CueClass} {result : Result} (known : cueClass? a.toNat = some cls)
    {u : Ttc} (written : s.ttc.write cls = (u, result)) (k : State) (same : k.ttc = s.ttc) :
    dirCueWrite a k = (k.putTtc (u, []), result) := by
  rw [dirCueWrite, known]
  simp only [same, written]

/-! ### CUE_ROUTE (R103) -/

theorem Ttc.setRoute_refused {mode markChannel : Byte}
    (wild : 3 ≤ mode.toNat ∨ 4 ≤ markChannel.toNat ∧ markChannel.toNat ≤ 254) :
    t.setRoute mode markChannel = (t, .badOperand) := by
  have unknown : routeMode? mode.toNat = none ∨ markChannel? markChannel = none := by
    rcases wild with mode_wild | ⟨low, high⟩
    · left
      unfold routeMode?
      split <;> first | omega | rfl
    · right
      have other : markChannel ≠ 0xFF := by rintro rfl; simp at high
      rw [markChannel?, if_neg other, if_neg (by omega)]
  unfold Ttc.setRoute
  split
  · next m c mode_known channel_known => rcases unknown with e | e <;> simp_all
  · rfl

/-- The mode of an operand below 3 (R103). -/
theorem routeMode?_eq {mode : Byte} (small : mode.toNat < 3) :
    routeMode? mode.toNat = some (if mode = 0 then .toShow else if mode = 1 then .direct else .off) := by
  obtain ⟨n, bound, rfl⟩ : ∃ n < 3, mode = BitVec.ofNat 8 n := ⟨mode.toNat, small, by simp⟩
  interval_cases n <;> rfl

theorem markChannel?_eq {channel : Byte} (known : channel.toNat < 4 ∨ channel = 0xFF) :
    markChannel? channel = some (if channel = 0xFF then none else some (BitVec.ofNat 2 channel.toNat)) := by
  unfold markChannel?
  split
  · rfl
  · next other => rw [if_pos (known.resolve_right other)]

theorem Ttc.setRoute_done {mode markChannel : Byte} (small : mode.toNat < 3)
    (known : markChannel.toNat < 4 ∨ markChannel = 0xFF) :
    t.setRoute mode markChannel =
      ({ t with route := if mode = 0 then .toShow else if mode = 1 then .direct else .off,
                markChannel := if markChannel = 0xFF then none else some (BitVec.ofNat 2 markChannel.toNat),
                fifo := if t.route = .toShow ∧ mode ≠ 0 then [] else t.fifo }, .done) := by
  have leaves : (if mode = 0 then RouteMode.toShow else if mode = 1 then .direct else .off) ≠ .toShow ↔ mode ≠ 0 := by
    by_cases zero : mode = 0
    · simp [zero]
    · rw [if_neg zero]
      refine iff_of_true ?_ zero
      split <;> nofun
  simp only [Ttc.setRoute, routeMode?_eq small, markChannel?_eq known, leaves]

/-! ### AUDIO_LEVEL (R108, R109) -/

theorem Ttc.audioLevel_muted (muted : t.muteImposed = true) (level time : Nat) :
    t.audioLevel level time = { t with setLevel := level } := by
  simp [Ttc.audioLevel, muted]

theorem Ttc.audioLevel_reached (loud : t.muteImposed = false) {level time : Nat} (now : t.level = level ∨ time = 0) :
    t.audioLevel level time = { t with setLevel := level, level := level, ramp := none } := by
  by_cases here : t.level = level
  · simp [Ttc.audioLevel, loud, Ttc.startRamp, here]
  · simp [Ttc.audioLevel, loud, Ttc.startRamp, here, now.resolve_left here]

theorem Ttc.audioLevel_ramps (loud : t.muteImposed = false) {level time : Nat} (apart : t.level ≠ level)
    (takes : time ≠ 0) :
    t.audioLevel level time = { t with setLevel := level, ramp := some ⟨t.level, level, time, 0, 0⟩ } := by
  simp [Ttc.audioLevel, loud, Ttc.startRamp, apart, takes]

/-! ### The writer's periods (R106) -/

theorem Ttc.toneEnd_due {cls : CueClass} (tone : t.writer = .tone cls) (due : t.writerTimer = some 0) :
    Gives t.toneEnd { t with writer := .quiet, writerTimer := some 20 } [(.cueWritten, argPair 0 cls.number)] := by
  simp [Gives, Ttc.toneEnd, tone, Timer.due, due]

theorem Ttc.toneEnd_early {cls : CueClass} (tone : t.writer = .tone cls) (early : t.writerTimer ≠ some 0) :
    Gives t.toneEnd t [] := by
  simp [Gives, Ttc.toneEnd, tone, Timer.due, early]

theorem Ttc.toneEnd_silent (silent : t.writer = .idle ∨ t.writer = .quiet) : Gives t.toneEnd t [] := by
  rcases silent with idle | quiet
  · simp [Gives, Ttc.toneEnd, idle]
  · simp [Gives, Ttc.toneEnd, quiet]

theorem Ttc.quietEnd_due (quiet : t.writer = .quiet) (due : t.writerTimer = some 0) :
    t.quietEnd = { t with writer := .idle, writerTimer := none } := if_pos ⟨quiet, by simp [Timer.due, due]⟩

theorem Ttc.quietEnd_early (early : ¬ (t.writer = .quiet ∧ t.writerTimer = some 0)) : t.quietEnd = t :=
  if_neg (by simpa [Timer.due] using early)

/-! ### The ramp (R108) -/

theorem Ttc.rampStep_none (still : t.ramp = none) : t.rampStep = t := by
  simp [Ttc.rampStep, still]

theorem Ttc.rampStep_early {r : Ramp} (ramp : t.ramp = some r) (early : r.elapsed < (r.steps + 1) * r.time / r.total) :
    t.rampStep = t := by
  simp [Ttc.rampStep, ramp, Ramp.due, Nat.not_le.mpr early]

theorem Ttc.rampStep_due {r : Ramp} (ramp : t.ramp = some r) (due : (r.steps + 1) * r.time / r.total ≤ r.elapsed) :
    t.rampStep = { t with
      level := if t.level < r.target then t.level + 1 else t.level - 1,
      ramp := if r.steps + 1 < r.total then some { r with steps := r.steps + 1 } else none } := by
  simp [Ttc.rampStep, ramp, Ramp.due, due]

end

/-! ### O27 -/

theorem cueWrite_answers (a : Byte) {s : State} (ready : Ready s) : ∃ t, exec (.cueWrite a) s = .next t ∧
    (4 ≤ a.toNat → Answered 0x46 .badOperand [] [] s t) ∧
    (a.toNat < 4 → s.ttc.state ≠ .recording → Answered 0x46 .refusedState [] [] s t) ∧
    (a.toNat < 4 → s.ttc.state = .recording → s.ttc.writer ≠ .idle → Answered 0x46 .refusedBusy [] [] s t) ∧
    (∀ cls, cueClass? a.toNat = some cls → s.ttc.state = .recording → s.ttc.writer = .idle →
      cls.number = a.toNat ∧
      t.ttc = { s.ttc with writer := .tone cls, writerTimer := some (
        match cls with | .advance => 40 | .reverse => 110 | .mark => 220 | .stop => 500) } ∧
      Answered 0x46 .done [.deck] [] s t) := by
  refine ⟨_, rfl, fun wild => ?_, fun small other => ?_, fun small recording busy => ?_, fun cls known recording idle => ?_⟩
  · exact row_answered_idle ready fun k _ => by rw [dirCueWrite, cueClass?_none wild]
  · obtain ⟨cls, known⟩ := cueClass?_some small
    exact deck_row_nothing ready (cueWrite_row known (Ttc.write_elsewhere other cls)) ⟨rfl, rfl, rfl⟩
  · obtain ⟨cls, known⟩ := cueClass?_some small
    exact deck_row_nothing ready (cueWrite_row known (Ttc.write_busy recording busy cls)) ⟨rfl, rfl, rfl⟩
  · refine ⟨cueClass?_number known, ?_⟩
    obtain ⟨record, answered⟩ := deck_row (code := 0x46) (events := []) ready
      (cueWrite_row known (Ttc.write_begins recording idle cls)) ⟨rfl, rfl, rfl⟩
    exact ⟨record.trans (by cases cls <;> rfl), answered⟩

theorem cueRoute_answers (a b : Byte) {s : State} (ready : Ready s) : ∃ t, exec (.cueRoute a b) s = .next t ∧
    (3 ≤ a.toNat ∨ 4 ≤ b.toNat ∧ b.toNat ≤ 254 → Answered 0x47 .badOperand [] [] s t) ∧
    (∀ route, route = (if a = 0 then RouteMode.toShow else if a = 1 then .direct else .off) → a.toNat < 3 →
      (b.toNat < 4 ∨ b = 0xFF) →
      t.ttc = { s.ttc with route := route, markChannel := if b = 0xFF then none else some (BitVec.ofNat 2 b.toNat),
                           fifo := if s.ttc.route = .toShow ∧ a ≠ 0 then [] else s.ttc.fifo } ∧
      Answered 0x47 .done [.deck] [] s t) := by
  have routes {u : Ttc} {result : Result} (set : s.ttc.setRoute a b = (u, result)) (k : State) (same : k.ttc = s.ttc) :
      dirCueRoute a b k = (k.putTtc (u, []), result) := by
    simp only [dirCueRoute, same, set]
  refine ⟨_, rfl, fun wild => ?_, ?_⟩
  · exact deck_row_nothing ready (routes (Ttc.setRoute_refused wild)) ⟨rfl, rfl, rfl⟩
  · rintro route rfl small known
    exact deck_row ready (routes (Ttc.setRoute_done small known)) ⟨rfl, rfl, rfl⟩

theorem audioLevel_answers (a b : Byte) {s : State} (ready : Ready s) : ∃ t, exec (.audioLevel a b) s = .next t ∧
    Answered 0x48 .done [.deck] [] s t ∧
    (s.ttc.muteImposed = true → t.ttc = { s.ttc with setLevel := a.toNat }) ∧
    (s.ttc.muteImposed = false → s.ttc.level = a.toNat ∨ b = 0 →
      t.ttc = { s.ttc with setLevel := a.toNat, level := a.toNat, ramp := none }) ∧
    (s.ttc.muteImposed = false → s.ttc.level ≠ a.toNat → b ≠ 0 →
      t.ttc = { s.ttc with setLevel := a.toNat, ramp := some ⟨s.ttc.level, a.toNat, 20 * b.toNat, 0, 0⟩ }) := by
  obtain ⟨record, answered⟩ := deck_row (s := s) (code := 0x48) (owner := dirAudioLevel a b) (events := []) ready
    (r := (s.ttc.audioLevel a.toNat (b.toNat * 20), [])) (fun k same => by rw [dirAudioLevel, same]) ⟨rfl, rfl, rfl⟩
  refine ⟨_, rfl, answered, fun muted => ?_, fun loud now => ?_, fun loud apart takes => ?_⟩
  · exact record.trans (Ttc.audioLevel_muted muted _ _)
  · exact record.trans (Ttc.audioLevel_reached loud (now.imp_right fun zero => by simp [zero]))
  · have positive : b.toNat ≠ 0 := fun zero => takes (BitVec.eq_of_toNat_eq zero)
    rw [Nat.mul_comm 20]
    exact record.trans (Ttc.audioLevel_ramps loud apart (by omega))

/-- Settles O27, directive by directive and period by period. -/
theorem soundAndWriter : Obligations.SoundAndWriter := by
  refine ⟨fun a b s ready => ⟨cueWrite_answers a ready, cueRoute_answers a b ready, audioLevel_answers a b ready⟩,
    fun s calm => ⟨⟨_, rfl, fun cls tone => ⟨fun early => ?_, fun due => ?_⟩, fun silent => ?_⟩,
      ⟨_, rfl, fun early => ?_, fun quiet due => ?_⟩, ⟨_, rfl, fun still => ?_, ?_⟩⟩⟩
  · exact deck_command_nothing calm rfl (Ttc.toneEnd_early tone early)
  · exact deck_command calm rfl (Ttc.toneEnd_due tone due)
  · exact deck_command_nothing calm rfl (Ttc.toneEnd_silent silent)
  · exact deck_command_nothing calm rfl ⟨Ttc.quietEnd_early early, rfl, rfl⟩
  · exact deck_command calm rfl ⟨Ttc.quietEnd_due quiet due, rfl, rfl⟩
  · exact deck_command_nothing calm rfl ⟨Ttc.rampStep_none still, rfl, rfl⟩
  · rintro r ramp n rfl
    exact ⟨fun early => deck_command_nothing calm rfl ⟨Ttc.rampStep_early ramp early, rfl, rfl⟩,
      fun due => deck_command calm rfl ⟨Ttc.rampStep_due ramp due, rfl, rfl⟩⟩

end Sys2Proof.Machine
end

section
/-! ## What moves and ends the tape's motion (05) -/

namespace Sys2Proof.Machine

open Sys2Proof.Safety

/-! ### A TMOTN pulse (R93, R94, R96 to R98) -/

/-- The record once a pulse is counted, before the leader allowance and a locate's target are looked at (R93, R94, R97,
R98). -/
def Ttc.counted (t : Ttc) : Ttc :=
  { t with counter := if t.direction = .forward then t.counter + 1 else t.counter - 1,
           stallWatch := if t.state = .playing ∨ t.state = .recording then some 500 else t.stallWatch,
           leader := t.leader.map (· + 1) }

section

variable {t : Ttc}

theorem Ttc.pulse_still (still : t.direction = .none) : Gives t.pulse t [] := by
  simp [Gives, Ttc.pulse, still]

theorem Ttc.pulse_counted (directed : t.direction ≠ .none) :
    t.pulse = if t.state.moving = true ∧ t.counted.leader = some 64 then t.counted.tapeEnd else t.counted.checkTarget := by
  have steps : t.stepped = if t.direction = .forward then t.counter + 1 else t.counter - 1 := by
    cases direction : t.direction <;> simp_all [Ttc.stepped]
  rw [Ttc.pulse, if_neg directed, steps]
  rfl

/-- The end of the tape brakes, and TAPE_END comes before the burst that is cut (R97; assumption log 19). -/
theorem Ttc.tapeEnd_gives (t : Ttc) : Gives t.tapeEnd (brakes t none) ((.tapeEnd, t.counter) :: cutBurst t) := by
  obtain ⟨record, logged, queued⟩ := t.brake_gives none
  exact ⟨record, (loggedOf_log _ _ _).trans (by rw [logged]), (queuedOf_log _ _ _).trans queued⟩

/-- The sixty-fourth pulse of an allowance ends the motion (R97). -/
theorem Ttc.pulse_last (directed : t.direction ≠ .none) (moving : t.state.moving = true) (last : t.leader = some 63) :
    Gives t.pulse (brakes t.counted none) ((.tapeEnd, t.counted.counter) :: cutBurst t) := by
  rw [Ttc.pulse_counted directed, if_pos ⟨moving, by simp [Ttc.counted, last]⟩]
  exact t.counted.tapeEnd_gives

theorem Ttc.pulse_checks (directed : t.direction ≠ .none) (within : t.leader ≠ some 63) :
    t.pulse = t.counted.checkTarget := by
  rw [Ttc.pulse_counted directed, if_neg]
  rintro ⟨-, last⟩
  cases leader : t.leader <;> simp_all [Ttc.counted]

/-- A locate's target, as the direction in force approaches it (R96). -/
theorem Ttc.counted_atTarget {g : Half} (locating : t.state = .locating) (target : t.locateTarget = some g)
    (directed : t.direction ≠ .none) : t.counted.atTarget = true ↔
      if t.direction = .forward then g.toNat ≤ t.counted.counter.toNat else t.counted.counter.toNat ≤ g.toNat := by
  rw [Ttc.atTarget_locating (t := t.counted) locating target, show t.counted.direction = t.direction from rfl]
  cases direction : t.direction <;> simp_all

end

/-! ### TEND, the end of BRAKING and the stall watch (R92, R97, R98) -/

section

variable {t : Ttc}

theorem Ttc.setTend_same : Gives (t.setTend t.tend) t [] := by
  simp [Gives, Ttc.setTend]

theorem Ttc.setTend_falls (was : t.tend = true) :
    Gives (t.setTend false) { t with tend := false, leader := none } [] := by
  simp [Gives, Ttc.setTend, was]

theorem Ttc.setTend_rests (was : t.tend = false) (still : t.state.moving = false) :
    Gives (t.setTend true) { t with tend := true } [] := by
  simp [Gives, Ttc.setTend, was, still]

theorem Ttc.setTend_ends (was : t.tend = false) (moving : t.state.moving = true) :
    Gives (t.setTend true) (brakes { t with tend := true } none) ((.tapeEnd, t.counter) :: cutBurst t) := by
  have ends : t.setTend true = Ttc.tapeEnd { t with tend := true } := by simp [Ttc.setTend, was, moving]
  rw [ends]
  exact Ttc.tapeEnd_gives { t with tend := true }

theorem Ttc.brakingExpiry_early (early : ¬ (t.state = .braking ∧ t.brakingTimer = some 0)) :
    Gives t.brakingExpiry t [] := by
  have waits : ¬ (t.state = .braking ∧ t.brakingTimer.due = true) := by simpa [Timer.due] using early
  rw [Ttc.brakingExpiry, if_neg waits]
  exact ⟨rfl, rfl, rfl⟩

theorem Ttc.stallExpiry_early (early : ¬ ((t.state = .playing ∨ t.state = .recording) ∧ t.stallWatch = some 0)) :
    Gives t.stallExpiry t [] := by
  have waits : ¬ ((t.state = .playing ∨ t.state = .recording) ∧ t.stallWatch.due = true) := by
    simpa [Timer.due] using early
  rw [Ttc.stallExpiry, if_neg waits]
  exact ⟨rfl, rfl, rfl⟩

/-- A stall stops the tape at once, and TAPE_STALL comes before the burst that is cut (R98; assumption log 19). -/
theorem Ttc.stallExpiry_due (watched : t.state = .playing ∨ t.state = .recording) (stalled : t.stallWatch = some 0) :
    Gives t.stallExpiry
      { recordingEnds t with state := .stopped, direction := .none, stallWatch := none, leader := none }
      ((.tapeStall, t.counter) :: cutBurst t) := by
  obtain ⟨record, logged, queued⟩ := t.leaveRecording_gives
  rw [Ttc.stallExpiry, if_pos ⟨watched, by simp [Timer.due, stalled]⟩, ← record, ← logged]
  exact ⟨rfl, loggedOf_log _ _ _, (queuedOf_log _ _ _).trans queued⟩

variable (braking : t.state = .braking) (due : t.brakingTimer = some 0)

include braking due

theorem Ttc.brakingExpiry_stops (unlatched : t.latched = none) :
    Gives t.brakingExpiry { t with state := .stopped, direction := .none, brakingTimer := none, latched := none } [] := by
  simp [Gives, Ttc.brakingExpiry, braking, Timer.due, due, unlatched]

/-- The latched request is carried out from STOPPED (R92). -/
theorem Ttc.brakingExpiry_starts {req : TapeRequest} (latched : t.latched = some req) :
    t.brakingExpiry =
      Ttc.start { t with state := .stopped, direction := .none, brakingTimer := none, latched := none } req := by
  simp [Ttc.brakingExpiry, braking, Timer.due, due, latched]

end

/-! ### O28 -/

theorem tmotnPulse_moves {s : State} (calm : s.notices = []) (sound : Deck s.ttc) :
    ∃ t, exec .tmotnPulse s = .next t ∧
      (s.ttc.state = .stopped → Effect [] [] s t) ∧
      (s.ttc.leader = some 63 → t.ttc = brakes s.ttc.counted none ∧
        Effect [.deck] ((.tapeEnd, s.ttc.counted.counter) :: cutBurst s.ttc) s t) ∧
      (∀ g, s.ttc.locateTarget = some g → s.ttc.leader ≠ some 63 → s.ttc.state = .locating →
        (if s.ttc.direction = .forward then g.toNat ≤ s.ttc.counted.counter.toNat
          else s.ttc.counted.counter.toNat ≤ g.toNat) →
        t.ttc = brakes s.ttc.counted none ∧ Effect [.deck] [(.locateDone, s.ttc.counted.counter)] s t) ∧
      (∀ g, s.ttc.locateTarget = some g → s.ttc.leader ≠ some 63 → s.ttc.state = .locating →
        ¬ (if s.ttc.direction = .forward then g.toNat ≤ s.ttc.counted.counter.toNat
          else s.ttc.counted.counter.toNat ≤ g.toNat) →
        t.ttc = s.ttc.counted ∧ Effect [.deck] [] s t) ∧
      (s.ttc.leader ≠ some 63 → s.ttc.state ≠ .locating → s.ttc.state ≠ .stopped →
        t.ttc = s.ttc.counted ∧ Effect [.deck] [] s t) := by
  have does {r : Reaction Ttc} {u : Ttc} {events : List (Event × Half)} (e : s.ttc.pulse = r) (gives : Gives r u events) :=
    deck_command (f := fun k => k.putTtc k.ttc.pulse) calm rfl (e ▸ gives)
  have directed_of_locating (locating : s.ttc.state = .locating) : s.ttc.direction ≠ .none :=
    directed_of_moving sound (by rw [locating]; rfl)
  refine ⟨_, rfl, fun stopped => ?_, fun last => ?_, fun g target within locating reached => ?_,
    fun g target within locating short => ?_, fun within elsewhere runs => ?_⟩
  · exact deck_command_nothing calm rfl (Ttc.pulse_still (sound.direction.mpr stopped))
  · have moving := (sound.leader (by rw [last]; rfl)).1
    exact does rfl (Ttc.pulse_last (directed_of_moving sound moving) moving last)
  · have directed := directed_of_locating locating
    exact does (Ttc.pulse_checks directed within)
      (Ttc.checkTarget_reached ((Ttc.counted_atTarget locating target directed).mpr reached))
  · have directed := directed_of_locating locating
    exact does (Ttc.pulse_checks directed within) (Ttc.checkTarget_short (Bool.eq_false_iff.mpr fun reached =>
      short ((Ttc.counted_atTarget locating target directed).mp reached)))
  · exact does (Ttc.pulse_checks (fun still => runs (sound.direction.mp still)) within)
      (Ttc.checkTarget_short (Ttc.atTarget_other (t := s.ttc.counted) elsewhere))

/-- LEADER_ALLOWANCE_END is the pulse that is the sixty-fourth, and nothing before it (R97; assumption log 5). -/
theorem leaderAllowanceEnd_moves {s : State} (calm : s.notices = []) (sound : Deck s.ttc) :
    ∃ t, exec .leaderAllowanceEnd s = .next t ∧
      (s.ttc.leader ≠ some 63 → Effect [] [] s t) ∧
      (s.ttc.leader = some 63 → t.ttc = brakes s.ttc.counted none ∧
        Effect [.deck] ((.tapeEnd, s.ttc.counted.counter) :: cutBurst s.ttc) s t) := by
  refine ⟨_, rfl, fun within => ?_, fun last => ?_⟩
  · refine deck_command_nothing (r := (s.ttc, [])) calm ?_ ⟨rfl, rfl, rfl⟩
    exact if_neg (by simp [Ttc.lastOfAllowance, within])
  · have moving := (sound.leader (by rw [last]; rfl)).1
    exact deck_command calm (if_pos (by simp [Ttc.lastOfAllowance, last, moving]))
      (Ttc.pulse_last (directed_of_moving sound moving) moving last)

/-- Settles O28: the pulses by the leader allowance and the locate's target, TEND by its edge, and the two timers by whether
they have run out. -/
theorem tapeStops : Obligations.TapeStops := by
  refine ⟨?_, fun s calm => ⟨fun active => ⟨_, rfl, ?_, ?_, ?_, ?_⟩, ⟨_, rfl, fun early => ?_, ?_⟩,
    ⟨_, rfl, fun early => ?_, fun watched stalled => ?_⟩⟩⟩
  · rintro s calm sound counted rfl
    exact ⟨tmotnPulse_moves calm sound, leaderAllowanceEnd_moves calm sound⟩
  · rintro rfl
    exact deck_command_nothing calm rfl Ttc.setTend_same
  · rintro rfl was
    exact deck_command calm rfl (Ttc.setTend_falls was)
  · rintro rfl was still
    exact deck_command calm rfl (Ttc.setTend_rests was still)
  · rintro rfl was moving
    exact deck_command calm rfl (Ttc.setTend_ends was moving)
  · exact deck_command_nothing calm rfl (Ttc.brakingExpiry_early early)
  · rintro stopped rfl braking due
    refine ⟨fun unlatched => deck_command calm rfl (Ttc.brakingExpiry_stops braking due unlatched), fun req latched => ?_⟩
    have gives := Ttc.start_gives
      { s.ttc with state := .stopped, direction := .none, brakingTimer := none, latched := none } req
    rw [← Ttc.brakingExpiry_starts braking due latched] at gives
    exact deck_command calm rfl gives
  · exact deck_command_nothing calm rfl (Ttc.stallExpiry_early early)
  · exact deck_command calm rfl (Ttc.stallExpiry_due watched stalled)

end Sys2Proof.Machine
end

section
/-! ## The tape counter and status line 5 (05, 10) -/

namespace Sys2Proof.Machine

open Sys2Proof.Safety

/-! ### Dirty marks (R211) -/

section

variable {rw : Rw} {n : Nat}

theorem Rw.markDirty_length (rw : Rw) (m : Nat) : (rw.markDirty m).lines.length = rw.lines.length := by
  simp [Rw.markDirty]

theorem Rw.markDirty_dirty (here : n < rw.lines.length) :
    ((rw.markDirty n).lines.getD n LineRecord.reset).dirty = true := by
  simp [Rw.markDirty, List.getD_eq_getElem?_getD, here]

/-- A mark stays when another line is marked. -/
theorem Rw.markDirty_stays (m : Nat) (dirty : (rw.lines.getD n LineRecord.reset).dirty = true) :
    ((rw.markDirty m).lines.getD n LineRecord.reset).dirty = true := by
  rw [List.getD_eq_getElem?_getD] at dirty ⊢
  rw [Rw.markDirty, List.getElem?_modify]
  cases line : rw.lines[n]? with
  | none => rw [line] at dirty; exact dirty
  | some l =>
    rw [line] at dirty
    by_cases same : m = n
    · simp [same]
    · simpa [same] using dirty

/-- Every line that is to be marked is dirty after the marks, and a dirty one stays so. -/
theorem foldl_mark_dirty (marks : Nat → Bool) (ns : List Nat) (rw : Rw) (here : n < rw.lines.length)
    (marked : n ∈ ns ∧ marks n = true ∨ (rw.lines.getD n LineRecord.reset).dirty = true) :
    ((ns.foldl (fun rw m => if marks m then rw.markDirty m else rw) rw).lines.getD n LineRecord.reset).dirty = true := by
  induction ns generalizing rw with
  | nil => exact marked.resolve_left fun h => absurd h.1 List.not_mem_nil
  | cons m ns ih =>
    rw [List.foldl_cons]
    refine ih _ (by split <;> simpa [Rw.markDirty_length] using here) ?_
    rcases marked with ⟨listed, marks_n⟩ | dirty
    · rcases List.mem_cons.mp listed with rfl | later
      · rw [if_pos marks_n]
        exact .inr (Rw.markDirty_dirty here)
      · exact .inl ⟨later, marks_n⟩
    · refine .inr ?_
      split
      · exact Rw.markDirty_stays m dirty
      · exact dirty

end

theorem State.post_lines_length (s : State) (ns : List Notice) : (s.post ns).rw.lines.length = s.rw.lines.length := by
  induction ns generalizing s with
  | nil => rfl
  | cons n ns ih =>
    rw [State.post_cons, ih]
    cases n with
    | log event arg => simp only [State.post1, Rw.handOver]; split <;> rfl
    | dirty line => exact s.rw.markDirty_length line
    | _ => rfl

section

variable {s : State} {f : State → State} {n : Nat}

/-- An act marks every line whose fields it changes (R211). -/
theorem act_marks (shown : n < 11) (here : n < (f s).rw.lines.length) (changed : s.lineData n ≠ (f s).lineData n) :
    ((s.act f).rw.lines.getD n LineRecord.reset).dirty = true := by
  have marks := foldl_mark_dirty (fun m => decide (s.lineData m ≠ (f s).lineData m)) (List.range 11) (f s).rw here
    (.inl ⟨List.mem_range.mpr shown, decide_eq_true changed⟩)
  simpa [State.act, State.markChanged, ite_not] using marks

/-- While a write is in progress the mark stands at the end of the command (R211, R212). -/
theorem run_marks (calm : (f s).notices = []) (busy : (f s).rw.job.isSome = true) (shown : n < 11)
    (here : n < (f s).rw.lines.length) (changed : s.lineData n ≠ (f s).lineData n) :
    ((s.run f).rw.lines.getD n LineRecord.reset).dirty = true := by
  have settled : (s.act f).settle.rw = (s.act f).rw := by simp [State.settle, State.kickReports, busy]
  rw [State.run_quiet s f calm, settled]
  exact act_marks shown here changed

end

/-! ### The counter on line 5 (R93) -/

/-- Line 5 reports the counter, low byte first. -/
theorem lineData_counter (s : State) : (s.lineData 5).getD 2 0 ++ (s.lineData 5).getD 1 0 = s.ttc.counter := by
  change BitVec.ofNat 8 (s.ttc.counter.toNat / 256) ++ BitVec.ofNat 8 s.ttc.counter.toNat = s.ttc.counter
  rw [← halfOf_word16]
  refine BitVec.eq_of_toNat_eq ?_
  have range := s.ttc.counter.isLt
  simp only [halfOf, word16, BitVec.toNat_ofNat]
  omega

theorem lineData_of_counter {s t : State} (other : t.ttc.counter ≠ s.ttc.counter) : s.lineData 5 ≠ t.lineData 5 :=
  fun same => other (by rw [← lineData_counter t, ← same, lineData_counter s])

/-! ### What changes the counter (R93, R94) -/

theorem brakes_counter (t : Ttc) (latched : Option TapeRequest) : (brakes t latched).counter = t.counter := by
  unfold brakes recordingEnds
  split <;> rfl

/-- The check against a locate's target leaves the counter. -/
theorem Ttc.checkTarget_counter (t : Ttc) :
    t.checkTarget.1.counter = t.counter ∧ queuedOf t.checkTarget.2 = [] := by
  cases reached : t.atTarget with
  | true =>
    obtain ⟨record, -, queued⟩ := Ttc.checkTarget_reached reached
    exact ⟨by rw [record, brakes_counter], queued⟩
  | false =>
    obtain ⟨record, -, queued⟩ := Ttc.checkTarget_short reached
    exact ⟨by rw [record], queued⟩

/-- A pulse counts by the direction in force, the last of an allowance too. -/
theorem Ttc.pulse_counter (t : Ttc) : t.pulse.1.counter = t.stepped ∧ queuedOf t.pulse.2 = [] := by
  by_cases still : t.direction = .none
  · obtain ⟨record, -, queued⟩ := Ttc.pulse_still still
    exact ⟨by rw [record, Ttc.stepped, still], queued⟩
  · have counts : t.counted.counter = t.stepped := by
      cases direction : t.direction <;> simp_all [Ttc.counted, Ttc.stepped]
    rw [Ttc.pulse_counted still, ← counts]
    split
    · obtain ⟨record, -, queued⟩ := t.counted.tapeEnd_gives
      exact ⟨by rw [record, brakes_counter], queued⟩
    · exact t.counted.checkTarget_counter

/-- TAPE_ZERO clears the counter, reached target or not. -/
theorem Ttc.zero_counter (t : Ttc) : t.zero.1.counter = 0 ∧ queuedOf t.zero.2 = [] :=
  Ttc.checkTarget_counter { t with counter := 0 }

theorem Ttc.stepped_forward {t : Ttc} (forward : t.direction = .forward) :
    t.stepped.toNat = if t.counter.toNat = 65535 then 0 else t.counter.toNat + 1 := by
  have range := t.counter.isLt
  simp only [Ttc.stepped, forward]
  split <;> bv_omega

theorem Ttc.stepped_reverse {t : Ttc} (reverse : t.direction = .reverse) :
    t.stepped.toNat = if t.counter.toNat = 0 then 65535 else t.counter.toNat - 1 := by
  have range := t.counter.isLt
  simp only [Ttc.stepped, reverse]
  split <;> bv_omega

/-- A count is a change. -/
theorem Ttc.stepped_ne {t : Ttc} (directed : t.direction ≠ .none) : t.stepped ≠ t.counter := by
  intro same
  cases direction : t.direction with
  | none => exact directed direction
  | forward => have steps := Ttc.stepped_forward direction; rw [same] at steps; split at steps <;> omega
  | reverse => have steps := Ttc.stepped_reverse direction; rw [same] at steps; split at steps <;> omega

/-! ### O29 -/

section

variable {s : State} {f : State → State} {r : Reaction Ttc}

/-- A command of one reaction of the deck marks line 5 where it changes the counter. -/
theorem deck_marks (calm : s.notices = []) (here : 5 < s.rw.lines.length) (act : f s = s.putTtc r)
    (quiet : queuedOf r.2 = []) (other : r.1.counter ≠ s.ttc.counter) (busy : s.rw.job.isSome = true) :
    ((s.run f).rw.lines.getD 5 LineRecord.reset).dirty = true := by
  refine run_marks ?_ ?_ (by omega) ?_ (lineData_of_counter ?_)
  · rw [act, State.putTtc_notices, calm, quiet]; rfl
  · rw [act]; simpa using busy
  · rw [act, State.putTtc, State.post_lines_length]; exact here
  · rw [act]; simpa using other

/-- A command of the deck that counts, or leaves the counter, by `counts`. -/
theorem deck_counts {c : Instr} {counts : Bool} (calm : s.notices = []) (here : 5 < s.rw.lines.length)
    (runs : exec c s = .next (s.run f)) (act : f s = s.putTtc r) (quiet : queuedOf r.2 = [])
    (counter : r.1.counter = if counts then s.ttc.stepped else s.ttc.counter) :
    ∃ t, exec c s = .next t ∧
      (counts = true → s.ttc.direction = .forward →
        t.ttc.counter.toNat = if s.ttc.counter.toNat = 65535 then 0 else s.ttc.counter.toNat + 1) ∧
      (counts = true → s.ttc.direction = .reverse →
        t.ttc.counter.toNat = if s.ttc.counter.toNat = 0 then 65535 else s.ttc.counter.toNat - 1) ∧
      (counts = false ∨ s.ttc.direction = .none → t.ttc.counter = s.ttc.counter) ∧
      (t.lineData 5).getD 2 0 ++ (t.lineData 5).getD 1 0 = t.ttc.counter ∧
      (counts = true → s.ttc.direction ≠ .none → s.rw.job.isSome = true →
        (t.rw.lines.getD 5 LineRecord.reset).dirty = true) := by
  obtain ⟨ends, -⟩ := deck_command calm act ⟨rfl, rfl, quiet⟩
  refine ⟨_, runs, fun counted forward => ?_, fun counted reverse => ?_, fun stands => ?_, lineData_counter _,
    fun counted directed busy => ?_⟩
  · rw [ends, counter, if_pos counted, Ttc.stepped_forward forward]
  · rw [ends, counter, if_pos counted, Ttc.stepped_reverse reverse]
  · rw [ends, counter]
    rcases stands with uncounted | still
    · rw [if_neg (by simp [uncounted])]
    · rw [Ttc.stepped, still, ite_self]
  · rw [if_pos counted] at counter
    exact deck_marks calm here act quiet (counter ▸ Ttc.stepped_ne directed) busy

end

/-- TAPE_ZERO puts zero on line 5 (R93, R94). -/
theorem tapeZero_marks {s : State} (ready : Ready s) (here : 5 < s.rw.lines.length) (counts : s.ttc.counter ≠ 0)
    (busy : s.rw.job.isSome = true) :
    ((s.run (State.takeRow 0x45 dirTapeZero)).rw.lines.getD 5 LineRecord.reset).dirty = true := by
  obtain ⟨counter, quiet⟩ := s.ttc.zero_counter
  obtain ⟨dd, ns, shape, none_made, -, -⟩ := takeRow_eq ready.2 0x45 dirTapeZero
  have acts : State.takeRow 0x45 dirTapeZero s =
      ((({ s with dd := dd }).post ns).putTtc s.ttc.zero).answer 0x45 .done := by
    rw [shape, State.take, dirTapeZero]
    simp
  refine run_marks ?_ ?_ (by omega) ?_ (lineData_of_counter ?_) <;> rw [acts]
  · simp [State.answer, State.post_notices, State.putTtc_notices, none_made, ready.1, quiet, queuedOf_dirty]
  · simpa [State.answer] using busy
  · simpa [State.answer, State.post_lines_length, State.putTtc] using here
  · simpa [State.answer, counter] using counts.symm

/-- Settles O29: the reaction of each command steps, keeps or clears the counter, and an act that changes it marks line 5. -/
theorem tapeCounter : Obligations.TapeCounter := by
  rintro s calm here m rfl
  refine ⟨?_, fun open_ => ?_⟩
  · intro c listed counted counts
    have stepped := s.ttc.pulse_counter
    have last : s.ttc.lastOfAllowance = decide (s.ttc.state.moving = true ∧ s.ttc.leader = some 63) := by
      by_cases last : s.ttc.leader = some 63 <;> simp [Ttc.lastOfAllowance, last]
    simp only [List.mem_cons, List.not_mem_nil, or_false] at listed
    rcases listed with rfl | rfl
    · obtain rfl : counted = true := by simpa using counts
      exact deck_counts calm here rfl (f := fun k => k.putTtc k.ttc.pulse) rfl stepped.2 stepped.1
    · obtain rfl : counted = s.ttc.lastOfAllowance := by rw [counts, last]; simp
      cases final : s.ttc.lastOfAllowance with
      | true => exact deck_counts calm here rfl (if_pos final) stepped.2 stepped.1
      | false => exact deck_counts (r := (s.ttc, [])) calm here rfl (if_neg (by simp [final])) rfl rfl
  · obtain ⟨counter, quiet⟩ := s.ttc.zero_counter
    have ready : Ready s := ⟨calm, open_⟩
    obtain ⟨ends, -⟩ := deck_row (code := 0x45) (owner := dirTapeZero) (r := s.ttc.zero) (result := .done) ready
      (fun k same => by rw [dirTapeZero, same]) ⟨rfl, rfl, quiet⟩
    have zero : (s.run (State.takeRow 0x45 dirTapeZero)).ttc.counter = 0 := by rw [ends, counter]
    refine ⟨_, rfl, zero, ?_, ?_, fun counts busy => tapeZero_marks ready here (fun none => counts (by rw [none]; rfl)) busy⟩
    · change byteOf (s.run (State.takeRow 0x45 dirTapeZero)).ttc.counter.toNat = 0
      rw [zero]; rfl
    · change byteOf ((s.run (State.takeRow 0x45 dirTapeZero)).ttc.counter.toNat / 256) = 0
      rw [zero]; rfl

end Sys2Proof.Machine
end

section
/-! ## Cue bursts between their edges (05) -/

namespace Sys2Proof.Machine

open Sys2Proof.Safety

/-! ### An edge on CUEIN (R99, R101, R102) -/

section

variable {t : Ttc} {now : Word}

theorem Ttc.edge_same : Gives (t.edge t.cuein now) t [] := by
  simp [Gives, Ttc.edge]

section

variable (low : t.cuein = false)

include low

/-- The first rising edge begins the burst, with its start count (R99). -/
theorem Ttc.rise_quiet (quiet : t.decoder = .quiet) : Gives (t.edge true now)
    { t with cuein := true, decoder := .tone, burstStart := now, burstCount := t.counter, stuckTimer := some 801,
             past800 := false } [] := by
  simp [Gives, Ttc.edge, low, quiet]

/-- A gap that a rising edge ends in time is bridged (R99). -/
theorem Ttc.rise_gap (gap : t.decoder = .gap) (short : t.past800 = false) :
    Gives (t.edge true now) { t with cuein := true, decoder := .tone, gapTimer := none } [] := by
  simp [Gives, Ttc.edge, low, gap, short]

/-- Tone past 800 ms is stuck (R101). -/
theorem Ttc.rise_stuck (gap : t.decoder = .gap) (long : t.past800 = true) :
    Gives (t.edge true now) (Ttc.stick { t with cuein := true }).1 [(.toneStuck, t.burstCount)] := by
  simp [Gives, Ttc.edge, Ttc.stick, low, gap, long]

theorem Ttc.rise_waiting (waiting : t.decoder = .stuck ∨ t.decoder = .resync) :
    Gives (t.edge true now) { t with cuein := true, gapTimer := none } [] := by
  rcases waiting with e | e <;> simp [Gives, Ttc.edge, low, e]

theorem Ttc.rise_off (off : t.decoder = .off) : Gives (t.edge true now) { t with cuein := true } [] := by
  simp [Gives, Ttc.edge, low, off]

end

section

variable (high : t.cuein = true)

include high

/-- A falling edge may be the last: its instant is kept and the gap timer starts (R99). -/
theorem Ttc.fall_tone (tone : t.decoder = .tone) : Gives (t.edge false now)
    { t with cuein := false, decoder := .gap, lastFall := now, gapTimer := some 8 } [] := by
  simp [Gives, Ttc.edge, high, tone]

theorem Ttc.fall_waiting (waiting : t.decoder = .stuck ∨ t.decoder = .resync) :
    Gives (t.edge false now) { t with cuein := false, gapTimer := some 8 } [] := by
  rcases waiting with e | e <;> simp [Gives, Ttc.edge, high, e]

theorem Ttc.fall_off (off : t.decoder = .off) : Gives (t.edge false now) { t with cuein := false } [] := by
  simp [Gives, Ttc.edge, high, off]

end

/-! ### The stuck timer and the gap timer (R99, R101, R102) -/

theorem Ttc.stuckExpiry_idle (idle : t.stuckTimer ≠ some 0 ∨ t.decoder ≠ .tone ∧ t.decoder ≠ .gap) :
    Gives t.stuckExpiry t [] := by
  by_cases due : t.stuckTimer = some 0
  · obtain ⟨tone, gap⟩ := idle.resolve_left (not_not.mpr due)
    cases decoder : t.decoder <;> simp_all [Gives, Ttc.stuckExpiry]
  · simp [Gives, Ttc.stuckExpiry, Timer.due, due]

theorem Ttc.stuckExpiry_tone (due : t.stuckTimer = some 0) (tone : t.decoder = .tone) :
    Gives t.stuckExpiry t.stick.1 [(.toneStuck, t.burstCount)] := by
  simp [Gives, Ttc.stuckExpiry, Ttc.stick, Timer.due, due, tone]

theorem Ttc.stuckExpiry_gap (due : t.stuckTimer = some 0) (gap : t.decoder = .gap) :
    Gives t.stuckExpiry { t with stuckTimer := none, past800 := true } [] := by
  simp [Gives, Ttc.stuckExpiry, Timer.due, due, gap]

theorem Ttc.gapExpiry_early (early : t.gapTimer ≠ some 0) : Gives t.gapExpiry t [] := by
  simp [Gives, Ttc.gapExpiry, Timer.due, early]

theorem Ttc.gapExpiry_waiting (due : t.gapTimer = some 0) (waiting : t.decoder = .stuck ∨ t.decoder = .resync) :
    Gives t.gapExpiry { t with decoder := .quiet, gapTimer := none } [] := by
  rcases waiting with e | e <;> simp [Gives, Ttc.gapExpiry, Timer.due, due, e]

end

/-- Settles O30, by the edge or the timer and the state of the decoder. -/
theorem cueBurst : Obligations.CueBurst := by
  intro s calm
  refine ⟨fun rising => ⟨_, rfl, ?_, ?_, ?_⟩, ⟨_, rfl, fun idle => ?_, fun due tone => ?_, fun due gap => ?_⟩,
    ⟨_, rfl, fun early => ?_, fun due waiting => ?_⟩⟩
  · rintro rfl
    exact deck_command_nothing calm rfl Ttc.edge_same
  · rintro rfl low
    refine ⟨fun quiet => ?_, fun gap short => ?_, fun gap long => ?_, fun waiting => ?_, fun off => ?_⟩
    · exact deck_command calm rfl (Ttc.rise_quiet low quiet)
    · exact deck_command calm rfl (Ttc.rise_gap low gap short)
    · obtain ⟨record, effect⟩ := deck_command (f := fun k => k.putTtc (k.ttc.edge true k.rw.uptime)) calm rfl
        (Ttc.rise_stuck low gap long)
      exact ⟨congrArg Ttc.decoder record, effect⟩
    · exact deck_command calm rfl (Ttc.rise_waiting low waiting)
    · exact deck_command calm rfl (Ttc.rise_off low off)
  · rintro rfl high
    refine ⟨fun tone => ?_, fun waiting => ?_, fun off => ?_⟩
    · exact deck_command calm rfl (Ttc.fall_tone high tone)
    · exact deck_command calm rfl (Ttc.fall_waiting high waiting)
    · exact deck_command calm rfl (Ttc.fall_off high off)
  · exact deck_command_nothing calm rfl (Ttc.stuckExpiry_idle idle)
  · obtain ⟨record, effect⟩ := deck_command (f := fun k => k.putTtc k.ttc.stuckExpiry) calm rfl
      (Ttc.stuckExpiry_tone due tone)
    exact ⟨congrArg Ttc.decoder record, effect⟩
  · exact deck_command calm rfl (Ttc.stuckExpiry_gap due gap)
  · exact deck_command_nothing calm rfl (Ttc.gapExpiry_early early)
  · exact deck_command calm rfl (Ttc.gapExpiry_waiting due waiting)

end Sys2Proof.Machine
end

section
/-! ## A DIRECT cue's step (05): its deposit leads to a selection, which may grant another source's record -/

namespace Sys2Proof.Machine

open Sys2Proof.Safety

/-- A cue record of the show: CLEAR, and TAPE_PLAY as its extra action, with no lamp action. -/
def clearAndPlay : List Byte := [0x31, 0, 0, 0, 0, 0, 0xFF, 0xFF, 0, 0, 1, 0, 0, 0, 0, 0]

/-- A burst of 40 ms, an ADVANCE routed DIRECT, ends at a mechanism at rest. The CUE source's request for slot 5 waits in
the arbiter, and a cue of the show is HELD behind it. -/
def cueBehindCue : State :=
  { State.reset with
    tmc := { Tmc.reset with state := .ready, tcode := 1, n := 80, homed := true, p := 3, display := 3, gate := .loaded }
    ca := { Ca.reset with slots := { Ca.reset.slots with cue := some ⟨.changeTo 5, 1⟩ } }
    ce := { Ce.reset with
      showState := .running, phase := .held, index := 0, queue := [⟨0, [], true, .sequential⟩], fired := clearAndPlay
      timelineInstant := 1000, pendingMarker := some false }
    ttc := { Ttc.reset with decoder := .gap, gapTimer := some 0, lastFall := 40, route := .direct } }

/-- The selection that the step's deposit leads to grants the CUE source's request, the HELD cue goes out, and its
TAPE_PLAY starts the tape. -/
theorem cueBehindCue_plays : (cueBehindCue.run fun k => k.putTtc k.ttc.gapExpiry).ttc.state = .playing := by decide

/-- Refutes O31: of an ADVANCE or a REVERSE routed DIRECT the statement says, for every state, that the deck ends as the
end of the burst left it. The step is deposited with the arbiter, and at a mechanism at rest a selection follows, which
grants any request that waits and is not masked (R133, R136). Where that is the CUE source's, a HELD cue goes out into the
slot it leaves, and its extra action may be one of the deck's (R173, R174). The clause on the deck lacks the condition
under which the grant of the step is stated, that no other request waits. -/
theorem not_cueClasses : ¬ Obligations.CueClasses := by
  intro h
  obtain ⟨t, runs, -, classes⟩ := h.2 cueBehindCue rfl _ rfl 40 rfl rfl rfl
  obtain ⟨-, -, -, -, -, steps⟩ := classes .advance rfl _ rfl
  obtain ⟨stands, -⟩ := steps rfl (.inl rfl) _ rfl _ rfl _ rfl _ rfl _ rfl
  obtain rfl : t = _ := (Host.Outcome.next.inj runs).symm
  have plays := cueBehindCue_plays
  rw [stands] at plays
  exact absurd plays (by decide)

end Sys2Proof.Machine
end

section
/-! ## The remote's commands: one reaction each (06)

Most commands of the remote are one reaction of the receiver, the held key or the focus drive that makes no notice: what the
reaction gives is then all that the command does. -/

namespace Sys2Proof.Machine

open Sys2Proof.Safety

section

variable {s : State} (calm : s.notices = []) {f : State → State} {r : Reaction Rr} (act : f s = s.putRr r) {rr : Rr}
  {events : List (Event × Half)}

include calm act

theorem remote_command (gives : Gives r rr events) : (s.run f).rr = rr ∧ Effect [.remote] events s (s.run f) := by
  obtain ⟨rfl, rfl, quiet⟩ := gives
  exact putRr_quiet s calm r quiet f act

/-- A reaction that leaves the remote as it was changes nothing. -/
theorem remote_command_nothing (gives : Gives r s.rr events) : Effect [] events s (s.run f) := by
  obtain ⟨same, parts, logs⟩ := remote_command calm act gives
  refine ⟨fun p _ => ?_, logs⟩
  by_cases here : p = .remote
  · subst here
    exact same
  · exact parts p (by simpa using here)

end

theorem StandsAt.putRr {u s : State} {events : List (Event × Half)} {queue : List Notice} (h : StandsAt u events queue s)
    (r : Reaction Rr) :
    StandsAt { u with rr := r.1 } (events ++ loggedOf r.2) (queue ++ queuedOf r.2) (s.putRr r) := by
  refine StandsAt.post (s := { s with rr := r.1 }) ?_ r.2
  obtain ⟨b, d, l, rfl, joined⟩ := h
  exact ⟨b, d, l, rfl, joined⟩

theorem Ran.rr {u t : State} {events : List (Event × Half)} (h : Ran u events t) : t.rr = u.rr := by
  obtain ⟨w, k, rfl⟩ := h
  simp [k.rr]

theorem Took.rr {code : Byte} {result : Result} {s u t : State} {events : List (Event × Half)}
    (h : Took code result s u events t) : t.rr = u.rr := by
  obtain ⟨_, _, ran⟩ := h
  exact ran.rr

end Sys2Proof.Machine
end

section
/-! ## The frame receiver (06): RLINE_EDGE, FRAME_ERROR, LOW_LIMIT_EXPIRY and IDLE_TIMER_EXPIRY -/

namespace Sys2Proof.Machine

open Sys2Proof.Safety

section

variable {rr : Rr} {micros : Nat} {bits : List Bool}

/-! ### A frame that fails (R116) -/

theorem Rr.fail_gives (rr : Rr) (failure : FrameFailure) (listens : Bool) :
    Gives (rr.fail failure listens) (frameFails rr listens)
      [(.frameError, argPair (FrameFailure.number failure) rr.receiver.bits.length)] := by
  cases listens <;> exact ⟨by simp [Rr.fail, Rr.resync, frameFails, satInc], rfl, rfl⟩

/-- A reaction that is the failure of a frame of which these bits have been received, with the line at this level. -/
theorem gives_of_fails {r : Reaction Rr} {level listens : Bool} {failure : FrameFailure}
    (fails : r = Rr.fail { rr with rline := level } failure listens) (received : rr.receiver.bits = bits) :
    Gives r (frameFails { rr with rline := level } listens)
      [(.frameError, argPair (FrameFailure.number failure) bits.length)] := by
  rw [fails, ← received]
  exact Rr.fail_gives _ failure listens

/-! ### A falling edge (R113, R114, R116) -/

section

variable (high : rr.rline = true)

include high

theorem Rr.fall_listen (listens : rr.receiver = .listen) :
    Gives (rr.edge false micros) { rr with rline := false, receiver := .start, lowLimit := some 3 } [] := by
  simp [Gives, Rr.edge, high, listens]

theorem Rr.fall_resync (waits : rr.receiver = .resync) :
    Gives (rr.edge false micros) { rr with rline := false, idleTimer := none } [] := by
  simp [Gives, Rr.edge, high, waits]

/-- A space in its range ends with the next pulse (R113). -/
theorem Rr.fall_space (space : rr.receiver = .space bits) (more : bits.length ≠ 12) (long : 450 ≤ micros)
    (short : micros ≤ 750) :
    Gives (rr.edge false micros)
      { rr with rline := false, receiver := .bit bits, frameEnd := none, lowLimit := some 3 } [] := by
  simp [Gives, Rr.edge, high, space, more, long, short]

theorem Rr.fall_badSpace (space : rr.receiver = .space bits) (more : bits.length ≠ 12)
    (outside : micros < 450 ∨ 750 < micros) :
    Gives (rr.edge false micros) (frameFails { rr with rline := false } false)
      [(.frameError, argPair 3 bits.length)] := by
  have range : ¬ (450 ≤ micros ∧ micros ≤ 750) := by omega
  exact gives_of_fails (failure := .space) (by simp [Rr.edge, high, space, more, range]) (by rw [space]; rfl)

/-- A thirteenth pulse (R114). -/
theorem Rr.fall_thirteenth (space : rr.receiver = .space bits) (full : bits.length = 12) :
    Gives (rr.edge false micros) (frameFails { rr with rline := false } false) [(.frameError, argPair 5 12)] := by
  rw [← full]
  exact gives_of_fails (failure := .length) (by simp [Rr.edge, high, space, full]) (by rw [space]; rfl)

end

/-! ### A rising edge (R113, R116) -/

section

variable (low : rr.rline = false)

include low

theorem Rr.rise_resync (waits : rr.receiver = .resync) :
    Gives (rr.edge true micros) { rr with rline := true, idleTimer := some 3 } [] := by
  simp [Gives, Rr.edge, low, waits]

theorem Rr.rise_start (start : rr.receiver = .start) (long : 1800 ≤ micros) (short : micros ≤ 3000) :
    Gives (rr.edge true micros)
      { rr with rline := true, receiver := .space [], lowLimit := none, frameEnd := some 3 } [] := by
  simp [Gives, Rr.edge, Rr.enterSpace, low, start, long, short]

theorem Rr.rise_badStart (start : rr.receiver = .start) (outside : micros < 1800 ∨ 3000 < micros) :
    Gives (rr.edge true micros) (frameFails { rr with rline := true } false) [(.frameError, argPair 1 0)] := by
  have range : ¬ (1800 ≤ micros ∧ micros ≤ 3000) := by omega
  exact gives_of_fails (failure := .startPulse) (bits := []) (by simp [Rr.edge, low, start, range]) (by rw [start]; rfl)

/-- A pulse with the length of a bit adds it (R113). -/
theorem Rr.rise_bit (bit : rr.receiver = .bit bits) {b : Bool} (value : bitOfPulse? micros = some b) :
    Gives (rr.edge true micros)
      { rr with rline := true, receiver := .space (bits ++ [b]), lowLimit := none, frameEnd := some 3 } [] := by
  simp [Gives, Rr.edge, Rr.enterSpace, low, bit, value]

theorem Rr.rise_badBit (bit : rr.receiver = .bit bits) (value : bitOfPulse? micros = none) :
    Gives (rr.edge true micros) (frameFails { rr with rline := true } false)
      [(.frameError, argPair 2 bits.length)] := by
  exact gives_of_fails (failure := .bitPulse) (by simp [Rr.edge, low, bit, value]) (by rw [bit]; rfl)

end

theorem Rr.edge_standing (micros : Nat) : Gives (rr.edge rr.rline micros) rr [] := by
  rw [Rr.edge, if_pos rfl]
  exact ⟨rfl, rfl, rfl⟩

/-- The lengths of a 0 bit (R113). -/
theorem bitOfPulse?_zero (long : 450 ≤ micros) (short : micros ≤ 750) : bitOfPulse? micros = some false :=
  if_pos ⟨long, short⟩

/-- The lengths of a 1 bit (R113). -/
theorem bitOfPulse?_one (long : 900 ≤ micros) (short : micros ≤ 1500) : bitOfPulse? micros = some true :=
  (if_neg (by omega)).trans (if_pos ⟨long, short⟩)

theorem bitOfPulse?_none (outside : micros < 450 ∨ 750 < micros ∧ micros < 900 ∨ 1500 < micros) :
    bitOfPulse? micros = none :=
  (if_neg (by omega)).trans (if_neg (by omega))

/-! ### A failure acts where it can happen, and nowhere else (R113 to R116) -/

/-- Once for the failures taken as rows: one acts where it can happen, and leaves the line at the level it implies. -/
theorem Rr.frameError_eq (rr : Rr) (failure : FrameFailure) :
    rr.frameError failure = if canFail rr failure = true then
      Rr.fail { rr with rline := lineAfter rr failure } failure (endsInListen rr failure) else (rr, []) := by
  unfold Rr.frameError
  split
  · next start => rw [if_pos (by simp [canFail, start])]; rfl
  · next bit => rw [if_pos (by simp [canFail, bit])]; rfl
  · next bits space => simp only [canFail, space, decide_eq_true_eq]; rfl
  · next start =>
    have can : canFail rr .stuckLow = rr.lowLimit.due := by rw [canFail, start]; rfl
    rw [can]
    rfl
  · next bits bit =>
    have can : canFail rr .stuckLow = rr.lowLimit.due := by rw [canFail, bit]; rfl
    rw [can]
    rfl
  · next bits space =>
    by_cases full : bits.length = 12
    · simp [canFail, lineAfter, endsInListen, Receiver.bits, space, full]
    · by_cases ended : rr.frameEnd = some 0
      · have line : lineAfter rr .length = rr.rline := by simp [lineAfter, Receiver.bits, space, full]
        have listens : endsInListen rr .length = true := by simp [endsInListen, Receiver.bits, space, full]
        rw [line, listens, if_neg full, if_pos (by simp [Timer.due, ended]), if_pos (by simp [canFail, space, ended])]
      · rw [if_neg full, if_neg (by simp [Timer.due, ended]), if_neg (by simp [canFail, space, full, ended])]
  · next bits space =>
    have can : canFail rr .check = true ↔ bits.length = 12 ∧ rr.frameEnd.due = true ∧ frameGood bits = false := by
      simp [canFail, space, Timer.due, and_assoc]
    simp only [can]
    rfl
  · -- The pairs above are all those in which a failure can happen.
    rename_i failure _ _ _ _ _ _ _ _ _
    have cannot : ¬ canFail rr failure = true := by
      cases failure <;> cases receiver : rr.receiver <;> simp_all [canFail]
    rw [if_neg cannot]

theorem Rr.frameError_cannot {failure : FrameFailure} (cannot : canFail rr failure = false) :
    Gives (rr.frameError failure) rr [] := by
  rw [Rr.frameError_eq, if_neg (by simp [cannot])]
  exact ⟨rfl, rfl, rfl⟩

theorem Rr.frameError_can {failure : FrameFailure} (can : canFail rr failure = true) :
    Gives (rr.frameError failure) (frameFails { rr with rline := lineAfter rr failure } (endsInListen rr failure))
      [(.frameError, argPair (FrameFailure.number failure) rr.receiver.bits.length)] := by
  rw [Rr.frameError_eq, if_pos can]
  exact gives_of_fails rfl rfl

/-- The expiry of the low limit is the failure of a line stuck low (R113). -/
theorem Rr.lowLimitExpiry_eq (rr : Rr) : rr.lowLimitExpiry = rr.frameError .stuckLow := by
  unfold Rr.lowLimitExpiry Rr.frameError
  cases rr.receiver <;> simp

/-! ### The idle timer (R116) -/

theorem Rr.idleExpiry_rest (rest : ¬ (rr.receiver = .resync ∧ rr.idleTimer = some 0)) : rr.idleExpiry = rr :=
  if_neg (by simpa [Timer.due] using rest)

theorem Rr.idleExpiry_listens (waits : rr.receiver = .resync) (due : rr.idleTimer = some 0) :
    rr.idleExpiry = { rr with receiver := .listen, idleTimer := none } :=
  if_pos ⟨waits, by simp [Timer.due, due]⟩

end

/-! ### O32 -/

/-- Settles O32, by the state of the receiver at each edge and at each expiry. -/
theorem remoteLine : Obligations.RemoteLine := by
  intro s calm
  refine ⟨fun rising micros => ⟨_, rfl, ?standing, ?falls, ?rises⟩, fun failure => ⟨_, rfl, fun cannot => ?_, fun can => ?_⟩,
    ⟨_, rfl, fun cannot => ?_, fun can => ?_⟩, ⟨_, rfl, fun rest => ?_, fun waits due => ?_⟩⟩
  case standing =>
    rintro rfl
    exact remote_command_nothing calm rfl (Rr.edge_standing micros)
  case falls =>
    rintro rfl high
    refine ⟨fun listens => ?_, fun waits => ?_, fun bits space => ⟨fun more long short => ?_, fun more outside => ?_,
      fun full => ?_⟩⟩
    · exact remote_command calm rfl (Rr.fall_listen high listens)
    · exact remote_command calm rfl (Rr.fall_resync high waits)
    · exact remote_command calm rfl (Rr.fall_space high space more long short)
    · exact remote_command calm rfl (Rr.fall_badSpace high space more outside)
    · exact remote_command calm rfl (Rr.fall_thirteenth high space full)
  case rises =>
    rintro rfl low
    refine ⟨fun waits => ?_, fun start long short => ?_, fun start outside => ?_, fun bits bit => ⟨fun long short => ?_,
      fun long short => ?_, fun outside => ?_⟩⟩
    · exact remote_command calm rfl (Rr.rise_resync low waits)
    · exact remote_command calm rfl (Rr.rise_start low start long short)
    · exact remote_command calm rfl (Rr.rise_badStart low start outside)
    · exact remote_command calm rfl (Rr.rise_bit low bit (bitOfPulse?_zero long short))
    · exact remote_command calm rfl (Rr.rise_bit low bit (bitOfPulse?_one long short))
    · exact remote_command calm rfl (Rr.rise_badBit low bit (bitOfPulse?_none outside))
  · exact remote_command_nothing calm rfl (Rr.frameError_cannot cannot)
  · exact remote_command calm rfl (Rr.frameError_can can)
  · exact remote_command_nothing calm (congrArg s.putRr s.rr.lowLimitExpiry_eq) (Rr.frameError_cannot cannot)
  · exact remote_command calm (congrArg s.putRr s.rr.lowLimitExpiry_eq) (Rr.frameError_can can)
  · exact remote_command_nothing calm rfl ⟨Rr.idleExpiry_rest rest, rfl, rfl⟩
  · exact remote_command calm rfl ⟨Rr.idleExpiry_listens waits due, rfl, rfl⟩

end Sys2Proof.Machine
end

section
/-! ## The held key (06): RELEASE_TIMER_EXPIRY and REPEAT_TIMER_EXPIRY -/

namespace Sys2Proof.Machine

open Sys2Proof.Safety

/-! ### The action of a key (R122) -/

section

variable {s : State} {e : KeyEntry} {key : BitVec 5}

/-- No action of a key reaches the remote. -/
@[simp] theorem State.performAction_rr (s : State) (e : KeyEntry) (key : BitVec 5) : (s.performAction e key).rr = s.rr := by
  unfold State.performAction State.toggleLamp State.togglePause
  (repeat' split) <;> simp

/-- NONE has no action, and a focus action no part in what a release or a repeat performs (R122, R124). -/
theorem State.performAction_idle (idle : e.effective = 0 ∨ e.effective = 6 ∨ e.effective = 7) :
    s.performAction e key = s := by
  rcases idle with none | inward | outward
  · simp [State.performAction, none]
  · simp [State.performAction, inward]
  · simp [State.performAction, outward]

/-- STEP_FORWARD and STEP_BACK each deposit a step (R122). -/
theorem State.performAction_step (step : e.effective = 1 ∨ e.effective = 2) :
    s.performAction e key = s.post [.deposit .remote (.moveBy (if e.effective = 1 then 1 else -1))] := by
  rcases step with forward | back
  · simp [State.performAction, forward]
  · simp [State.performAction, back]

end

/-! ### A deposit of the remote at a JAMMED mechanism (R130, R135) -/

/-- The record that a deposit of the remote leaves in its empty slot (R130). -/
def Ca.requested (ca : Ca) (kind : OpKind) : Ca :=
  { ca with slots := { ca.slots with remote := some ⟨kind, ca.levels.remote⟩ } }

/-- At a JAMMED mechanism the deposit waits: there is nothing to grant it to, and no operation to preempt (R135, R141). -/
theorem handled_deposit_jammed {u : State} (jammed : u.tmc.state = .jammed) (idle : u.ca.inService = none)
    (empty : u.ca.slots.remote = none) (kind : OpKind) :
    Handled (.deposit .remote kind) u { u with ca := u.ca.requested kind } [] [] := by
  intro s before queue h
  have waits : s.ca.slot .remote = none := by rw [h.ca]; exact empty
  have filled := h.putCa (u.ca.requested kind, [.dirty 6])
  rw [loggedOf_dirty, queuedOf_dirty] at filled
  have busy : (s.putCa (u.ca.requested kind, [.dirty 6])).mechanismFree = false := by
    simp [State.mechanismFree, Tmc.available, h.tmc, jammed]
  have standing : (s.putCa (u.ca.requested kind, [.dirty 6])).preempts .remote ⟨kind, u.ca.levels.remote⟩ = false := by
    simp [State.preempts, Ca.requested, idle]
  have taken : State.handle (.deposit .remote kind) s = s.putCa (u.ca.requested kind, [.dirty 6]) := by
    have accepted : s.ca.accept s.tmc.n .remote kind = some (u.ca.requested kind) := by
      rw [Ca.accept, waits, h.ca]
      rfl
    have pending : (s.putCa (u.ca.requested kind, [.dirty 6])).ca.slot .remote = some ⟨kind, u.ca.levels.remote⟩ := by
      rw [State.putCa_ca]
      rfl
    simp only [State.handle, State.deposit, accepted, waits, Option.isNone_none, if_true, State.afterDeposit, busy, pending,
      standing, Bool.false_eq_true, if_false]
  rw [taken]
  exact filled

/-! ### What the expiries do to the record of the remote (R119, R123) -/

section

variable {s : State} {h : HeldKey}

theorem State.releaseExpiry_rest (rest : s.rr.releaseTimer ≠ some 0 ∨ s.rr.held = none) : s.releaseExpiry = s := by
  unfold State.releaseExpiry State.releaseKey
  rcases rest with running | free
  · rw [if_neg (by simpa [Timer.due] using running)]
  · rw [free, ite_self]

/-- A release ends the key, and performs the action of a RELEASE entry that no await has consumed (R119). -/
theorem State.releaseExpiry_due (held : s.rr.held = some h) (due : s.rr.releaseTimer = some 0) :
    s.releaseExpiry = if (s.rr.entry h.key).policy = 2 ∧ h.consumed = false then
      (s.putRr (keyReleased s.rr, [])).performAction (s.rr.entry h.key) h.key else s.putRr (keyReleased s.rr, []) := by
  rw [State.releaseExpiry, if_pos (by simp [Timer.due, due]), State.releaseKey, held]
  rfl

theorem State.repeatExpiry_rest (rest : s.rr.repeatTimer ≠ some 0 ∨ s.rr.held = none) : s.repeatExpiry = s := by
  unfold State.repeatExpiry
  split
  · rfl
  · next held =>
    have running : s.rr.repeatTimer ≠ some 0 := rest.resolve_right (by simp [held])
    rw [if_neg (by simpa [Timer.due] using running)]

/-- An entry that is no longer REPEAT, or has no interval, ends the repeats (R123). -/
theorem State.repeatExpiry_ends (held : s.rr.held = some h) (due : s.rr.repeatTimer = some 0)
    (ended : (s.rr.entry h.key).policy ≠ 1 ∨ (s.rr.entry h.key).interval = 0) :
    s.repeatExpiry = s.putRr ({ s.rr with repeatTimer := none }, []) := by
  have none_left : ¬ ((s.rr.entry h.key).policy = 1 ∧ 0 < (s.rr.entry h.key).interval) := by omega
  simp only [State.repeatExpiry, held, Timer.due, due, beq_self_eq_true, if_true, if_neg none_left]

/-- A REPEAT entry starts its timer again and performs its action (R123). -/
theorem State.repeatExpiry_repeats (held : s.rr.held = some h) (due : s.rr.repeatTimer = some 0)
    (policy : (s.rr.entry h.key).policy = 1) (interval : 0 < (s.rr.entry h.key).interval) :
    s.repeatExpiry = (s.putRr ({ s.rr with repeatTimer := some (100 * (s.rr.entry h.key).interval) }, [])).performAction
      (s.rr.entry h.key) h.key := by
  rw [Nat.mul_comm]
  simp only [State.repeatExpiry, held, Timer.due, due, beq_self_eq_true, if_true, policy, interval, and_self]

end

/-! ### The commands -/

section

variable {s : State} (calm : s.notices = []) {f : State → State}

include calm

/-- A command that leaves everything as it is. -/
theorem effect_of_rest (rest : f s = s) : Effect [] [] s (s.run f) :=
  effect_quiet (by rw [rest, calm]) (fun p _ => by rw [rest]; cases p <;> simp [Part.same, calm]) (by rw [rest])
    (fun _ _ => by rw [rest]; simp)

variable {rr : Rr} {e : KeyEntry} {key : BitVec 5}

/-- A command that sets the record of the remote and performs an action without part in it. -/
theorem effect_of_idle_action (act : f s = (s.putRr (rr, [])).performAction e key)
    (idle : e.effective = 0 ∨ e.effective = 6 ∨ e.effective = 7) : Effect [.remote] [] s (s.run f) :=
  (remote_command calm (act.trans (State.performAction_idle idle)) ⟨rfl, rfl, rfl⟩).2

/-- A command that sets the record of the remote and steps at a JAMMED mechanism: the step waits in the remote's slot (R122,
R130). -/
theorem effect_of_step (act : f s = (s.putRr (rr, [])).performAction e key) (step : e.effective = 1 ∨ e.effective = 2)
    (jammed : s.tmc.state = .jammed) (idle : s.ca.inService = none) (empty : s.ca.slots.remote = none) :
    (s.run f).ca = s.ca.requested (.moveBy (if e.effective = 1 then 1 else -1)) ∧
      Effect [.remote, .arbiter] [] s (s.run f) := by
  have acted : StandsAt { s with rr := rr } [] [.deposit .remote (.moveBy (if e.effective = 1 then 1 else -1))] (f s) := by
    rw [act, State.performAction_step step]
    exact ((StandsAt.refl calm).putRr (rr, [])).post [.deposit .remote _]
  have ran := run_ran acted (.cons (handled_deposit_jammed (u := { s with rr := rr }) jammed idle empty _) (.nil 511 _))
  exact ⟨ran.ca, ran.effect rfl fun p hp => by cases p <;> simp [Part.same] at hp ⊢⟩

end

/-! ### O34 -/

/-- Settles O34, by whether the timer is due and by what the key's entry asks for. -/
theorem remoteKeys : Obligations.RemoteKeys := by
  intro s calm
  refine ⟨⟨_, rfl, fun rest => ?_, ?released⟩, ⟨_, rfl, fun rest => ?_, ?repeated⟩⟩
  · exact effect_of_rest calm (State.releaseExpiry_rest rest)
  case released =>
    rintro h held e rfl due
    have expires := State.releaseExpiry_due held due
    refine ⟨?_, fun idle => ?_, fun policy unconsumed step jammed free empty => ?_⟩
    · rw [State.run_rr, expires]
      split <;> simp
    · by_cases acts : (s.rr.entry h.key).policy = 2 ∧ h.consumed = false
      · rw [if_pos acts] at expires
        refine effect_of_idle_action calm expires ?_
        obtain ⟨policy, unconsumed⟩ := acts
        simpa [policy, unconsumed] using idle
      · rw [if_neg acts] at expires
        exact (remote_command calm expires ⟨rfl, rfl, rfl⟩).2
    · rw [if_pos ⟨policy, unconsumed⟩] at expires
      exact effect_of_step calm expires step jammed free empty
  · exact effect_of_rest calm (State.repeatExpiry_rest rest)
  case repeated =>
    rintro h held e rfl due
    refine ⟨fun ended => ?_, fun policy interval => ?_⟩
    · exact remote_command calm (State.repeatExpiry_ends held due ended) ⟨rfl, rfl, rfl⟩
    · have expires := State.repeatExpiry_repeats held due policy interval
      refine ⟨?_, fun idle => ?_, fun step jammed free empty => ?_⟩
      · rw [State.run_rr, expires]
        simp
      · exact effect_of_idle_action calm expires idle
      · exact effect_of_step calm expires step jammed free empty

end Sys2Proof.Machine
end

section
/-! ## REMOTE_SETUP and the focus limit (06) -/

namespace Sys2Proof.Machine

open Sys2Proof.Safety

/-! ### REMOTE_SETUP (R117) -/

section

variable {rr : Rr} {unit enable : Byte}

theorem Rr.setup_refused (bad : 15 < unit.toNat ∨ 1 < enable.toNat) : rr.setup unit enable = (rr, .badOperand) :=
  if_pos bad

theorem Rr.setup_done (small : unit.toNat ≤ 15) (flag : enable.toNat ≤ 1) :
    rr.setup unit enable =
      ({ rr with unit := BitVec.ofNat 4 unit.toNat, enabled := decide (enable = 1) }, .done) :=
  if_neg (by omega)

end

/-- REMOTE_SETUP is answered as the remote answers it, and changes the remote alone. -/
theorem remoteSetup_answered {s : State} (ready : Ready s) {unit enable : Byte} {rr : Rr} {result : Result}
    (setup : s.rr.setup unit enable = (rr, result)) {changed : List Part} (changes : rr = s.rr ∨ Part.remote ∈ changed) :
    (s.run (State.takeRow 0x02 (dirRemoteSetup unit enable))).rr = rr ∧
      Answered 0x02 result changed [] s (s.run (State.takeRow 0x02 (dirRemoteSetup unit enable))) := by
  have took : Took 0x02 result s { s with rr := rr } [] (s.run (State.takeRow 0x02 (dirRemoteSetup unit enable))) :=
    row_took (u := { s with rr := rr }) (events := []) (made := []) ready
      (fun dd k before h => by
        rw [dirRemoteSetup, h.rr]
        dsimp only
        rw [setup]
        exact ⟨rfl, h.putRr (rr, [])⟩)
      fun dd => .nil _ _
  refine ⟨took.rr, took.answered rfl fun p hp => ?_⟩
  cases p <;> simp [Part.same] at hp ⊢
  exact changes.resolve_right hp

/-! ### The focus limit (R125) -/

section

variable {rr : Rr}

theorem Rr.setFlim_standing : rr.setFlim rr.flim = rr := if_pos rfl

/-- FLIM becoming active ends a drive at the limit that it is driven toward (R125). -/
theorem Rr.setFlim_active (inactive : rr.flim = false) :
    rr.setFlim true = match rr.focus with
      | .stopped => { rr with flim := true }
      | .inward => { rr with flim := true, focus := .stopped, escapeWatch := none, limitSide := .inward }
      | .outward => { rr with flim := true, focus := .stopped, escapeWatch := none, limitSide := .outward } := by
  cases focus : rr.focus <;> simp [Rr.setFlim, Rr.limitReached, Rr.stopFocus, Focus.side, inactive, focus]

theorem Rr.setFlim_inactive (active : rr.flim = true) :
    rr.setFlim false = { rr with flim := false, limitSide := .unknown, escapeWatch := none } := by
  simp [Rr.setFlim, active]

theorem Rr.escapeExpiry_rest (rest : rr.escapeWatch ≠ some 0 ∨ rr.focus = .stopped) : rr.escapeExpiry = rr := by
  refine if_neg ?_
  rintro ⟨due, drives⟩
  exact rest.elim (fun running => running (by simpa [Timer.due] using due)) drives

/-- A drive that has not left the limit when the watch expires has reached the end it is driven toward (R125). -/
theorem Rr.escapeExpiry_due (due : rr.escapeWatch = some 0) (drives : rr.focus ≠ .stopped) :
    rr.escapeExpiry = { rr with focus := .stopped, escapeWatch := none,
                                limitSide := if rr.focus = .inward then .inward else .outward } := by
  rw [Rr.escapeExpiry, if_pos ⟨by simp [Timer.due, due], drives⟩]
  cases focus : rr.focus with
  | stopped => exact absurd focus drives
  | inward => simp [Rr.limitReached, Rr.stopFocus, Focus.side, focus]
  | outward => simp [Rr.limitReached, Rr.stopFocus, Focus.side, focus]

end

/-! ### O35 -/

/-- Settles O35, by the operands of REMOTE_SETUP, the edge of FLIM and the escape watch. -/
theorem remoteSetupAndFocus : Obligations.RemoteSetupAndFocus := by
  refine ⟨fun unit enable s ready => ⟨_, rfl, fun bad => ?_, fun small flag => ?_⟩, fun s calm =>
    ⟨fun active => ⟨_, rfl, ?standing, ?rises, ?falls⟩, _, rfl, fun rest => ?_, fun due drives => ?_⟩⟩
  · exact (remoteSetup_answered ready (Rr.setup_refused bad) (.inl rfl)).2
  · exact remoteSetup_answered ready (Rr.setup_done small flag) (.inr (by simp))
  case standing =>
    rintro rfl
    exact remote_command_nothing calm rfl ⟨Rr.setFlim_standing, rfl, rfl⟩
  case rises =>
    rintro rfl inactive
    exact remote_command calm rfl ⟨Rr.setFlim_active inactive, rfl, rfl⟩
  case falls =>
    rintro rfl active
    exact remote_command calm rfl ⟨Rr.setFlim_inactive active, rfl, rfl⟩
  · exact remote_command_nothing calm rfl ⟨Rr.escapeExpiry_rest rest, rfl, rfl⟩
  · exact remote_command calm rfl ⟨Rr.escapeExpiry_due due drives, rfl, rfl⟩

end Sys2Proof.Machine
end

section
/-! ## A press consumed by the show (06): its slide change is granted, and a record that follows at once may preempt it -/

namespace Sys2Proof.Machine

open Sys2Proof.Safety

/-- An AWAIT_KEY of key 4 with a GOTO of slot 20, and record 4 as its NEXT. -/
def keyThenChange : List Byte := [0x13, 4, 0, 0, 20, 0, 0xFF, 0xFF, 0, 0, 0, 0, 4, 0, 5, 0]

/-- A DELAY of no time with RUN_TRIGGER of channel 1 as its extra action. -/
def triggerAtOnce : List Byte := [0x01, 0, 0, 0, 0, 0, 0xFF, 0xFF, 0, 0, 4, 1, 5, 0, 6, 0]

/-- A frame of key 4 is complete, and the show waits for that key with the DELAY staged behind the await. The mechanism is
READY at slot 12 of 80, run channel 1 stands unmasked at slot 40, and the RUN source has a lower level than the CUE source. -/
def runBehindCue : State :=
  { State.reset with
    tmc := { Tmc.reset with
      tcode := 1, state := .ready, n := 80, p := 12, homed := true, display := 0x012, gate := .loaded }
    ca := { Ca.reset with levels := { Ca.reset.levels with run := 0 } }
    rcu := { Rcu.reset with
      channels := { Rcu.reset.channels with c1 := { Channel.cleared with slot := 40, mask := false } } }
    ce := { Ce.reset with
      showState := .running, phase := .waiting, index := 3, clock := 10
      queue := [⟨3, keyThenChange, true, .sequential⟩, ⟨4, triggerAtOnce, true, .next⟩] }
    rr := { Rr.reset with
      receiver := .space [false, false, false, false, false, false, true, false, false, false, true, false]
      frameEnd := some 0 } }

/-- The await's slide change is one that is granted at once. -/
theorem runBehindCue_grants : Grants { runBehindCue with ce := resolved runBehindCue.ce keyThenChange false } where
  slide := rfl
  marker := rfl
  slots := by intro source; cases source <;> rfl
  unmasked := rfl
  free := ⟨rfl, rfl, rfl, show (80 : Nat) ≠ 0 by decide⟩
  uncut := .inl rfl
  inTray := by
    intro slot change
    obtain rfl : 20 = slot := OpKind.changeTo.inj change
    decide
  moves := fun here => absurd here.2.1 (by decide)
  trigger := fun trigger => absurd trigger (by decide)

/-- The DELAY is due as soon as it is current, and the channel's change preempts the CUE source's in DARKEN. -/
theorem runBehindCue_preempts :
    (runBehindCue.carry State.completeFrame).tmc.op = some ⟨.changeTo 40, .run, 0⟩ := by decide

/-- Refutes O33: of a consumed press whose slide change is granted at once the statement says, whatever record follows, that
the change is the mechanism's operation at the end of the command. The await passes on in the same command, and a DELAY
staged behind it that is due at once may trigger a run channel (R152, R172 to R174, R176). Where the RUN source has the
lower level, the channel's request preempts the change just granted (R22, R141, R142). The clause on the mechanism lacks
the condition that no record behind the await issues an action in the same command. -/
theorem not_remoteFrame : ¬ Obligations.RemoteFrame := by
  intro h
  obtain ⟨t, runs, -, frames⟩ := h runBehindCue rfl
  obtain ⟨-, good⟩ := frames _ rfl _ rfl 4 rfl false rfl 0 rfl true (by decide)
  obtain ⟨-, -, -, consumed, -⟩ := good (by decide)
  obtain ⟨-, -, -, granted⟩ := consumed rfl rfl keyThenChange rfl rfl
  obtain ⟨service, -⟩ := granted runBehindCue_grants _ rfl
  obtain rfl : t = runBehindCue.run State.completeFrame := (Host.Outcome.next.inj runs).symm
  rw [State.run, State.settle_tmc, runBehindCue_preempts] at service
  exact absurd service (by decide)

end Sys2Proof.Machine
end

section
/-! ## Deposits and selections of any source (R130, R135 to R137, R141) -/

namespace Sys2Proof.Machine

open Sys2Proof.Safety

section

variable {u : State} {source : Source} {kind : OpKind} {r : Request}

/-! ### A deposit into an empty slot -/

/-- A slot filled and emptied again. -/
theorem Ca.fill_empty {ca : Ca} (empty : ca.slots.get source = none) : (ca.fill source kind).empty source = ca :=
  congrArg (fun slots => ({ ca with slots := slots } : Ca)) (PerSource.set_none_set empty _)

theorem Ca.fill_slot (ca : Ca) (source : Source) (kind : OpKind) :
    (ca.fill source kind).slots.get source = some ⟨kind, ca.levels.get source⟩ := by
  rw [Ca.fill, PerSource.get_set, if_pos rfl]

theorem Ca.fill_other {ca : Ca} {other : Source} (differs : other ≠ source) :
    (ca.fill source kind).slots.get other = ca.slots.get other := by
  rw [Ca.fill, PerSource.get_set, if_neg differs.symm]

/-- A deposit into an empty slot, up to what follows it (R130). -/
theorem StandsAt.fill {s : State} {events : List (Event × Half)} {queue : List Notice} (h : StandsAt u events queue s)
    (empty : u.ca.slots.get source = none) : ∃ k, StandsAt { u with ca := u.ca.fill source kind } events queue k ∧
      State.handle (.deposit source kind) s = k.afterDeposit source := by
  have waits : s.ca.slot source = none := by rw [h.ca]; exact empty
  refine ⟨s.putCa (s.ca.fill source kind, [.dirty 6]), ?_, by simp [State.handle, State.deposit, Ca.accept, waits]⟩
  rw [h.ca]
  simpa using h.putCa (u.ca.fill source kind, [.dirty 6])

/-- A deposit that leads neither to a selection's act nor to a preemption stays in its slot (R130, R141). -/
theorem handled_deposit_stays (empty : u.ca.slots.get source = none)
    (stays : ∀ k : State, k.tmc = u.tmc → k.cu = u.cu → k.ca = u.ca.fill source kind → k.afterDeposit source = k) :
    Handled (.deposit source kind) u { u with ca := u.ca.fill source kind } [] [] := by
  intro s before queue h
  obtain ⟨k, stands, shape⟩ := h.fill (kind := kind) empty
  rw [shape, stays k stands.tmc stands.cu stands.ca]
  simpa using stands

/-- A deposit at a free mechanism leads to a selection (R130). -/
theorem handled_deposit_selects {u' : State} {events : List (Event × Half)} {made : List Notice}
    (empty : u.ca.slots.get source = none) (available : u.tmc.available = true) (idle : u.ca.inService = none)
    (selects : Handled .select { u with ca := u.ca.fill source kind } u' events made) :
    Handled (.deposit source kind) u u' events made := by
  intro s before queue h
  obtain ⟨k, stands, shape⟩ := h.fill (kind := kind) empty
  have free : k.mechanismFree = true := by
    rw [State.mechanismFree, stands.tmc, stands.ca, available]
    simp [Ca.fill, idle]
  rw [shape, State.afterDeposit, if_pos free]
  exact selects k before queue stands

/-! ### What stays in its slot -/

/-- A JAMMED mechanism is neither free nor preemptible (R4, R22). -/
theorem afterDeposit_jammed {k : State} (jammed : k.tmc.state = .jammed) (source : Source) : k.afterDeposit source = k := by
  have busy : k.mechanismFree ≠ true := by simp [State.mechanismFree, Tmc.available, jammed]
  have firm (r : Request) : k.preempts source r = false := by
    unfold State.preempts
    split <;> simp [Tmc.preemptible, jammed]
  rw [State.afterDeposit, if_neg busy]
  split <;> simp [firm]

/-- The only record that waits, of a masked source, is neither chosen nor preempts (R135, R141). -/
theorem afterDeposit_masked {k : State} (masked : k.ca.masks.get source = true)
    (alone : ∀ other, other ≠ source → k.ca.slots.get other = none) : k.afterDeposit source = k := by
  have nobody : k.ca.best? = none := Ca.best?_none.mpr fun other => by
    by_cases same : other = source
    · exact .inl (same ▸ masked)
    · exact .inr (alone other same)
  have firm (r : Request) : k.preempts source r = false := by
    unfold State.preempts
    split <;> simp [masked]
  unfold State.afterDeposit
  split
  · simp [State.select, State.selectLoop, nobody]
  · split <;> simp [firm]

/-- A record of no lower level than the operation in service waits (R141). -/
theorem afterDeposit_level {k : State} {old : Operation} (service : k.ca.inService = some old)
    (waits : k.ca.slots.get source = some r) (level : old.level ≤ r.level) : k.afterDeposit source = k := by
  have busy : k.mechanismFree ≠ true := by simp [State.mechanismFree, service]
  have firm : k.preempts source r = false := by simp [State.preempts, service, BitVec.not_lt.mpr level]
  rw [State.afterDeposit, if_neg busy, Ca.slot, waits]
  simp [firm]

/-! ### A record that a selection refuses -/

/-- A selection at a free mechanism whose only choice is refused: the slot empties, and the source is told (R137, R140). -/
theorem handled_select_refuses (available : u.tmc.available = true) (idle : u.ca.inService = none)
    (openArbiter : u.arbiterOpen = true) (best : u.ca.best? = some (source, r)) {result : OpOutcome}
    (refused : u.tmc.refusal? r.kind = some result) (last : (u.ca.empty source).best? = none) :
    Handled .select u { u with ca := u.ca.empty source } [(.requestsDiscarded, argPair result.number source.bit)]
      (deliverNotice source result ++ slotEmptyNotice source) := by
  intro s before queue h
  have shape : State.handle .select s = s.refuse source result := by
    have free : (s.mechanismFree && s.arbiterOpen) = true := by
      simp only [State.mechanismFree, State.arbiterOpen, h.tmc, h.ca, h.cu]
      simpa [available, idle, State.arbiterOpen] using openArbiter
    have done : (s.refuse source result).ca.best? = none := by simpa [State.refuse, h.ca] using last
    simp only [State.handle, State.select, if_pos free, State.selectLoop, h.ca, best, h.tmc, refused, done]
  have put := h.putCa (s.ca.empty source,
    deliverNotice source result ++ [discardedLog result source.bit, .dirty 6] ++ slotEmptyNotice source)
  rw [shape, State.refuse]
  rw [h.ca] at put ⊢
  cases source <;> exact put

/-! ### The only record that waits -/

/-- The record deposited is chosen where no other waits and its source is not masked (R135, R136). -/
theorem Ca.fill_best {ca : Ca} (empty : ∀ other, ca.slots.get other = none) (unmasked : ca.masks.get source = false) :
    (ca.fill source kind).best? = some (source, ⟨kind, ca.levels.get source⟩) :=
  Ca.best?_only (ca.fill_slot source kind) (fun other differs => (Ca.fill_other differs).trans (empty other)) unmasked

/-- The only record that waits, deposited at a free mechanism, is granted at once (R135, R136). -/
theorem handled_deposit_granted (available : u.tmc.available = true) (idle : u.ca.inService = none)
    (openArbiter : u.arbiterOpen = true) (unmasked : u.ca.masks.get source = false)
    (empty : ∀ other, u.ca.slots.get other = none) (allowed : u.tmc.refusal? kind = none)
    {op : Operation} (service : op = ⟨kind, source, u.ca.levels.get source⟩) :
    Handled (.deposit source kind) u
      { u with ca := { u.ca with inService := some op }, tmc := (u.tmc.begin op).1 }
      (loggedOf (u.tmc.begin op).2) (slotEmptyNotice source ++ queuedOf (u.tmc.begin op).2) := by
  subst service
  have grants := handled_select_grant (u := { u with ca := u.ca.fill source kind }) available idle openArbiter
    (Ca.fill_best empty unmasked) allowed
  simp only [Ca.fill_empty (empty source)] at grants
  exact handled_deposit_selects (empty source) available idle grants

/-- The only record that waits, deposited at a free mechanism that cannot take it, is refused at once (R137, R140). -/
theorem handled_deposit_refused (available : u.tmc.available = true) (idle : u.ca.inService = none)
    (openArbiter : u.arbiterOpen = true) (unmasked : u.ca.masks.get source = false)
    (empty : ∀ other, u.ca.slots.get other = none) {result : OpOutcome} (refused : u.tmc.refusal? kind = some result) :
    Handled (.deposit source kind) u u [(.requestsDiscarded, argPair result.number source.bit)]
      (deliverNotice source result ++ slotEmptyNotice source) := by
  have refuses := handled_select_refuses (u := { u with ca := u.ca.fill source kind }) available idle openArbiter
    (Ca.fill_best empty unmasked) refused (by rw [Ca.fill_empty (empty source)]; exact Ca.best?_empty empty)
  simp only [Ca.fill_empty (empty source)] at refuses
  exact handled_deposit_selects (empty source) available idle refuses

end

/-! ### What a selection refuses (R137) -/

section

variable {t : Tmc} {kind : OpKind}

theorem refusal_unhomed (unhomed : t.state = .unhomed) (change : changesSlide kind = true) :
    t.refusal? kind = some .refusedUnhomed := by
  cases kind with
  | changeTo slot => simp [Tmc.refusal?, unhomed]
  | moveBy k => simp [Tmc.refusal?, unhomed]
  | home => cases change
  | clearGate => cases change

/-- An UNHOMED mechanism takes what leaves the slide. -/
theorem refusal_still (unhomed : t.state = .unhomed) (still : changesSlide kind = false) : t.refusal? kind = none := by
  cases kind with
  | changeTo slot => cases still
  | moveBy k => cases still
  | home => simp [Tmc.refusal?, unhomed]
  | clearGate => simp [Tmc.refusal?, unhomed]

/-- A READY mechanism takes every request whose slot is in the tray. -/
theorem refusal_ready (state : t.state = .ready) (inside : ∀ slot, kind = .changeTo slot → slot ≤ t.n) :
    t.refusal? kind = none := by
  cases kind with
  | changeTo slot => simp [Tmc.refusal?, state, inside slot rfl]
  | moveBy k => simp [Tmc.refusal?, state]
  | home => simp [Tmc.refusal?, state]
  | clearGate => simp [Tmc.refusal?, state]

end

/-! ### What a grant asks of the lamp -/

/-- An operation that is not done at once asks the lamp to darken (R5, R7, R46). -/
theorem Tmc.begin_notices {t : Tmc} {op : Operation}
    (far : ¬ (changesSlide op.kind = true ∧ targetOf t op.kind = t.p ∧ t.gate = .loaded)) :
    (t.begin op).2 = [.darken t.outTime t.blackout] := by
  obtain ⟨kind, source, level⟩ := op
  cases kind
  case home => rfl
  case clearGate => rfl
  case changeTo slot =>
    have away : ¬ (slot = t.p ∧ t.gate = .loaded) := fun h => far ⟨rfl, h⟩
    simp [Tmc.begin, Tmc.resolve, Tmc.enterDarken, away]
  case moveBy k =>
    have away : ¬ (targetOf t (.moveBy k) = t.p ∧ t.gate = .loaded) := fun h => far ⟨rfl, h⟩
    simp only [targetOf] at away
    simp [Tmc.begin, Tmc.resolve, Tmc.enterDarken, away]

end Sys2Proof.Machine
end

section
/-! ## The request directives and the DIRECTIVE slot (R26, R130, R131) -/

namespace Sys2Proof.Machine

open Sys2Proof.Safety

/-! ### What the row of a request does -/

/-- The row of a request directive whose operands pass is a deposit of its kind (R26, R131). -/
theorem request_owner {c : Instr} {q : RequestRow} (row : requestOf c = some q) {s t : State} (run : exec c s = .next t)
    (slot : ∀ slot, q.kind = .changeTo slot → slot ≤ 120 ∧ (s.tmc.n = 0 ∨ slot ≤ s.tmc.n)) :
    ∃ owner : State → State × Result, t = s.run (State.takeRow q.code owner) ∧
      ∀ k : State, k.tmc = s.tmc → owner k = k.depositDirective q.kind q.result := by
  cases c with
  | home =>
    obtain rfl := Option.some.inj row
    exact ⟨dirHome, (Host.Outcome.next.inj run).symm, fun _ _ => rfl⟩
  | gotoSlot target =>
    obtain rfl := Option.some.inj row
    refine ⟨dirGotoSlot target, (Host.Outcome.next.inj run).symm, fun k tray => if_pos ?_⟩
    obtain ⟨small, inside⟩ := slot target.toNat rfl
    simpa [Tmc.slotAllowed, tray, small] using inside
  | moveBy step =>
    obtain rfl := Option.some.inj row
    refine ⟨dirMoveBy step, (Host.Outcome.next.inj run).symm, fun k _ => ?_⟩
    have clamped : (if clampStep step.toInt = step.toInt then Result.done else .clamped) =
        if step.toInt < -9 ∨ 9 < step.toInt then .clamped else .done := by
      unfold clampStep
      split <;> split <;> first | rfl | omega
    rw [dirMoveBy, clamped]
    rfl
  | clearGate =>
    obtain rfl := Option.some.inj row
    exact ⟨dirClearGate, (Host.Outcome.next.inj run).symm, fun _ _ => rfl⟩
  | _ => exact (Option.some_ne_none _ row.symm).elim

/-- A directive changes the decoder by its answer alone, whatever its notices lead to (R206, R207). -/
theorem row_answer {s u : State} (ready : Ready s) {code : Byte} {owner : State → State × Result} {result : Result}
    {events : List (Event × Half)} {made : List Notice}
    (acts : ∀ dd k before, StandsAt { s with dd := dd } before [] k →
      (owner k).2 = result ∧ StandsAt { u with dd := dd } (before ++ events) made (owner k).1) :
    (s.run (State.takeRow code owner)).dd.lastCode = code ∧
      (s.run (State.takeRow code owner)).dd.lastResult = result.number ∧
      (s.run (State.takeRow code owner)).dd.taken = s.dd.taken + 1 := by
  obtain ⟨dd, taken, stands⟩ := row_stands (code := code) ready acts
  rw [State.run_dd, stands.dd, ← taken]
  exact ⟨rfl, rfl, rfl⟩

section

variable {c : Instr} {q : RequestRow} {s t : State}

/-- A request that finds its slot occupied is turned away, and nothing else changes (R131). -/
theorem request_busy (row : requestOf c = some q) (run : exec c s = .next t) (ready : Ready s)
    (slot : ∀ slot, q.kind = .changeTo slot → slot ≤ 120 ∧ (s.tmc.n = 0 ∨ slot ≤ s.tmc.n))
    (busy : s.ca.slots.directive ≠ none) : Took q.code .refusedBusy s s [] t := by
  obtain ⟨owner, rfl, deposits⟩ := request_owner row run slot
  refine row_took (events := []) (made := []) ready (fun dd k before h => ?_) fun dd => .nil _ _
  have waits : (k.ca.slot .directive).isSome = true := by rw [h.ca]; exact Option.isSome_iff_ne_none.mpr busy
  rw [deposits k h.tmc, State.depositDirective, if_pos waits]
  exact ⟨rfl, by simpa using h⟩

/-- A request whose operands pass is answered with their result where its slot is empty (R131, R207). -/
theorem request_answer (row : requestOf c = some q) (run : exec c s = .next t) (ready : Ready s)
    (slot : ∀ slot, q.kind = .changeTo slot → slot ≤ 120 ∧ (s.tmc.n = 0 ∨ slot ≤ s.tmc.n))
    (empty : s.ca.slots.directive = none) :
    t.dd.lastCode = q.code ∧ t.dd.lastResult = q.result.number ∧ t.dd.taken = s.dd.taken + 1 := by
  obtain ⟨owner, rfl, deposits⟩ := request_owner row run slot
  refine row_answer (u := s) (events := []) (made := [.deposit .directive q.kind]) ready fun dd k before h => ?_
  have free : (k.ca.slot .directive).isSome = false := by rw [h.ca]; simp [Ca.slot, PerSource.get, empty]
  rw [deposits k h.tmc, State.depositDirective, if_neg (by simp [free])]
  exact ⟨rfl, h.post [.deposit .directive q.kind]⟩

/-- A request that stays in its slot (R130, R131). -/
theorem request_stays (row : requestOf c = some q) (run : exec c s = .next t) (ready : Ready s)
    (slot : ∀ slot, q.kind = .changeTo slot → slot ≤ 120 ∧ (s.tmc.n = 0 ∨ slot ≤ s.tmc.n))
    (empty : s.ca.slots.directive = none)
    (stays : ∀ k : State, k.tmc = s.tmc → k.cu = s.cu → k.ca = s.ca.fill .directive q.kind →
      k.afterDeposit .directive = k) :
    Took q.code q.result s { s with ca := s.ca.fill .directive q.kind } [] t :=
  request_took (u' := { s with ca := s.ca.fill .directive q.kind }) row run ready slot empty fun dd =>
    .cons (handled_deposit_stays (u := { s with dd := dd }) (source := .directive) empty stays) (.nil _ _)

end

/-- Line 6 shows a record in the DIRECTIVE slot as bit 0 of the pending set (R201). -/
theorem line6_directive {t : State} (waits : t.ca.slots.directive ≠ none) :
    ((t.lineData 6).getD 3 0).getLsbD 0 = true := by
  have set : ∀ a b c d : Bool, (byteOf (PerSource.byte ⟨true, a, b, c, d⟩)).getLsbD 0 = true := by decide
  have here : t.ca.slots.directive.isSome = true := Option.isSome_iff_ne_none.mpr waits
  have shape : (t.lineData 6).getD 3 0 = byteOf (PerSource.byte ⟨t.ca.slots.directive.isSome, t.ca.slots.cue.isSome,
    t.ca.slots.remote.isSome, t.ca.slots.tape.isSome, t.ca.slots.run.isSome⟩) := rfl
  rw [shape, here, set]

/-! ### O8 -/

/-- What leaves a request of the directive source in its slot: cutoff closes the arbiter, the mechanism is JAMMED, the source is
masked with no other record pending, or an operation of no higher level number is in service (R135, R141). -/
def DirectiveStays (s : State) : Prop :=
  (s.cu.flag = true ∧ s.cu.traySel ≠ .ignore) ∨ s.tmc.state = .jammed ∨
    (s.ca.masks.directive = true ∧ ∀ source, s.ca.slots.get source = none) ∨
    (∃ old, s.ca.inService = some old ∧ old.level ≤ s.ca.levels.directive)

/-- What follows such a deposit changes nothing. -/
theorem DirectiveStays.afterDeposit {s k : State} {kind : OpKind} (h : DirectiveStays s) (tmc : k.tmc = s.tmc)
    (cu : k.cu = s.cu) (ca : k.ca = s.ca.fill .directive kind) : k.afterDeposit .directive = k := by
  rcases h with ⟨flag, held⟩ | jammed | ⟨masked, empty⟩ | ⟨old, service, level⟩
  · exact afterDeposit_closed (by simp [State.arbiterOpen, cu, flag, held]) .directive
  · exact afterDeposit_jammed (by rw [tmc]; exact jammed) .directive
  · exact afterDeposit_masked (by rw [ca]; exact masked) fun other differs => by
      rw [ca, Ca.fill_other differs]
      exact empty other
  · exact afterDeposit_level (by rw [ca]; exact service) (by rw [ca]; exact Ca.fill_slot _ _ _) level

section

variable {c : Instr} {q : RequestRow} {s t : State}

/-- A request that a free mechanism cannot take is refused at once (R137, R140). -/
theorem request_refused (row : requestOf c = some q) (run : exec c s = .next t) (ready : Ready s)
    (slot : ∀ slot, q.kind = .changeTo slot → slot ≤ 120 ∧ (s.tmc.n = 0 ∨ slot ≤ s.tmc.n))
    (available : s.tmc.available = true) (idle : s.ca.inService = none) (openArbiter : s.arbiterOpen = true)
    (unmasked : s.ca.masks.directive = false) (empty : ∀ source, s.ca.slots.get source = none) {result : OpOutcome}
    (refused : s.tmc.refusal? q.kind = some result) :
    Took q.code q.result s s [(.requestsDiscarded, argPair result.number 1)] t :=
  request_took (u' := s) row run ready slot (empty .directive) fun dd =>
    .cons (handled_deposit_refused (u := { s with dd := dd }) (source := .directive) available idle openArbiter unmasked empty
      refused) (.nil _ _)

/-- A request that a free mechanism takes, and that is not done at once, is granted (R135, R136). -/
theorem request_granted (row : requestOf c = some q) (run : exec c s = .next t) (ready : Ready s)
    (slot : ∀ slot, q.kind = .changeTo slot → slot ≤ 120 ∧ (s.tmc.n = 0 ∨ slot ≤ s.tmc.n))
    (available : s.tmc.available = true) (idle : s.ca.inService = none) (openArbiter : s.arbiterOpen = true)
    (unmasked : s.ca.masks.directive = false) (empty : ∀ source, s.ca.slots.get source = none)
    (allowed : s.tmc.refusal? q.kind = none)
    (far : ¬ (changesSlide q.kind = true ∧ targetOf s.tmc q.kind = s.tmc.p ∧ s.tmc.gate = .loaded))
    {op : Operation} (service : op = ⟨q.kind, .directive, s.ca.levels.directive⟩) :
    Took q.code q.result s { s with
      ca := { s.ca with inService := some op }, tmc := (s.tmc.begin op).1
      lc := s.lc.takeDarken s.tmc.outTime s.tmc.blackout } [] t := by
  have notices : (s.tmc.begin op).2 = [.darken s.tmc.outTime s.tmc.blackout] := Tmc.begin_notices (by rw [service]; exact far)
  have granted (dd : Dd) := handled_deposit_granted (u := { s with dd := dd }) (source := .directive) available idle
    openArbiter unmasked empty allowed service
  simp only [notices] at granted
  exact request_took (u' := { s with
      ca := { s.ca with inService := some op }, tmc := (s.tmc.begin op).1
      lc := s.lc.takeDarken s.tmc.outTime s.tmc.blackout }) row run ready slot (empty .directive) fun dd =>
    .cons (granted dd) (.cons (handled_darken _ _ _) (.nil _ _))

end

/-- Settles O8: a bad slot, an occupied slot, a request that stays in its slot, and one that a free mechanism takes or
refuses. -/
theorem requestsRefused : Obligations.RequestsRefused := by
  intro s ready
  have turned {c : Instr} {q : RequestRow} (row : requestOf c = some q)
      (slot : ∀ slot, q.kind = .changeTo slot → slot ≤ 120 ∧ (s.tmc.n = 0 ∨ slot ≤ s.tmc.n))
      (busy : s.ca.slots.directive ≠ none) : ∃ t, exec c s = .next t ∧ Answered q.code .refusedBusy [] [] s t := by
    obtain ⟨t, run⟩ := request_runs row s
    exact ⟨t, run, (request_busy row run ready slot busy).answered rfl fun p _ => by cases p <;> simp [Part.same]⟩
  refine ⟨fun slot bad => ?_, fun busy => ⟨?_, ?_, fun step => ?_, fun slot small inside => ?_⟩, fun c q row slot => ?_⟩
  case refine_1 =>
    have barred : s.tmc.slotAllowed slot.toNat = false := by
      simp only [Tmc.slotAllowed, Bool.and_eq_false_iff, Bool.or_eq_false_iff, decide_eq_false_iff_not, beq_eq_false_iff_ne]
      omega
    have took : Took 0x11 .badOperand s s [] (s.run (State.takeRow 0x11 (dirGotoSlot slot))) :=
      row_took (events := []) (made := []) ready (fun dd k before h => by
        rw [dirGotoSlot, h.tmc, if_neg (by simp [barred])]
        exact ⟨rfl, by simpa using h⟩) fun dd => .nil _ _
    exact ⟨_, rfl, took.answered rfl fun p _ => by cases p <;> simp [Part.same]⟩
  case refine_2 => exact turned (c := .home) rfl nofun busy
  case refine_3 => exact turned (c := .clearGate) rfl nofun busy
  case refine_4 => exact turned (c := .moveBy step) rfl nofun busy
  case refine_5 => exact turned (c := .gotoSlot slot) rfl (fun _ kind => by cases kind; exact ⟨small, inside⟩) busy
  case refine_6 =>
    obtain ⟨t, run⟩ := request_runs row s
    refine ⟨t, run, ?_⟩
    by_cases busy : s.ca.slots.directive = none
    · obtain ⟨code, result, taken⟩ := request_answer row run ready slot busy
      refine ⟨code, taken, fun _ => result, fun occupied => absurd busy occupied, fun _ stays => ?_,
        fun empty idle unmasked cutoff => ⟨fun bare => ?_, fun unhomed change => ?_, fun takes => ?_⟩⟩
      · have took := request_stays row run ready slot busy fun k tmc cu ca => DirectiveStays.afterDeposit stays tmc cu ca
        refine ⟨took.ca, line6_directive (by rw [took.ca]; exact Option.some_ne_none _), took.answered rfl fun p hp => ?_⟩
        cases p <;> simp [Part.same] at hp ⊢
      · have took := request_refused row run ready slot (by simp [Tmc.available, bare]) idle (arbiterOpen_iff.mpr cutoff)
          unmasked empty (result := .refusedNoTray) (by simp [Tmc.refusal?, bare])
        exact ⟨took.ca, took.answered rfl fun p _ => by cases p <;> simp [Part.same]⟩
      · have took := request_refused row run ready slot (by simp [Tmc.available, unhomed]) idle (arbiterOpen_iff.mpr cutoff)
          unmasked empty (result := .refusedUnhomed) (refusal_unhomed unhomed change)
        exact ⟨took.ca, took.answered rfl fun p _ => by cases p <;> simp [Part.same]⟩
      · obtain ⟨available, allowed, far⟩ : s.tmc.available = true ∧ s.tmc.refusal? q.kind = none ∧
            ¬ (changesSlide q.kind = true ∧ targetOf s.tmc q.kind = s.tmc.p ∧ s.tmc.gate = .loaded) := by
          rcases takes with ⟨unhomed, still⟩ | ⟨state, tray, far⟩
          · exact ⟨by simp [Tmc.available, unhomed], refusal_still unhomed still, by simp [still]⟩
          · exact ⟨by simp [Tmc.available, state],
              refusal_ready state fun target kind => ((slot target kind).2).resolve_left tray, far⟩
        have took := request_granted row run ready slot available idle (arbiterOpen_iff.mpr cutoff) unmasked empty allowed
          far rfl
        refine ⟨took.ca, took.answered rfl fun p hp => ?_⟩
        cases p <;> simp [Part.same] at hp ⊢
    · have took := request_busy row run ready slot busy
      have answered : Answered q.code .refusedBusy [] [] s t := took.answered rfl fun p _ => by cases p <;> simp [Part.same]
      obtain ⟨_, code, result, taken, _⟩ := answered
      refine ⟨code, taken, fun empty => absurd empty busy, fun _ => ⟨result, took.ca, line6_directive ?_⟩,
        fun empty => absurd empty busy, fun empty => absurd (empty .directive) busy⟩
      rw [took.ca]
      exact busy

end Sys2Proof.Machine
end

section
/-! ## ARB_LEVELS and ARB_MASK (R134, R135) -/

namespace Sys2Proof.Machine

open Sys2Proof.Safety

/-! ### ARB_LEVELS -/

theorem PerSource.get_map {α β : Type} (f : PerSource α) (g : Source → α → β) (source : Source) :
    (f.map g).get source = g source (f.get source) := by cases source <;> rfl

/-- A two-bit field of an operand byte (R134). -/
theorem extractLsb'_two (b : Byte) (n : Nat) : b.extractLsb' n 2 = BitVec.ofNat 2 (b.toNat / 2 ^ n) := by
  refine BitVec.eq_of_toNat_eq ?_
  rw [BitVec.extractLsb'_toNat, BitVec.toNat_ofNat, Nat.shiftRight_eq_div_pow]

/-- The levels of the operand bytes, field by field (R134). -/
theorem levelsOf_eq (b0 b1 : Byte) : levelsOf b0 b1 = ⟨b0.extractLsb' 0 2, b0.extractLsb' 2 2, b0.extractLsb' 4 2,
    b0.extractLsb' 6 2, b1.extractLsb' 0 2⟩ := by
  simp [levelsOf, extractLsb'_two]

/-- The arbiter under these levels, with the pending records restamped (R134). -/
def Ca.restamped (ca : Ca) (levels : PerSource (BitVec 2)) : Ca :=
  { ca with levels := levels, slots := ca.slots.map fun source r => r.map fun q => { q with level := levels.get source } }

theorem Ca.setLevels_done {b1 : Byte} (small : b1.toNat < 4) (ca : Ca) (b0 : Byte) :
    ca.setLevels b0 b1 = (ca.restamped (levelsOf b0 b1), .done) := if_neg (Nat.not_le.mpr small)

theorem Ca.setLevels_bad {b1 : Byte} (large : 4 ≤ b1.toNat) (ca : Ca) (b0 : Byte) :
    ca.setLevels b0 b1 = (ca, .badOperand) := if_pos large

/-- What ARB_LEVELS does (R134). -/
theorem arbLevels_effect (b0 b1 : Byte) {s : State} (ready : Ready s) : ∃ t, exec (.arbLevels b0 b1) s = .next t ∧
    (4 ≤ b1.toNat → Answered 0x50 .badOperand [] [] s t) ∧
    (b1.toNat < 4 → t.ca = s.ca.restamped (levelsOf b0 b1) ∧ Answered 0x50 .done [.arbiter] [] s t) := by
  refine ⟨_, rfl, fun large => ?_, fun small => ?_⟩
  · have took := row_took_ca (code := 0x50) (owner := dirArbLevels b0 b1) (u' := s) ready (s.ca, [])
      (fun k same => by rw [dirArbLevels, same, Ca.setLevels_bad large]; rfl) fun dd => .nil _ _
    exact took.answered rfl fun p _ => by cases p <;> simp [Part.same]
  · have took := row_took_ca (code := 0x50) (owner := dirArbLevels b0 b1)
      (u' := { s with ca := s.ca.restamped (levelsOf b0 b1) }) ready (s.ca.restamped (levelsOf b0 b1), [.dirty 6])
      (fun k same => by rw [dirArbLevels, same, Ca.setLevels_done small]; rfl) fun dd => .nil _ _
    refine ⟨took.ca, took.answered rfl fun p hp => ?_⟩
    cases p <;> simp [Part.same] at hp ⊢

/-! ### ARB_MASK -/

theorem Ca.setMasks_bad {b : Byte} (large : 32 ≤ b.toNat) (ca : Ca) : ca.setMasks b = ((ca, []), .badOperand) :=
  if_pos large

/-- With no mask cleared there is no selection (R135). -/
theorem Ca.setMasks_kept {ca : Ca} {b : Byte} (small : b.toNat < 32)
    (kept : ∀ source, ca.masks.get source = true → (masksOf b).get source = true) :
    ca.setMasks b = (({ ca with masks := masksOf b }, []), .done) := by
  have still : ca.unmasks (masksOf b) = false := List.any_eq_false.mpr fun source _ => by
    cases masked : ca.masks.get source <;> simp [masked, kept source]
  simp [Ca.setMasks, Nat.not_le.mpr small, still]

/-- A selection changes nothing at a mechanism that is JAMMED, under a cutoff that closes the arbiter, or with nothing pending
(R135). -/
theorem handled_select_nothing {u : State}
    (h : u.tmc.state = .jammed ∨ u.arbiterOpen = false ∨ ∀ source, u.ca.slots.get source = none) :
    Handled .select u u [] [] := by
  rcases h with jammed | closed | empty
  · intro s before queue k
    have same : State.handle .select s = s := by
      simp [State.handle, State.select, State.mechanismFree, Tmc.available, k.tmc, jammed]
    simpa [same] using k
  · intro s before queue k
    have same : State.handle .select s = s :=
      select_closed s (by simpa [State.arbiterOpen, k.cu] using closed)
    simpa [same] using k
  · exact handled_select_idle empty

/-- ARB_MASK under which nothing is granted or refused sets the masks alone (R134, R135). -/
theorem arbMask_quiet {b : Byte} (small : b.toNat < 32) {s : State} (ready : Ready s)
    (quiet : (∀ source, s.ca.masks.get source = true → (masksOf b).get source = true) ∨
      s.tmc.state = .jammed ∨ s.arbiterOpen = false ∨ ∀ source, s.ca.slots.get source = none) :
    Took 0x51 .done s { s with ca := { s.ca with masks := masksOf b } } [] (s.run (State.takeRow 0x51 (dirArbMask b))) := by
  by_cases kept : ∀ source, s.ca.masks.get source = true → (masksOf b).get source = true
  · exact row_took_ca ready ({ s.ca with masks := masksOf b }, [])
      (fun k same => by rw [dirArbMask, same, Ca.setMasks_kept small kept]) fun dd => .nil _ _
  · have clears : ∃ source, s.ca.masks.get source = true ∧ (masksOf b).get source = false := by
      simpa using kept
    exact row_took_ca ready ({ s.ca with masks := masksOf b }, [.select])
      (fun k same => by rw [dirArbMask, same, setMasks_select small clears])
      fun dd => .cons (handled_select_nothing (by exact quiet.resolve_left kept)) (.nil _ _)

/-! ### O36 -/

/-- Settles O36: the levels, the masks, and the selection that ARB_MASK leads to at an empty tray well. -/
theorem arbiterSettings : Obligations.ArbiterSettings := by
  intro b0 b1 s ready
  refine ⟨?levels, ?masks⟩
  case levels =>
    obtain ⟨t, run, large, small⟩ := arbLevels_effect b0 b1 ready
    refine ⟨t, run, large, fun inside => ?_⟩
    obtain ⟨arbiter, answered⟩ := small inside
    rw [arbiter]
    exact ⟨levelsOf_eq b0 b1, fun source => PerSource.get_map _ _ source, rfl, rfl, answered⟩
  case masks =>
    rintro masks rfl
    refine ⟨_, rfl, fun large => ?_, fun small quiet => ?_, ?_⟩
    · have took := row_took_ca (code := 0x51) (owner := dirArbMask b0) (u' := s) ready (s.ca, [])
        (fun k same => by rw [dirArbMask, same, Ca.setMasks_bad large]) fun dd => .nil _ _
      exact took.answered rfl fun p _ => by cases p <;> simp [Part.same]
    · have closed : s.cu.flag = true ∧ s.cu.traySel ≠ .ignore → s.arbiterOpen = false := fun ⟨flag, held⟩ => by
        simp [State.arbiterOpen, flag, held]
      have took := arbMask_quiet small ready (quiet.imp_right (.imp_right (.imp_left closed)))
      refine ⟨took.ca, took.answered rfl fun p hp => ?_⟩
      cases p <;> simp [Part.same] at hp ⊢
    · rintro r waits rfl masked bare idle uncut only
      have alone : ∀ other, other ≠ Source.remote → s.ca.slots.get other = none := fun other differs => by
        rw [only]
        cases other <;> first | rfl | exact absurd rfl differs
      have best : Ca.best? { s.ca with masks := masksOf 0 } = some (.remote, r) :=
        Ca.best?_only waits alone (show (masksOf 0).remote = false by decide)
      have last : (Ca.empty { s.ca with masks := masksOf 0 } .remote).best? = none := Ca.best?_empty fun other => by
        simp only [Ca.empty, PerSource.get_set]
        split
        · rfl
        · next differs => exact alone other (Ne.symm differs)
      have took := row_took_ca (code := 0x51) (owner := dirArbMask 0)
        (u' := { s with ca := { s.ca with masks := masksOf 0, slots := s.ca.slots.set .remote none } }) ready
        ({ s.ca with masks := masksOf 0 }, [.select])
        (fun k same => by rw [dirArbMask, same, setMasks_select (by decide) ⟨.remote, masked, by decide⟩])
        fun dd => .cons (handled_select_refuses (u := { s with dd := dd, ca := { s.ca with masks := masksOf 0 } })
          (result := .refusedNoTray) (by simp [Tmc.available, bare]) idle (by simp [State.arbiterOpen, uncut]) best
          (by simp [Tmc.refusal?, bare]) last) (.nil _ _)
      refine ⟨took.ca, took.answered rfl fun p hp => ?_⟩
      cases p <;> simp [Part.same] at hp ⊢

end Sys2Proof.Machine
end

section
/-! ## The run channels: triggers, choices and presentations (08) -/

namespace Sys2Proof.Machine

open Sys2Proof.Safety

/-! ### Values per channel -/

section

variable {α : Type}

theorem channel_cases (c : BitVec 2) : c = 0 ∨ c = 1 ∨ c = 2 ∨ c = 3 := by revert c; decide

theorem PerChannel.get_set (f : PerChannel α) (c d : BitVec 2) (v : α) :
    (f.set c v).get d = if d = c then v else f.get d := by
  rcases channel_cases c with rfl | rfl | rfl | rfl <;> rcases channel_cases d with rfl | rfl | rfl | rfl <;> rfl

theorem PerChannel.set_set (f : PerChannel α) (c : BitVec 2) (v w : α) : (f.set c v).set c w = f.set c w := by
  rcases channel_cases c with rfl | rfl | rfl | rfl <;> rfl

theorem PerChannel.get_map {β : Type} (f : PerChannel α) (g : BitVec 2 → α → β) (c : BitVec 2) :
    (f.map g).get c = g c (f.get c) := by
  rcases channel_cases c with rfl | rfl | rfl | rfl <;> rfl

end

/-! ### Choices (R154, R155) -/

section

variable {u : Rcu} {c : BitVec 2}

/-- Every channel is looked at (R154). -/
theorem Rcu.mem_lookOrder (u : Rcu) (c : BitVec 2) : c ∈ u.lookOrder := by
  have all : ∀ p c : BitVec 2, c ∈ [p, p + 1, p + 2, p + 3] := by decide
  unfold Rcu.lookOrder
  split
  · exact all u.pointer c
  · exact all 0 c

/-- With a record of the RUN source pending there is no choice (R155). -/
theorem Rcu.choose_pending (waits : u.pendingMarker ≠ none) : u.choose = (u, []) :=
  if_pos (Option.isSome_iff_ne_none.mpr waits)

/-- A channel that asks for nothing is no candidate (R154). -/
theorem Rcu.candidate_quiet (quiet : (u.channels.get c).request = false) : u.candidate c = false := by
  simp [Rcu.candidate, quiet]

/-- Where no channel asks, none is presented (R154). -/
theorem Rcu.choose_quiet (quiet : ∀ c, (u.channels.get c).request = false) : u.choose = (u, []) :=
  Rcu.choose_none fun c => Rcu.candidate_quiet (quiet c)

/-- The only channel that asks is presented, unless it is masked (R154, R155). -/
theorem Rcu.choose_only (pending : u.pendingMarker = none) (service : u.serviceMarker = none)
    (asks : (u.channels.get c).request = true) (unmasked : (u.channels.get c).mask = false)
    (only : ∀ d, d ≠ c → (u.channels.get d).request = false) :
    u.choose = ({ u with pendingMarker := some ⟨c, false⟩ }, [.deposit .run (.changeTo (u.channels.get c).slot)]) := by
  have wins : u.candidate c = true := by simp [Rcu.candidate, Rcu.placed, RunMarker.names, asks, unmasked, pending, service]
  have found : u.lookOrder.find? u.candidate = some c := by
    cases look : u.lookOrder.find? u.candidate with
    | none => exact absurd wins (List.find?_eq_none.mp look c (u.mem_lookOrder c))
    | some d =>
      by_contra other
      have loses := Rcu.candidate_quiet (only d fun same => other (congrArg some same))
      have chosen := List.find?_some look
      rw [loses] at chosen
      cases chosen
  simp [Rcu.choose, pending, found]

end

/-! ### Triggers (R152) -/

/-- A channel that is triggered (R152, R153). -/
def Channel.triggered (k : Channel) : Channel :=
  { k with request := true, armed := k.armed || k.demand, dwellTimer := none }

section

variable {u : Rcu} {c : BitVec 2}

theorem Rcu.trigger_masked (masked : (u.channels.get c).mask = true) : u.trigger c = ((u, []), false) := if_pos masked

theorem Rcu.trigger_asking (unmasked : (u.channels.get c).mask = false) (asks : (u.channels.get c).request = true) :
    u.trigger c = ((u, []), true) := by
  simp [Rcu.trigger, unmasked, asks]

theorem Rcu.trigger_fresh (unmasked : (u.channels.get c).mask = false) (quiet : (u.channels.get c).request = false) :
    u.trigger c = ((u.modify c Channel.triggered).choose, true) := by
  simp only [Rcu.trigger, unmasked, quiet, Bool.false_eq_true, if_false]
  rfl

/-- The channels once the only channel that asks has been presented, `k` being its record (R155). -/
def Rcu.presenting (u : Rcu) (c : BitVec 2) (k : Channel) : Rcu :=
  { u with channels := u.channels.set c k, pendingMarker := some ⟨c, false⟩ }

/-- A channel that comes to ask, alone, is presented (R153 to R155). -/
theorem Rcu.modify_presents {f : Channel → Channel} (pending : u.pendingMarker = none) (service : u.serviceMarker = none)
    (quiet : ∀ d, (u.channels.get d).request = false) (asks : (f (u.channels.get c)).request = true)
    (unmasked : (f (u.channels.get c)).mask = false) : (u.modify c f).choose =
      (u.presenting c (f (u.channels.get c)), [.deposit .run (.changeTo (f (u.channels.get c)).slot)]) := by
  have here : (u.modify c f).channels.get c = f (u.channels.get c) := PerChannel.get_set_same _ _ _
  have chosen := Rcu.choose_only (u := u.modify c f) (c := c) pending service (by rw [here, asks]) (by rw [here, unmasked])
    fun d other => by rw [Rcu.modify, PerChannel.get_set, if_neg other]; exact quiet d
  rw [chosen, here]
  rfl

/-- Behind the channel presented no other waits. -/
theorem Rcu.presenting_noneWaits (quiet : ∀ d, (u.channels.get d).request = false) (k : Channel) :
    NoneWaits (u.presenting c k) := by
  intro d
  by_cases same : d = c
  · exact .inr (.inr (by rw [same]; rfl))
  · refine .inr (.inl ?_)
    rw [Rcu.presenting, PerChannel.get_set, if_neg same]
    exact quiet d

end

/-! ### Outcomes of a channel's record (R156, R159) -/

section

variable {u : State} {result : OpOutcome} {r : Reaction Rcu}

/-- An outcome reaches the channels alone (R138, R156). -/
theorem handled_deliver_run (taken : u.rcu.takeOutcome result u.tmc.n = r) :
    Handled (.deliver .run result) u { u with rcu := r.1 } (loggedOf r.2) (queuedOf r.2) := by
  intro s before queue h
  rw [State.handle, State.deliver, h.rcu, h.tmc, taken]
  exact h.putRcu r

/-- With no record of the RUN source and no channel to present, the emptied slot changes nothing (R155). -/
theorem handled_slotEmpty_run_idle (pending : u.rcu.pendingMarker = none) (idle : NoneWaits u.rcu) :
    Handled (.slotEmpty .run) u u [] [] := by
  intro s before queue h
  rw [State.handle, State.slotEmptied, h.rcu, Rcu.slotEmptied_idle idle, runMarkerMoved_other (.inr pending)]
  simpa using h.putRcu (u.rcu, [])

end

/-- The channels with this record for the one that was presented, which is no longer pending. -/
def Rcu.released (u : Rcu) (c : BitVec 2) (k : Channel) : Rcu :=
  { u with channels := u.channels.set c k, pendingMarker := none }

section

variable {u : Rcu} {c : BitVec 2} {k : Channel}

/-- The channel of a record beyond the tray (R159). -/
theorem Rcu.takeOutcome_outOfTray (n : Nat) : (u.presenting c k).takeOutcome .outOfTray n =
    (u.released c { k with request := false, range := true, mask := true, armed := false, dwellTimer := none },
      [.log .runRange (argPair c.toNat k.slot)]) := by
  simp [Rcu.takeOutcome, OpOutcome.ofPending, Rcu.settleMarker, Rcu.presenting, Rcu.apply, Rcu.modify, Rcu.released,
    Channel.disarm, PerChannel.get_set_same, PerChannel.set_set]

/-- The channel of a record that a mechanism without a homed tray refuses (R159). -/
theorem Rcu.takeOutcome_refused (refused : result = .refusedUnhomed ∨ result = .refusedNoTray) (n : Nat) :
    (u.presenting c k).takeOutcome result n =
      (u.released c { k with request := false, armed := false, dwellTimer := none }, []) := by
  rcases refused with rfl | rfl <;>
    simp [Rcu.takeOutcome, OpOutcome.ofPending, Rcu.settleMarker, Rcu.presenting, Rcu.apply, Rcu.modify, Rcu.released,
      Channel.disarm, PerChannel.get_set_same, PerChannel.set_set]

theorem Rcu.released_noneWaits (quiet : ∀ d, (u.channels.get d).request = false) (still : k.request = false) :
    NoneWaits (u.released c k) := by
  intro d
  refine .inr (.inl ?_)
  rw [Rcu.released, PerChannel.get_set]
  split
  · exact still
  · exact quiet d

end

/-! ### Where a presentation leads -/

section

variable {u : Rcu} {c : BitVec 2} {k : Channel}

/-- The channel presented, once its record is in service (R155). -/
theorem Rcu.presenting_moved (pending : u.pendingMarker = none) : runMarkerMoved (u.presenting c k) .run =
    { u with serviceMarker := some ⟨c, false⟩, pointer := if u.rotating then c + 1 else u.pointer,
             channels := u.channels.set c k } := by
  simp [runMarkerMoved, Rcu.presenting, pending]

theorem Rcu.released_eq (pending : u.pendingMarker = none) :
    u.released c k = { u with channels := u.channels.set c k } := by
  simp [Rcu.released, pending]

end

/-- A change that is not done at once darkens toward its slot, homed or not (R5, R7). -/
theorem Tmc.begin_change {t : Tmc} {op : Operation} {slot : Nat} (kind : op.kind = .changeTo slot)
    (far : ¬ (slot = t.p ∧ t.gate = .loaded)) : (t.begin op).1.op = some op ∧ (t.begin op).1.state = .darken ∧
      (t.begin op).1.darkenLimit = some 1000 ∧ (t.begin op).1.target = some slot := by
  simp [Tmc.begin, Tmc.resolve, Tmc.enterDarken, kind, far]

section

variable {s : State} {c : BitVec 2} {k : Channel}

/-- At a JAMMED mechanism the channel's record stays in its slot (R130, R141). -/
theorem leads_presented_jammed (jammed : s.tmc.state = .jammed) (empty : s.ca.slots.run = none) (slot fuel : Nat) :
    Leads (fuel + 1) s [.deposit .run (.changeTo slot)]
      { s with ca := { s.ca with slots := { s.ca.slots with run := some ⟨.changeTo slot, s.ca.levels.run⟩ } } } [] :=
  .cons (handled_deposit_stays (u := s) (source := .run) empty fun _ tmc _ _ => afterDeposit_jammed (by rw [tmc, jammed]) _)
    (.nil _ _)

/-- A mechanism that is free, with the arbiter open and no record pending. -/
structure FreeFor (s : State) (source : Source) : Prop where
  idle : s.ca.inService = none
  slots : ∀ other, s.ca.slots.get other = none
  unmasked : s.ca.masks.get source = false
  uncut : s.arbiterOpen = true

variable (free : FreeFor s .run)

include free

/-- At a READY mechanism the channel's record is granted, and its marker moves into service (R136, R155). -/
theorem leads_presented_granted (state : s.tmc.state = .ready) {slot : Nat} (inside : slot ≤ s.tmc.n)
    (far : ¬ (slot = s.tmc.p ∧ s.tmc.gate = .loaded)) (others : NoneWaits s.rcu) {op : Operation}
    (service : op = ⟨.changeTo slot, .run, s.ca.levels.run⟩) (fuel : Nat) :
    Leads (fuel + 3) s [.deposit .run (.changeTo slot)]
      { s with ca := { s.ca with inService := some op }, tmc := (s.tmc.begin op).1, rcu := runMarkerMoved s.rcu .run,
               lc := s.lc.takeDarken s.tmc.outTime s.tmc.blackout } [] := by
  have notices : (s.tmc.begin op).2 = [.darken s.tmc.outTime s.tmc.blackout] :=
    Tmc.begin_notices (by subst service; exact fun h => far h.2)
  have granted := handled_deposit_granted (source := .run) (by simp [Tmc.available, state]) free.idle free.uncut free.unmasked
    free.slots (refusal_ready (kind := .changeTo slot) state fun _ kind => by cases kind; exact inside) service
  simp only [notices] at granted
  exact .cons granted (leads_granted (u := { s with
      ca := { s.ca with inService := some op }, tmc := (s.tmc.begin op).1 }) (source := .run) nofun (fun _ => others)
    s.tmc.outTime s.tmc.blackout fuel)

/-- A record of the channel that the mechanism cannot take is refused: the channels take the outcome (R137, R140, R156). -/
theorem leads_presented_refused (available : s.tmc.available = true) {slot : Nat} {result : OpOutcome}
    (refused : s.tmc.refusal? (.changeTo slot) = some result) {rcu : Rcu} {events : List (Event × Half)} {ns : List Notice}
    (taken : s.rcu.takeOutcome result s.tmc.n = (rcu, ns)) (logged : loggedOf ns = events) (quiet : queuedOf ns = [])
    (pending : rcu.pendingMarker = none) (others : NoneWaits rcu) (fuel : Nat) :
    Leads (fuel + 3) s [.deposit .run (.changeTo slot)] { s with rcu := rcu }
      ((.requestsDiscarded, argPair result.number 16) :: events) := by
  have told := handled_deliver_run taken
  simp only [logged, quiet] at told
  have settled : Leads (fuel + 2) s [.deliver .run result, .slotEmpty .run] { s with rcu := rcu } (events ++ []) :=
    .cons told (.cons (handled_slotEmpty_run_idle (u := { s with rcu := rcu }) pending others) (.nil fuel _))
  rw [List.append_nil] at settled
  exact .cons (handled_deposit_refused (source := .run) available free.idle free.uncut free.unmasked free.slots refused) settled

end

end Sys2Proof.Machine
end

section
/-! ## RUN_MASK, RUN_TRIGGER and the dwell as commands (08) -/

namespace Sys2Proof.Machine

open Sys2Proof.Safety

/-- A directive of the channels. -/
theorem row_took_rcu {s u' : State} (ready : Ready s) {code : Byte} {owner : State → State × Result} {result : Result}
    (r : Reaction Rcu) {later : List (Event × Half)} (act : ∀ k : State, k.rcu = s.rcu → owner k = (k.putRcu r, result))
    (leads : ∀ dd, Leads Config.cascadeFuel { s with dd := dd, rcu := r.1 } (queuedOf r.2) { u' with dd := dd } later) :
    Took code result s u' (loggedOf r.2 ++ later) (s.run (State.takeRow code owner)) := by
  refine row_took (u := { s with rcu := r.1 }) ready (fun dd k before h => ?_) leads
  rw [act k h.rcu]
  exact ⟨rfl, h.putRcu r⟩

/-- A directive of the channels that makes no notice. -/
theorem row_rcu_answered {s : State} (ready : Ready s) {code : Byte} {owner : State → State × Result} {result : Result}
    (rcu : Rcu) (act : ∀ k : State, k.rcu = s.rcu → owner k = (k.putRcu (rcu, []), result)) :
    (s.run (State.takeRow code owner)).rcu = rcu ∧
      Answered code result [.channels] [] s (s.run (State.takeRow code owner)) ∧
      (rcu = s.rcu → Answered code result [] [] s (s.run (State.takeRow code owner))) := by
  have took := row_took_rcu (u' := { s with rcu := rcu }) (code := code) ready (rcu, []) act fun dd => .nil _ _
  refine ⟨took.rcu, took.answered rfl fun p hp => ?_, fun same => took.answered rfl fun p hp => ?_⟩
  · cases p <;> simp [Part.same] at hp ⊢
  · cases p <;> simp [Part.same, same]

/-! ### RUN_MASK (R151) -/

/-- The channels under RUN_MASK. -/
def Rcu.masked (u : Rcu) (select values : Byte) : Rcu :=
  { u with channels := u.channels.map fun c k => k.maskTo (bitOf select c.toNat) (bitOf values c.toNat) }

theorem Channel.maskTo_request (k : Channel) (selected value : Bool) : (k.maskTo selected value).request = k.request := by
  unfold Channel.maskTo
  (repeat' split) <;> rfl

theorem Rcu.setMasks_bad {u : Rcu} {select values : Byte} (bad : 16 ≤ select.toNat ∨ 16 ≤ values.toNat) :
    u.setMasks select values = ((u, []), .badOperand) := if_pos bad

/-- RUN_MASK with nothing to present (R151, R154). -/
theorem Rcu.setMasks_quiet {u : Rcu} {select values : Byte} (select_small : select.toNat < 16) (values_small : values.toNat < 16)
    (quiet : u.pendingMarker ≠ none ∨ ∀ c, (u.channels.get c).request = false) :
    u.setMasks select values = ((u.masked select values, []), .done) := by
  have still : (u.masked select values).choose = (u.masked select values, []) := by
    rcases quiet with waits | quiet
    · exact Rcu.choose_pending waits
    · refine Rcu.choose_quiet fun c => ?_
      rw [Rcu.masked, PerChannel.get_map, Channel.maskTo_request, quiet c]
  have small : ¬ (16 ≤ select.toNat ∨ 16 ≤ values.toNat) := by omega
  rw [Rcu.setMasks, if_neg small]
  exact congrArg (·, Result.done) still

/-! ### The dwell (R153) -/

/-- A channel whose dwell ends asks again. -/
def Channel.dwelled (k : Channel) : Channel := { k with request := true, dwellTimer := none }

theorem Rcu.dwellExpiry_due {u : Rcu} {c : BitVec 2} (due : (u.channels.get c).dwellTimer = some 0) :
    u.dwellExpiry c = (u.modify c Channel.dwelled).choose := if_pos (by simp [Timer.due, due])

/-- A command of the channels that makes no notice. -/
theorem rcu_command {s : State} (calm : s.notices = []) (rcu : Rcu) {f : State → State} (act : f s = s.putRcu (rcu, [])) :
    (s.run f).rcu = rcu ∧ Effect [.channels] [] s (s.run f) ∧ (rcu = s.rcu → Effect [] [] s (s.run f)) := by
  have stands := (StandsAt.refl calm).putRcu (rcu, [])
  rw [← act] at stands
  have ran := run_ran_quiet stands
  refine ⟨ran.rcu, ran.effect rfl fun p hp => ?_, fun same => ran.effect rfl fun p hp => ?_⟩
  · cases p <;> simp [Part.same] at hp ⊢
  · cases p <;> simp [Part.same, same]

/-! ### O40 -/

section

variable {s : State} {c : BitVec 2}

/-- RUN_TRIGGER of the only channel that asks presents it (R152, R154, R155). -/
theorem runTrigger_presents (ready : Ready s) {channel : Byte} (small : channel.toNat ≤ 3)
    (named : c = BitVec.ofNat 2 channel.toNat) (unmasked : (s.rcu.channels.get c).mask = false)
    (quiet : ∀ d, (s.rcu.channels.get d).request = false) (pending : s.rcu.pendingMarker = none)
    (service : s.rcu.serviceMarker = none) {u' : State} {later : List (Event × Half)}
    (leads : ∀ dd, Leads Config.cascadeFuel
      { s with dd := dd, rcu := s.rcu.presenting c (s.rcu.channels.get c).triggered }
      [.deposit .run (.changeTo (s.rcu.channels.get c).slot)] { u' with dd := dd } later) :
    Took 0x62 .done s u' later (s.run (State.takeRow 0x62 (dirRunTrigger channel))) := by
  have triggered : s.rcu.triggerDirective channel =
      ((s.rcu.presenting c (s.rcu.channels.get c).triggered, [.deposit .run (.changeTo (s.rcu.channels.get c).slot)]),
        .done) := by
    rw [Rcu.triggerDirective, if_neg (by omega), ← named, Rcu.trigger_fresh unmasked (quiet c),
      Rcu.modify_presents pending service quiet rfl unmasked]
    rfl
  exact row_took_rcu ready (s.rcu.presenting c (s.rcu.channels.get c).triggered,
    [.deposit .run (.changeTo (s.rcu.channels.get c).slot)]) (fun k same => by rw [dirRunTrigger, same, triggered]) leads

/-- What RUN_TRIGGER does where it presents nothing (R152). -/
theorem runTrigger_answered (ready : Ready s) {channel : Byte} {r : Rcu} {result : Result}
    (triggered : s.rcu.triggerDirective channel = ((r, []), result)) :
    (s.run (State.takeRow 0x62 (dirRunTrigger channel))).rcu = r ∧
      Answered 0x62 result [.channels] [] s (s.run (State.takeRow 0x62 (dirRunTrigger channel))) ∧
      (r = s.rcu → Answered 0x62 result [] [] s (s.run (State.takeRow 0x62 (dirRunTrigger channel)))) :=
  row_rcu_answered ready r fun k same => by rw [dirRunTrigger, same, triggered]

section

variable (ready : Ready s) {channel : Byte} (small : channel.toNat ≤ 3) (named : c = BitVec.ofNat 2 channel.toNat)
  (unmasked : (s.rcu.channels.get c).mask = false) (quiet : ∀ d, (s.rcu.channels.get d).request = false)
  (pending : s.rcu.pendingMarker = none) (service : s.rcu.serviceMarker = none) (free : FreeFor s .run)

include ready small named unmasked quiet pending service free

/-- A READY mechanism takes the channel's change at once (R136, R155). -/
theorem runTrigger_granted (state : s.tmc.state = .ready) (inside : (s.rcu.channels.get c).slot ≤ s.tmc.n)
    (far : ¬ ((s.rcu.channels.get c).slot = s.tmc.p ∧ s.tmc.gate = .loaded)) {op : Operation}
    (new : op = ⟨.changeTo (s.rcu.channels.get c).slot, .run, s.ca.levels.run⟩) :
    Took 0x62 .done s
      { s with ca := { s.ca with inService := some op }, tmc := (s.tmc.begin op).1
               rcu := runMarkerMoved (s.rcu.presenting c (s.rcu.channels.get c).triggered) .run
               lc := s.lc.takeDarken s.tmc.outTime s.tmc.blackout } []
      (s.run (State.takeRow 0x62 (dirRunTrigger channel))) :=
  runTrigger_presents ready small named unmasked quiet pending service fun dd =>
    leads_presented_granted (s := { s with dd := dd, rcu := s.rcu.presenting c (s.rcu.channels.get c).triggered })
      ⟨free.idle, free.slots, free.unmasked, free.uncut⟩ state inside far (Rcu.presenting_noneWaits quiet _) new 509

/-- The channel's change is refused: the channel takes the outcome (R137, R140, R156). -/
theorem runTrigger_turnedAway (available : s.tmc.available = true) {result : OpOutcome}
    (refused : s.tmc.refusal? (.changeTo (s.rcu.channels.get c).slot) = some result) {k : Channel} {ns : List Notice}
    {events : List (Event × Half)} (still : k.request = false)
    (taken : (s.rcu.presenting c (s.rcu.channels.get c).triggered).takeOutcome result s.tmc.n = (s.rcu.released c k, ns))
    (logged : loggedOf ns = events) (silent : queuedOf ns = []) :
    Took 0x62 .done s { s with rcu := s.rcu.released c k } ((.requestsDiscarded, argPair result.number 16) :: events)
      (s.run (State.takeRow 0x62 (dirRunTrigger channel))) :=
  runTrigger_presents ready small named unmasked quiet pending service fun dd =>
    leads_presented_refused (s := { s with dd := dd, rcu := s.rcu.presenting c (s.rcu.channels.get c).triggered })
      ⟨free.idle, free.slots, free.unmasked, free.uncut⟩ available refused taken logged silent rfl
      (Rcu.released_noneWaits quiet still) 509

end

end

/-- Settles O40: masks, triggers with what their presentation leads to, and the dwell. -/
theorem runTriggers : Obligations.RunTriggers := by
  intro s calm
  refine ⟨fun select values awake => ?masks, fun channel awake => ?triggers, ?dwell⟩
  case masks =>
    have ready : Ready s := ⟨calm, awake⟩
    refine ⟨_, rfl, fun bad => ?_, fun select_small values_small quiet => ?_⟩
    · obtain ⟨_, _, answered⟩ := row_rcu_answered (code := 0x61) (owner := dirRunMask select values) ready s.rcu
        fun k same => by rw [dirRunMask, same, Rcu.setMasks_bad bad]
      exact answered rfl
    · obtain ⟨rcu, answered, _⟩ := row_rcu_answered (code := 0x61) (owner := dirRunMask select values) ready
        (s.rcu.masked select values) fun k same => by rw [dirRunMask, same, Rcu.setMasks_quiet select_small values_small quiet]
      rw [rcu]
      refine ⟨?_, rfl, rfl, rfl, rfl, answered⟩
      rintro c k rfl
      exact PerChannel.get_map _ _ c
  case triggers =>
    have ready : Ready s := ⟨calm, awake⟩
    refine ⟨_, rfl, fun large => ?_, ?_⟩
    · exact (runTrigger_answered ready (by rw [Rcu.triggerDirective, if_pos large])).2.2 rfl
    rintro c named k rfl small
    have trigger : s.rcu.triggerDirective channel =
        ((s.rcu.trigger c).1, if (s.rcu.trigger c).2 then .done else .refusedState) := by
      rw [Rcu.triggerDirective, if_neg (by omega), named]
    refine ⟨fun masked => ?_, fun unmasked asks => ?_, fun unmasked quiet waits => ?_,
      fun unmasked _ pending service quiet jammed _ empty => ?_,
      fun unmasked _ pending service quiet idle slots open_ cutoff => ?_⟩
    · exact (runTrigger_answered ready (by rw [trigger, Rcu.trigger_masked masked]; rfl)).2.2 rfl
    · exact (runTrigger_answered ready (by rw [trigger, Rcu.trigger_asking unmasked asks]; rfl)).2.2 rfl
    · obtain ⟨rcu, answered, _⟩ := runTrigger_answered ready (by
        rw [trigger, Rcu.trigger_fresh unmasked quiet, Rcu.choose_pending (by exact waits)])
      exact ⟨rcu, answered⟩
    · have took := runTrigger_presents (u' := { s with
          rcu := s.rcu.presenting c (s.rcu.channels.get c).triggered
          ca := { s.ca with slots := { s.ca.slots with
            run := some ⟨.changeTo (s.rcu.channels.get c).slot, s.ca.levels.run⟩ } } }) ready small named unmasked quiet pending
        service fun dd => leads_presented_jammed (by exact jammed) (by exact empty) _ 511
      refine ⟨took.rcu, took.ca, took.answered rfl fun p hp => ?_⟩
      cases p <;> simp [Part.same] at hp ⊢
    · have free : FreeFor s .run := ⟨idle, slots, open_, arbiterOpen_iff.mpr cutoff⟩
      refine ⟨fun state inside far => ?_, fun state outside => ?_, fun state => ?_⟩
      · obtain ⟨op, darken, limit, target⟩ :=
          Tmc.begin_change (op := ⟨.changeTo (s.rcu.channels.get c).slot, .run, s.ca.levels.run⟩) rfl far
        have took := runTrigger_granted ready small named unmasked quiet pending service free state inside far rfl
        rw [took.rcu, took.ca, took.tmc, took.lc]
        refine ⟨Rcu.presenting_moved pending, rfl, op, darken, limit, target, Lc.takeDarken_holdLevel,
          took.answered rfl fun p hp => ?_⟩
        cases p <;> simp [Part.same] at hp ⊢
      · have took := runTrigger_turnedAway ready small named unmasked quiet pending service free (result := .outOfTray)
          (by simp [Tmc.available, state]) (by simp [Tmc.refusal?, state, outside]) rfl (Rcu.takeOutcome_outOfTray s.tmc.n)
          rfl rfl
        refine ⟨took.rcu.trans (Rcu.released_eq pending), took.answered rfl fun p hp => ?_⟩
        cases p <;> simp [Part.same] at hp ⊢
      · obtain ⟨result, refused, number, refusal⟩ : ∃ result : OpOutcome,
            (result = .refusedUnhomed ∨ result = .refusedNoTray) ∧
            argPair result.number 16 = (if s.tmc.state = .unhomed then 0x0510 else 0x0610) ∧
            s.tmc.refusal? (.changeTo (s.rcu.channels.get c).slot) = some result := by
          rcases state with unhomed | bare
          · exact ⟨_, .inl rfl, by rw [if_pos unhomed]; rfl, refusal_unhomed unhomed rfl⟩
          · exact ⟨_, .inr rfl, by rw [if_neg (by simp [bare])]; rfl, by simp [Tmc.refusal?, bare]⟩
        have took := runTrigger_turnedAway ready small named unmasked quiet pending service free
          (by rcases state with state | state <;> simp [Tmc.available, state]) refusal rfl
          (Rcu.takeOutcome_refused refused s.tmc.n) rfl rfl
        rw [number] at took
        refine ⟨took.rcu.trans (Rcu.released_eq pending), took.answered rfl fun p hp => ?_⟩
        cases p <;> simp [Part.same] at hp ⊢
  case dwell =>
    rintro c k rfl
    refine ⟨_, rfl, fun early => ?_, fun due waits => ?_, fun due pending service unmasked quiet jammed _ empty => ?_⟩
    · have idle : s.rcu.dwellExpiry c = (s.rcu, []) := if_neg (by simpa [Timer.due] using early)
      exact (rcu_command calm s.rcu (congrArg s.putRcu idle)).2.2 rfl
    · have asks : s.rcu.dwellExpiry c = (s.rcu.modify c Channel.dwelled, []) :=
        (Rcu.dwellExpiry_due due).trans (Rcu.choose_pending (by exact waits))
      obtain ⟨rcu, effect, _⟩ := rcu_command (f := fun k => k.putRcu (k.rcu.dwellExpiry c)) calm
        (s.rcu.modify c Channel.dwelled) (congrArg s.putRcu asks)
      exact ⟨rcu, effect⟩
    · have asks : s.rcu.dwellExpiry c = (s.rcu.presenting c (s.rcu.channels.get c).dwelled,
          [.deposit .run (.changeTo (s.rcu.channels.get c).slot)]) :=
        (Rcu.dwellExpiry_due due).trans (Rcu.modify_presents pending service quiet rfl unmasked)
      have stands := (StandsAt.refl calm).putRcu (s.rcu.presenting c (s.rcu.channels.get c).dwelled,
        [.deposit .run (.changeTo (s.rcu.channels.get c).slot)])
      have ran := run_ran (f := fun k => k.putRcu (k.rcu.dwellExpiry c)) (by rw [asks]; exact stands)
        (leads_presented_jammed (by exact jammed) (by exact empty) _ 511)
      refine ⟨ran.rcu, ran.ca, ran.effect rfl fun p hp => ?_⟩
      cases p <;> simp [Part.same] at hp ⊢

end Sys2Proof.Machine
end

section
/-! ## Outcomes delivered: the end of SETTLE, and a preemption (01, 07) -/

namespace Sys2Proof.Machine

open Sys2Proof.Safety

/-! ### The end of SETTLE (R11) -/

/-- The outcome that SETTLE ends with (R11). -/
def Tmc.settled (t : Tmc) : OpOutcome := if t.gate = .empty then .emptySlot else .done

/-- The entry of the end of SETTLE (R11; assumption log 18). -/
def Tmc.settledEntry (t : Tmc) (op : Operation) : Event × Half :=
  (if t.gate = .empty then .emptySlot else .changeDone, argPair op.source.number (if t.homed then t.p else 0xFF))

theorem Tmc.settleEnd_due {t : Tmc} {op : Operation} (settle : t.state = .settle) (due : t.settleTimer = some 0)
    (service : t.op = some op) : t.settleEnd =
      ({ t with state := .ready, settleTimer := none, darkenStanding := false, op := none, redirect := false },
        [.release t.inTime, .log (t.settledEntry op).1 (t.settledEntry op).2, .outcome op t.settled]) := by
  simp [Tmc.settleEnd, Tmc.conclude, Tmc.settled, Tmc.settledEntry, Timer.due, Tmc.reportedSource, Tmc.reportedP, settle, due,
    service]

/-- The state in which the outcome of SETTLE's end is delivered: mechanism and arbiter are free, and the lamp released. -/
def State.freed (s : State) : State :=
  { s with tmc := { s.tmc with state := .ready, settleTimer := none, darkenStanding := false, op := none, redirect := false }
           lc := s.lc.takeRelease s.tmc.inTime, ca := { s.ca with inService := none } }

/-- SETTLE ends where the delivery of its outcome leads (R11, R138, R139). -/
theorem settleEnd_ran {s : State} (calm : s.notices = []) {op : Operation} (settle : s.tmc.state = .settle)
    (due : s.tmc.settleTimer = some 0) (service : s.tmc.op = some op) (arbiter : s.ca.inService = some op) {u' : State}
    {later : List (Event × Half)}
    (leads : Leads 510 s.freed (deliverNotice op.source s.tmc.settled ++ [.select]) u' later) :
    Ran u' (s.tmc.settledEntry op :: later) (s.run fun k => k.putTmc k.tmc.settleEnd) :=
  reaction_ran (f := fun k => k.putTmc k.tmc.settleEnd) (lc := s.lc) calm
    (congrArg s.putTmc (Tmc.settleEnd_due settle due service))
    (.cons (handled_release _ s.tmc.inTime) (.cons (handled_outcome (by exact arbiter) s.tmc.settled) leads))

/-! ### A directive that preempts (R22, R23, R142) -/

section

variable {u : State} {kind : OpKind} {old : Operation}

/-- A deposit that preempts is moved into service, and the source of the operation there is told (R142). -/
theorem handled_deposit_preempts (empty : u.ca.slots.directive = none) (service : u.ca.inService = some old)
    (preempts : ∀ k : State, k.tmc = u.tmc → k.cu = u.cu → k.ca = u.ca.fill .directive kind →
      k.preempts .directive ⟨kind, u.ca.levels.directive⟩ = true)
    {op : Operation} (new : op = ⟨kind, .directive, u.ca.levels.directive⟩) :
    Handled (.deposit .directive kind) u
      { u with ca := { u.ca with inService := some op }, tmc := (u.tmc.preempt op).1 }
      ((.preempted, argPair old.source.number u.tmc.reportedP) :: loggedOf (u.tmc.preempt op).2)
      (deliverNotice old.source .preempted ++ queuedOf (u.tmc.preempt op).2) := by
  subst new
  intro s before queue h
  obtain ⟨k, stands, shape⟩ := h.fill (source := .directive) (kind := kind) empty
  have serves : k.ca.inService = some old := by rw [stands.ca]; exact service
  have taken : k.mechanismFree ≠ true := by simp [State.mechanismFree, serves]
  have waits : k.ca.slot .directive = some ⟨kind, u.ca.levels.directive⟩ := by rw [stands.ca]; rfl
  have emptied : k.ca.empty .directive = u.ca := by rw [stands.ca]; exact Ca.fill_empty empty
  have acts : k.afterDeposit .directive =
      (k.putCa ({ u.ca with inService := some ⟨kind, .directive, u.ca.levels.directive⟩ },
        deliverNotice old.source .preempted ++
          [.log .preempted (argPair old.source.number k.tmc.reportedP), .dirty 6])).putTmc
        (k.tmc.preempt ⟨kind, .directive, u.ca.levels.directive⟩) := by
    simp [State.afterDeposit, taken, waits, preempts k stands.tmc stands.cu stands.ca, State.preemptWith, serves, emptied,
      slotEmptyNotice, Source.notified]
  have moved := (stands.putCa ({ u.ca with inService := some ⟨kind, .directive, u.ca.levels.directive⟩ },
    deliverNotice old.source .preempted ++
      [.log .preempted (argPair old.source.number k.tmc.reportedP), .dirty 6])).putTmc
    (k.tmc.preempt ⟨kind, .directive, u.ca.levels.directive⟩)
  have quiet : loggedOf (deliverNotice old.source .preempted) = [] ∧
      queuedOf (deliverNotice old.source .preempted) = deliverNotice old.source .preempted := by
    unfold deliverNotice; split <;> exact ⟨rfl, rfl⟩
  rw [shape, acts]
  rw [stands.tmc] at moved ⊢
  simpa [queuedOf_log, quiet.1, quiet.2] using moved

end

/-- A GOTO_SLOT that finds an operation it preempts, on its way to another slot than the one in the lit gate (R22, R23,
R141). -/
structure Ousts (s : State) (slot : Byte) (old : Operation) : Prop where
  sound : Mechanism s.tmc
  mechanism : s.tmc.op = some old
  arbiter : s.ca.inService = some old
  empty : s.ca.slots.directive = none
  unmasked : s.ca.masks.directive = false
  level : s.ca.levels.directive < old.level
  homed : s.tmc.homed = true
  phase : s.tmc.state = .darken ∨ s.tmc.state = .turn
  uncut : s.cu.flag = false ∨ s.cu.traySel = .ignore
  inside : slot.toNat ≤ s.tmc.n
  far : slot.toNat ≠ s.tmc.p ∨ s.tmc.gate = .empty

section

variable {s : State} {slot : Byte} {old op : Operation} (h : Ousts s slot old)
  (new : op = ⟨.changeTo slot.toNat, .directive, s.ca.levels.directive⟩)

include h new

/-- The mechanism plans the new change (R22, R23). -/
theorem Ousts.plans : (s.tmc.preempt op).2 = [] ∧ (s.tmc.preempt op).1.op = some op ∧
    (s.tmc.preempt op).1.target = some slot.toNat := by
  subst new
  have plans := Tmc.preempt_plans (t := s.tmc) (op := ⟨.changeTo slot.toNat, .directive, s.ca.levels.directive⟩) h.homed h.phase
    fun ⟨_, here, loaded⟩ => h.far.elim (fun away => away here) fun empty => by simp [empty] at loaded
  rw [plans]
  exact ⟨rfl, rfl, rfl⟩

/-- The GOTO_SLOT is in service, and ends where the delivery to the source of the operation there leads (R138, R142). -/
theorem Ousts.took (ready : Ready s) {u' : State} {later : List (Event × Half)}
    (leads : ∀ dd, Leads 511 { s with dd := dd, ca := { s.ca with inService := some op }, tmc := (s.tmc.preempt op).1 }
      (deliverNotice old.source .preempted) { u' with dd := dd } later) :
    Took 0x11 .done s u' ((.preempted, argPair old.source.number s.tmc.p) :: later)
      (s.run (State.takeRow 0x11 (dirGotoSlot slot))) := by
  have shown : s.tmc.reportedP = s.tmc.p := by simp [Tmc.reportedP, h.homed]
  have asks : ∀ k : State, k.tmc = s.tmc → k.cu = s.cu → k.ca = s.ca.fill .directive (.changeTo slot.toNat) →
      k.preempts .directive ⟨.changeTo slot.toNat, s.ca.levels.directive⟩ = true := fun k tmc cu ca => by
    rw [preempts_iff (old := old) (by rw [ca]; exact h.arbiter) (by rw [tmc]; exact h.sound)
      (by rw [tmc]; rintro _ ⟨⟩; exact h.inside), tmc, cu, ca]
    exact ⟨h.unmasked, h.level, h.homed, h.phase, h.uncut⟩
  have taken (dd : Dd) := handled_deposit_preempts (u := { s with dd := dd }) h.empty h.arbiter asks new
  simp only [shown, (h.plans new).1, queuedOf_nil, loggedOf_nil, List.append_nil] at taken
  have small : slot.toNat ≤ 120 := h.inside.trans (h.sound.size ▸ codeSize_le _)
  exact request_took (c := .gotoSlot slot) rfl rfl ready (fun _ kind => by cases kind; exact ⟨small, .inr h.inside⟩) h.empty
    fun dd => .cons (taken dd) (leads dd)

end

end Sys2Proof.Machine
end

section
/-! ## The end of a run channel's change (08) -/

namespace Sys2Proof.Machine

open Sys2Proof.Safety

section

variable {u : Rcu} {m : RunMarker}

/-- The channels with no record in service and this record for the channel named. -/
def Rcu.served (u : Rcu) (c : BitVec 2) (k : Channel) : Rcu :=
  { u with serviceMarker := none, channels := u.channels.set c k }

/-- Beside the channel in service none waits to be presented (R154). -/
def NoneBeside (u : Rcu) : Prop := ∀ c, (u.channels.get c).mask = true ∨ (u.channels.get c).request = false ∨
  u.serviceMarker = some ⟨c, false⟩

/-- With the channel's request cleared nothing is presented (R154). -/
theorem Rcu.served_choose (others : NoneBeside u) (marker : u.serviceMarker = some m) {k : Channel}
    (still : k.request = false) : (u.served m.channel k).choose = (u.served m.channel k, []) := by
  refine Rcu.choose_none fun c => ?_
  by_cases same : c = m.channel
  · refine Rcu.candidate_quiet ?_
    rw [same, Rcu.served, PerChannel.get_set_same, still]
  · have here : (u.served m.channel k).channels.get c = u.channels.get c := by rw [Rcu.served, PerChannel.get_set, if_neg same]
    rcases others c with masked | quiet | served
    · simp [Rcu.candidate, here, masked]
    · exact Rcu.candidate_quiet (by rw [here, quiet])
    · rw [marker] at served
      exact absurd (congrArg RunMarker.channel (Option.some.inj served)).symm same

/-- An outcome of the record in service, for a channel not detached since (R156). -/
theorem Rcu.takeOutcome_served (others : NoneBeside u) (marker : u.serviceMarker = some m) (attached : m.detached = false)
    {result : OpOutcome} (service : result.ofPending = false) {n : Nat} {k : Channel} {ns : List Notice}
    (applied : Rcu.apply { u with serviceMarker := none } m.channel result n = (u.served m.channel k, ns))
    (still : k.request = false) : u.takeOutcome result n = (u.served m.channel k, ns) := by
  rw [Rcu.takeOutcome, if_neg (by simp [service])]
  simp only [Rcu.settleMarker, marker, attached, Bool.false_eq_true, if_false, applied, Rcu.served_choose others marker still,
    List.append_nil]

/-- An outcome of a record whose channel has been detached since leaves every channel as it is (R156). -/
theorem Rcu.takeOutcome_detached (others : NoneBeside u) (marker : u.serviceMarker = some m) (detached : m.detached = true)
    {result : OpOutcome} (service : result.ofPending = false) (n : Nat) :
    u.takeOutcome result n = ({ u with serviceMarker := none }, []) := by
  have nobody : Rcu.choose { u with serviceMarker := none } = ({ u with serviceMarker := none }, []) :=
    Rcu.choose_none fun c => by
      rcases others c with masked | quiet | served
      · simp [Rcu.candidate, masked]
      · exact Rcu.candidate_quiet quiet
      · rw [marker] at served
        have attached := congrArg RunMarker.detached (Option.some.inj served)
        simp [detached] at attached
  rw [Rcu.takeOutcome, if_neg (by simp [service])]
  simp only [Rcu.settleMarker, marker, detached, if_true, nobody, List.append_nil]

end

/-! ### What an outcome makes of the channel (R153, R157 to R159) -/

section

variable {u : Rcu} {c : BitVec 2} {k : Channel}

/-- The channel of a change that is not the run's last (R157). -/
theorem Channel.advance_eq {n : Nat} (tray : n ≠ 0) : k.advance n = { k with
    request := false, slot := if k.down then (if k.slot ≤ 1 then n else k.slot - 1) else if n ≤ k.slot then 1 else k.slot + 1,
    count := k.count - 1, dwellTimer := if k.armed then some (100 * k.dwell) else none } := by
  simp [Channel.advance, nextSlot, tray, Nat.mul_comm]

/-- The channel of the run's last change, which it reloads (R158). -/
theorem Channel.finish_reload (reload : k.reload = true) (n : Nat) : k.finish n = { k with
    request := false, tc := true, slot := k.baseSlot, count := k.baseCount, armed := false, dwellTimer := none } := by
  simp [Channel.finish, Channel.disarm, reload]

/-- The channel of the run's last change, which masks it (R158). -/
theorem Channel.finish_masks {n : Nat} (tray : n ≠ 0) (once : k.reload = false) : k.finish n = { k with
    request := false, tc := true
    slot := if k.down then (if k.slot ≤ 1 then n else k.slot - 1) else if n ≤ k.slot then 1 else k.slot + 1
    mask := true, armed := false, dwellTimer := none } := by
  simp [Channel.finish, Channel.disarm, nextSlot, tray, once]

theorem Channel.finish_request (n : Nat) : (k.finish n).request = false := by
  unfold Channel.finish
  split <;> rfl

theorem Rcu.apply_done_left (left : 0 < (u.channels.get c).count) (n : Nat) :
    Rcu.apply { u with serviceMarker := none } c .done n =
      (u.served c ((u.channels.get c).advance n), [.dirty (channelLine c)]) := if_pos left

theorem Rcu.apply_done_last (last : (u.channels.get c).count = 0) (n : Nat) :
    Rcu.apply { u with serviceMarker := none } c .done n = (u.served c ((u.channels.get c).finish n),
      [.dirty (channelLine c), .log .runTc (argPair c.toNat (u.channels.get c).slot), .terminalCount c]) :=
  if_neg (by simp [last])

/-- A change that was not shown (R159). -/
theorem Rcu.apply_preempted (n : Nat) : Rcu.apply { u with serviceMarker := none } c .preempted n = (u.served c
    { u.channels.get c with
      request := false
      dwellTimer := if (u.channels.get c).armed then some (100 * (u.channels.get c).dwell) else none }, []) := by
  simp [Rcu.apply, Rcu.modify, Rcu.served, Nat.mul_comm]

end

/-- The channels after a preemption of the change in service: a channel not detached since keeps its slot and count (R156,
R159). -/
theorem Rcu.takeOutcome_preempted {u : Rcu} {m : RunMarker} (others : NoneBeside u) (marker : u.serviceMarker = some m)
    (n : Nat) {k : Channel} (here : k = u.channels.get m.channel) : u.takeOutcome .preempted n =
      ((if m.detached then { u with serviceMarker := none } else u.served m.channel { k with
        request := false, dwellTimer := if k.armed then some (100 * k.dwell) else none }), []) := by
  subst here
  by_cases detached : m.detached = true
  · rw [if_pos detached]
    exact Rcu.takeOutcome_detached others marker detached rfl n
  · rw [if_neg detached]
    exact Rcu.takeOutcome_served others marker (by simpa using detached) rfl (Rcu.apply_preempted n) rfl

/-! ### Where the end of a channel's change leads -/

/-- A terminal count that no record waits for (R160, R181). -/
theorem handled_terminalCount_idle {u : State} (nobody : u.ce.awaits? 4 = none) (c : BitVec 2) :
    Handled (.terminalCount c) u u [] [] := by
  intro s before queue h
  have same : State.handle (.terminalCount c) s = s := by
    rw [State.handle, State.terminalCount, h.ce, nobody]
  simpa [same] using h

/-- SETTLE of a channel's change ends where the channels take its outcome (R138, R156, R160). -/
theorem settleEnd_channel {s t : State} (run : exec .settleEnd s = .next t) (calm : s.notices = []) {op : Operation}
    (settle : s.tmc.state = .settle) (due : s.tmc.settleTimer = some 0) (service : s.tmc.op = some op)
    (arbiter : s.ca.inService = some op) (source : op.source = .run) (empty : ∀ source, s.ca.slots.get source = none)
    (nobody : s.ce.awaits? 4 = none) {rcu : Rcu} {ns : List Notice} {events : List (Event × Half)}
    (taken : s.rcu.takeOutcome s.tmc.settled s.tmc.n = (rcu, ns)) (logged : loggedOf ns = events)
    (queued : queuedOf ns = [] ∨ ∃ c, queuedOf ns = [.terminalCount c]) :
    t.ca = { s.ca with inService := none } ∧ t.tmc.state = .ready ∧ t.rcu = rcu ∧
      Effect [.mechanism, .arbiter, .lamp, .channels] (s.tmc.settledEntry op :: events) s t := by
  obtain rfl := Host.Outcome.next.inj run
  have told := handled_deliver_run (u := s.freed) (result := s.tmc.settled) taken
  have idle : Handled .select { s.freed with rcu := rcu } { s.freed with rcu := rcu } [] [] := handled_select_idle empty
  have leads : Leads 510 s.freed (deliverNotice op.source s.tmc.settled ++ [.select]) { s.freed with rcu := rcu } events := by
    simp only [logged] at told
    rw [source, ← List.append_nil events]
    rcases queued with none_left | ⟨c, one⟩
    · rw [none_left] at told
      exact .cons told (.cons idle (.nil _ _))
    · rw [one] at told
      exact .cons told (.cons idle (.cons (handled_terminalCount_idle (by exact nobody) c) (.nil _ _)))
  have ran := settleEnd_ran calm settle due service arbiter leads
  refine ⟨ran.ca, congrArg Tmc.state ran.tmc, ran.rcu, ran.effect rfl fun p hp => ?_⟩
  cases p <;> simp [Part.same, State.freed] at hp ⊢

/-! ### O41 -/

/-- Settles O41: the end of the change by what is left of the run, and its preemption. -/
theorem runCompletion : Obligations.RunCompletion := by
  constructor
  case left =>
    rintro s calm settle due loaded tray op service source arbiter empty _ others nobody m marker attached k rfl next rfl
      ended rfl
    have done : s.tmc.settled = .done := if_neg (by simp [loaded])
    have entry : s.tmc.settledEntry op = (.changeDone, argPair 4 (if s.tmc.homed then s.tmc.p else 0xFF)) := by
      simp [Tmc.settledEntry, loaded, source, Source.number]
    have ends {k : Channel} {ns : List Notice} {events : List (Event × Half)} (still : k.request = false)
        (applied : Rcu.apply { s.rcu with serviceMarker := none } m.channel .done s.tmc.n = (s.rcu.served m.channel k, ns)) :=
      settleEnd_channel (events := events) rfl calm settle due service arbiter source empty nobody
        (done ▸ Rcu.takeOutcome_served others marker attached rfl applied still)
    rw [entry] at ends
    refine ⟨_, rfl, ?_⟩
    rcases Nat.eq_zero_or_pos (s.rcu.channels.get m.channel).count with last | left
    · obtain ⟨arbiter, mechanism, channels, effect⟩ := ends (Channel.finish_request s.tmc.n)
        (Rcu.apply_done_last last s.tmc.n) rfl (.inr ⟨m.channel, rfl⟩)
      refine ⟨arbiter, mechanism, fun more => absurd last more.ne', fun _ reload => ⟨?_, effect⟩, fun _ once => ⟨?_, effect⟩⟩
      · rw [channels, Channel.finish_reload reload]
        rfl
      · rw [channels, Channel.finish_masks tray once]
        rfl
    · obtain ⟨arbiter, mechanism, channels, effect⟩ := ends rfl (Rcu.apply_done_left left s.tmc.n) rfl (.inl rfl)
      refine ⟨arbiter, mechanism, fun _ => ⟨?_, effect⟩, fun last => absurd last left.ne', fun last => absurd last left.ne'⟩
      rw [channels, Channel.advance_eq tray]
      rfl
  case right =>
    rintro slot s ready sound old service arbiter source empty _ unmasked level homed phase uncut _ inside far _ others m
      marker k here
    have ousts : Ousts s slot old :=
      ⟨sound, service, arbiter, empty, unmasked, level, homed, phase, uncut, inside, far⟩
    obtain ⟨_, op, target⟩ := ousts.plans rfl
    have taken (n : Nat) := Rcu.takeOutcome_preempted others marker n here
    have took := ousts.took (u' := { s with
        ca := { s.ca with inService := some ⟨.changeTo slot.toNat, .directive, s.ca.levels.directive⟩ }
        tmc := (s.tmc.preempt ⟨.changeTo slot.toNat, .directive, s.ca.levels.directive⟩).1
        rcu := _ }) rfl ready fun dd => by
      rw [source]
      exact .cons (handled_deliver_run (taken _)) (.nil _ _)
    rw [source] at took
    refine ⟨_, rfl, took.ca, ?_, ?_, took.rcu, took.answered rfl fun p hp => ?_⟩
    · rw [took.tmc, op]
    · rw [took.tmc, target]
    · cases p <;> simp [Part.same] at hp ⊢

end Sys2Proof.Machine
end

section
/-! ## The engine's reads, its withdrawal and its outcomes, as the blocks take them (07, 09, 10) -/

namespace Sys2Proof.Machine

open Sys2Proof.Safety

/-! ### The engine's read at the Passage Unit (R184, R196) -/

/-- A withdrawal of the read leaves what the host has on the bus. -/
theorem Pu.dropRead_window (pu : Pu) : pu.dropRead.base = pu.base ∧ pu.dropRead.inReset = pu.inReset ∧
    pu.dropRead.hostBusy = pu.hostBusy ∧ pu.dropRead.held = pu.held ∧ pu.dropRead.hostData = pu.hostData := by
  unfold Pu.dropRead
  split <;> exact ⟨rfl, rfl, rfl, rfl, rfl⟩

theorem Pu.dropRead_request (pu : Pu) : pu.dropRead.ceRequest = none := by
  have none_queued := pu.dropRead_spec.1
  cases request : pu.dropRead.ceRequest with
  | none => rfl
  | some offset => simp [Pu.readQueued, request] at none_queued

/-- The read that waits at the end of a command is served there, or waits on (R196). -/
theorem State.settle_read (s : State) : s.settle.pu.ceRequest = s.pu.ceRequest ∨ s.settle.pu.ceRequest = none ∧
    ∃ offset, s.pu.ceRequest = some offset ∧ s.settle.pu.own = some ⟨.cueEngine, offset, none, true⟩ := by
  obtain ⟨rw, w, kicked, -⟩ := s.kickReports_eq
  simp only [State.settle, kicked, Pu.start]
  split
  · cases read : s.pu.ceRequest with
    | some offset => exact .inr ⟨by simp [Pu.serve], offset, rfl, by simp [Pu.serve]⟩
    | none =>
      left
      cases w <;> simp [Pu.serve]
  · exact .inl rfl

/-- A directive that ends with a read asked for has the record fetched (R184, R196). -/
theorem Took.fetches {s u t : State} {code : Byte} {result : Result} {events : List (Event × Half)}
    (h : Took code result s u events t) {i : Nat} (asked : u.pu.ceRequest = some (0x0800 + 16 * i)) : Fetches t i := by
  obtain ⟨dd, _, w, stands, rfl⟩ := h
  rcases w.settle_read with kept | ⟨_, offset, served, own⟩
  · exact .inl (by rw [kept, stands.pu, asked])
  · rw [stands.pu, asked] at served
    obtain rfl := Option.some.inj served
    exact .inr own

/-- A directive that ends with no read asked for leaves none asked for. -/
theorem Took.unread {s u t : State} {code : Byte} {result : Result} {events : List (Event × Half)}
    (h : Took code result s u events t) (unasked : u.pu.ceRequest = none) : t.pu.ceRequest = none := by
  obtain ⟨dd, _, w, stands, rfl⟩ := h
  rcases w.settle_read with kept | ⟨served, _⟩
  · rw [kept, stands.pu, unasked]
  · exact served

/-! ### One rule for each notice of the engine -/

section

variable {u : State}

theorem handled_askRead (offset : Nat) : Handled (.askRead offset) u { u with pu := u.pu.askRead offset } [] [] := by
  rintro s before queue ⟨buffer, dropped, lines, rfl, joined⟩
  exact ⟨buffer, dropped, lines, by simp [State.handle], by simpa using joined⟩

theorem handled_dropRead : Handled .dropRead u { u with pu := u.pu.dropRead } [] [] := by
  rintro s before queue ⟨buffer, dropped, lines, rfl, joined⟩
  exact ⟨buffer, dropped, lines, by simp [State.handle], by simpa using joined⟩

/-- With no CUE request there is nothing to withdraw (R145). -/
theorem handled_withdraw_nothing (empty : u.ca.slots.cue = none) : Handled .withdraw u u [] [] := by
  intro s before queue h
  have nothing : u.ca.withdraw = (u.ca, []) := if_neg (by simp [Ca.slot, PerSource.get, empty])
  rw [State.handle, h.ca, nothing]
  simpa using h.putCa (u.ca, [])

/-- The CUE request is withdrawn, and the engine told (R145). -/
theorem handled_withdraw (waits : u.ca.slots.cue ≠ none) : Handled .withdraw u { u with ca := u.ca.empty .cue }
    [(.requestsDiscarded, 0x0902)] [.deliver .cue .withdrawn, .slotEmpty .cue] := by
  intro s before queue h
  have taken : u.ca.withdraw = (u.ca.empty .cue,
      [.deliver .cue .withdrawn, discardedLog .withdrawn (Source.bit .cue), .dirty 6, .slotEmpty .cue]) :=
    if_pos (Option.isSome_iff_ne_none.mpr waits)
  rw [State.handle, h.ca, taken]
  exact h.putCa _

theorem handled_deliver_cue {result : OpOutcome} {r : Reaction Ce} (taken : u.ce.takeOutcome result = r) :
    Handled (.deliver .cue result) u { u with ce := r.1 } (loggedOf r.2) (queuedOf r.2) := by
  intro s before queue h
  rw [State.handle, State.deliver, h.ce, taken]
  exact h.putCe r

/-- With no record pending and none held back the emptied slot leaves the engine as it is (R174, R175). -/
theorem handled_slotEmpty_cue_idle (pending : u.ce.pendingMarker = none)
    (idle : ¬ (u.ce.showState = .running ∧ u.ce.phase = .held)) : Handled (.slotEmpty .cue) u u [] [] := by
  intro s before queue h
  have still : markerMoved u.ce .cue = u.ce := by simp [markerMoved, pending]
  rw [State.handle, State.slotEmptied, h.ce, Ce.slotEmptied_idle idle, still]
  simpa using h.putCe (u.ce, [])

end

/-! ### What an outcome does to the engine (R175, R189) -/

section

variable {ce : Ce} {result : OpOutcome}

/-- The engine with the marker freed that an outcome belongs to. -/
def Ce.unmarked (ce : Ce) (result : OpOutcome) : Ce :=
  if freesPending result then { ce with pendingMarker := none } else { ce with serviceMarker := none }

/-- An outcome frees its marker and no more where it does not halt the show: one that halts none, of a stale record, or
with no show active. -/
theorem Ce.takeOutcome_frees (goesOn : haltOf? result = none ∨
      (if freesPending result then ce.pendingMarker else ce.serviceMarker) ≠ some false ∨ ce.active = false) :
    ce.takeOutcome result = (ce.unmarked result, []) := by
  have inactive (idle : ce.active = false) : (ce.unmarked result).active = false := by
    unfold Ce.unmarked
    split <;> exact idle
  unfold Ce.takeOutcome
  dsimp only
  split
  · next reason marker halts => exact Ce.halt_idle (inactive (by simpa [marker, halts] using goesOn)) reason
  · rfl

/-- JAMMED halts the show of the record in service. -/
theorem Ce.takeOutcome_jammed (active : ce.active = true) (marker : ce.serviceMarker = some false) :
    ce.takeOutcome .jammed = ({ haltedFor ce .jammed with serviceMarker := none },
      [.log .showHalted (haltEntry ce 5).2, .dropRead, .withdraw]) := by
  unfold Ce.takeOutcome
  dsimp only [freesPending, haltOf?]
  simp only [Bool.false_eq_true, if_false, marker]
  exact if_pos active

end

end Sys2Proof.Machine
end

section
/-! ## The show directives (09) -/

namespace Sys2Proof.Machine

open Sys2Proof.Safety

/-- A directive of the show. -/
theorem row_took_ce {s u' : State} (ready : Ready s) {code : Byte} {owner : State → State × Result} {result : Result}
    (r : Reaction Ce) {later : List (Event × Half)}
    (act : ∀ k : State, k.ce = s.ce → k.cu = s.cu → owner k = (k.putCe r, result))
    (leads : ∀ dd, Leads Config.cascadeFuel { s with dd := dd, ce := r.1 } (queuedOf r.2) { u' with dd := dd } later) :
    Took code result s u' (loggedOf r.2 ++ later) (s.run (State.takeRow code owner)) := by
  refine row_took (u := { s with ce := r.1 }) ready (fun dd k before h => ?_) leads
  rw [act k h.ce h.cu]
  exact ⟨rfl, h.putCe r⟩

/-- A directive of the show that makes no notice. -/
theorem row_ce_answered {s : State} (ready : Ready s) {code : Byte} {owner : State → State × Result} {result : Result}
    (ce : Ce) (act : ∀ k : State, k.ce = s.ce → k.cu = s.cu → owner k = (k.putCe (ce, []), result)) :
    (s.run (State.takeRow code owner)).ce = ce ∧
      Answered code result [.engine] [] s (s.run (State.takeRow code owner)) ∧
      (ce = s.ce → Answered code result [] [] s (s.run (State.takeRow code owner))) := by
  have took := row_took_ce (u' := { s with ce := ce }) (code := code) ready (ce, []) act fun dd => .nil _ _
  refine ⟨took.ce, took.answered rfl fun p hp => ?_, fun same => took.answered rfl fun p hp => ?_⟩
  · cases p <;> simp [Part.same] at hp ⊢
  · cases p <;> simp [Part.same, same]

/-! ### SHOW_START (R167) -/

/-- The engine at the start of a show. -/
def Ce.started (ce : Ce) (i : Nat) : Ce :=
  { ce with showState := .running, reason := .none, index := i, clock := 0, lateMax := 0, pathMiss := 0
            queue := [⟨i, [], false, .sequential⟩], phase := .loading, startInstant := 0, timelineInstant := 0
            dueInstant := 0, fired := [], timedOut := false, loops := [], memory := []
            pendingMarker := ce.pendingMarker.map fun _ => true, serviceMarker := ce.serviceMarker.map fun _ => true }

section

variable {s : State} {lo hi : Byte}

theorem showStart_refused (ready : Ready s) {result : Result}
    (refused : s.ce.start (word16 lo hi) s.cu.flag = ((s.ce, []), result)) :
    Answered 0x70 result [] [] s (s.run (State.takeRow 0x70 (dirShowStart lo hi))) :=
  (row_ce_answered ready s.ce fun k ce cu => by rw [dirShowStart, ce, cu, refused]).2.2 rfl

/-- A start has the start record fetched (R167, R184). -/
theorem showStart_took (ready : Ready s) (idle : s.ce.active = false) (uncut : s.cu.flag = false)
    (inside : word16 lo hi < 3968) :
    Took 0x70 .done s
      { s with ce := s.ce.started (word16 lo hi), pu := s.pu.askRead (0x0800 + 16 * word16 lo hi) }
      [(.showStarted, halfOf (word16 lo hi))] (s.run (State.takeRow 0x70 (dirShowStart lo hi))) := by
  have starts : s.ce.start (word16 lo hi) s.cu.flag = ((s.ce.started (word16 lo hi),
      [.log .showStarted (halfOf (word16 lo hi)), .askRead (recordOffset (word16 lo hi))]), .done) := by
    rw [Ce.start, if_neg (by simp [idle, uncut]), if_neg (by simpa [Config.cueRecords] using inside)]
    rfl
  exact row_took_ce ready (s.ce.started (word16 lo hi),
    [.log .showStarted (halfOf (word16 lo hi)), .askRead (recordOffset (word16 lo hi))])
    (fun k ce cu => by rw [dirShowStart, ce, cu, starts]) fun dd => .cons (handled_askRead _) (.nil _ _)

end

/-! ### SHOW_PAUSE, SHOW_RESUME, SHOW_LEAD and SHOW_STOP (R168 to R170) -/

/-- While the record is being fetched a resumed show has nothing to look at (R168). -/
theorem handled_progress_loading {u : State} (loading : u.ce.phase = .loading) : Handled .progress u u [] [] := by
  intro s before queue h
  have waits : u.ce.waiting? = none := if_neg (by simp [loading])
  have early : u.ce.timelineReached = (u.ce, []) := if_neg (by simp [loading])
  have same : State.handle .progress s = s.putCe (u.ce, []) := by
    simp only [State.handle, State.progress, h.ce, waits, loading, early]
    rfl
  rw [same]
  simpa using h.putCe (u.ce, [])

section

variable {s : State}

/-- SHOW_PAUSE freezes a running show, and is refused otherwise (R168). -/
theorem showPause_answered (ready : Ready s) {ce : Ce} {result : Result} (pauses : s.ce.pause = (ce, result)) :
    (s.run (State.takeRow 0x71 dirShowPause)).ce = ce ∧
      Answered 0x71 result [.engine] [] s (s.run (State.takeRow 0x71 dirShowPause)) ∧
      (ce = s.ce → Answered 0x71 result [] [] s (s.run (State.takeRow 0x71 dirShowPause))) :=
  row_ce_answered ready ce fun k same _ => by rw [dirShowPause, same, pauses]

theorem showResume_refused (ready : Ready s) (still : s.ce.showState ≠ .paused) :
    Answered 0x72 .refusedState [] [] s (s.run (State.takeRow 0x72 dirShowResume)) := by
  have refused : s.ce.resume = ((s.ce, []), .refusedState) := if_neg still
  exact (row_ce_answered ready s.ce fun k same _ => by rw [dirShowResume, same, refused]).2.2 rfl

/-- A show resumed while its record is being fetched goes on as it was. -/
theorem showResume_took (ready : Ready s) (paused : s.ce.showState = .paused) (loading : s.ce.phase = .loading) :
    Took 0x72 .done s { s with ce := { s.ce with showState := .running } } []
      (s.run (State.takeRow 0x72 dirShowResume)) := by
  have resumes : s.ce.resume = (({ s.ce with showState := .running }, [.progress]), .done) := if_pos paused
  exact row_took_ce ready ({ s.ce with showState := .running }, [.progress])
    (fun k same _ => by rw [dirShowResume, same, resumes])
    fun dd => .cons (handled_progress_loading (by exact loading)) (.nil _ _)

theorem showLead_refused {enable extra : Byte} (ready : Ready s) (large : 1 < enable.toNat) :
    Answered 0x75 .badOperand [] [] s (s.run (State.takeRow 0x75 (dirShowLead enable extra))) := by
  have refused : s.ce.setLead enable extra = ((s.ce, []), .badOperand) := if_pos large
  exact (row_ce_answered ready s.ce fun k same _ => by rw [dirShowLead, same, refused]).2.2 rfl

/-- SHOW_LEAD with no record whose fire instant it moves (R170, R172). -/
theorem showLead_took {enable extra : Byte} (ready : Ready s) (small : enable.toNat ≤ 1) (nobody : s.ce.waiting? = none) :
    Took 0x75 .done s { s with ce := { s.ce with leadOn := decide (enable = 1), leadExtra := extra.toNat } } []
      (s.run (State.takeRow 0x75 (dirShowLead enable extra))) := by
  have sets : s.ce.setLead enable extra =
      (({ s.ce with leadOn := decide (enable = 1), leadExtra := extra.toNat }, [.refire]), .done) :=
    if_neg (Nat.not_lt.mpr small)
  exact row_took_ce ready ({ s.ce with leadOn := decide (enable = 1), leadExtra := extra.toNat }, [.refire])
    (fun k same _ => by rw [dirShowLead, same, sets]) fun dd => .cons (handled_refire_idle (by exact nobody)) (.nil _ _)

end

/-- The engine once its show has been stopped (R169). -/
def Ce.stopped (ce : Ce) : Ce := { ce with showState := .idle, queue := [], phase := .loading, fired := [] }

section

variable {s : State}

/-- A stop with no CUE request pending. -/
theorem showStop_took (ready : Ready s) (empty : s.ca.slots.cue = none) :
    Took 0x73 .done s { s with ce := s.ce.stopped, pu := s.pu.dropRead } []
      (s.run (State.takeRow 0x73 dirShowStop)) :=
  row_took_ce ready (s.ce.stopped, [.withdraw, .dropRead]) (fun k ce _ => by rw [dirShowStop, ce]; rfl) fun dd =>
    .cons (handled_withdraw_nothing (by exact empty)) (.cons handled_dropRead (.nil _ _))

/-- A stop withdraws the CUE request pending (R145). -/
theorem showStop_withdraws (ready : Ready s) (waits : s.ca.slots.cue ≠ none) :
    Took 0x73 .done s
      { s with ce := { s.ce.stopped with pendingMarker := none }, ca := s.ca.empty .cue, pu := s.pu.dropRead }
      [(.requestsDiscarded, 0x0902)] (s.run (State.takeRow 0x73 dirShowStop)) :=
  row_took_ce ready (s.ce.stopped, [.withdraw, .dropRead]) (fun k ce _ => by rw [dirShowStop, ce]; rfl) fun dd =>
    .cons (handled_withdraw (by exact waits)) (.cons handled_dropRead (.cons (handled_deliver_cue (Ce.takeOutcome_frees (.inl rfl)))
      (.cons (handled_slotEmpty_cue_idle rfl (by simp [Ce.stopped, Ce.unmarked, freesPending]))
        (.nil _ _))))

end

end Sys2Proof.Machine
end

section
/-! ## The end of a CUE change (01, 07, 09) -/

namespace Sys2Proof.Machine

open Sys2Proof.Safety

section

variable {s : State} {op : Operation} (calm : s.notices = []) (service : s.tmc.op = some op)
  (arbiter : s.ca.inService = some op)

include calm service arbiter

/-- SETTLE of a CUE change ends with its marker freed (R139, R175). -/
theorem settleEnd_cue (source : op.source = .cue) (settle : s.tmc.state = .settle) (due : s.tmc.settleTimer = some 0)
    (empty : ∀ source, s.ca.slots.get source = none) :
    Ran { s.freed with ce := { s.ce with serviceMarker := none } } [s.tmc.settledEntry op]
      (s.run fun k => k.putTmc k.tmc.settleEnd) := by
  have taken : s.freed.ce.takeOutcome s.tmc.settled = ({ s.ce with serviceMarker := none }, []) := by
    unfold Tmc.settled
    split <;> exact Ce.takeOutcome_frees (.inl rfl)
  refine settleEnd_ran calm settle due service arbiter ?_
  rw [source]
  exact .cons (handled_deliver_cue taken) (.cons (handled_select_idle (by exact empty)) (.nil _ _))

/-- The mechanism once it has jammed (R13). -/
def Tmc.jammedFrom (t : Tmc) : Tmc := t.jam.1

omit calm arbiter in
theorem Tmc.jam_ends : s.tmc.jam = (s.tmc.jammedFrom,
    [.edgeCause .trayJam, .log .jam (argPair op.source.number s.tmc.reportedP), .outcome op .jammed]) := by
  simp [Tmc.jammedFrom, Tmc.jam, Tmc.conclude, Tmc.unhome, Tmc.stopTimers, Tmc.reportedSource, service]

/-- The state in which JAMMED is delivered: the mechanism has jammed, and the arbiter is free. -/
def State.jammedOut (s : State) : State := { s with tmc := s.tmc.jammedFrom, ca := { s.ca with inService := none } }

omit calm service arbiter in
theorem Tmc.jammedFrom_state (t : Tmc) : t.jammedFrom.state = .jammed := by
  unfold Tmc.jammedFrom Tmc.jam Tmc.conclude
  split <;> rfl

/-- A jam of a CUE change, with TRAY_JAM disabled, ends where the delivery of its outcome leads (R13, R138, R139). -/
theorem positionTimerExpiry_jams (source : op.source = .cue) (turn : s.tmc.state = .turn) (due : s.tmc.positionTimer = some 0)
    (disabled : s.cu.enabled .trayJam = false) {u' : State} {later : List (Event × Half)}
    (leads : Leads 510 s.jammedOut [.deliver .cue .jammed, .select] u' later) :
    Ran u' ((.jam, argPair 1 s.tmc.reportedP) :: later) (s.run fun k => k.putTmc k.tmc.positionExpiry) := by
  have jams : s.tmc.positionExpiry = s.tmc.jam := if_pos ⟨turn, by simp [Timer.due, due]⟩
  have ignored : Handled (.edgeCause .trayJam) { s with tmc := s.tmc.jammedFrom } { s with tmc := s.tmc.jammedFrom } [] [] := by
    intro k before queue h
    have same : s.cu.arrive .trayJam = (s.cu, []) := if_neg (by simp [disabled])
    rw [State.handle, h.cu, same]
    simpa using h.putCu (s.cu, [])
  have ended := handled_outcome (u := { s with tmc := s.tmc.jammedFrom }) arbiter .jammed
  rw [source] at ended
  have ran := reaction_ran (f := fun k => k.putTmc k.tmc.positionExpiry) (lc := s.lc) calm
    (congrArg s.putTmc (jams.trans (Tmc.jam_ends service))) (.cons ignored (.cons ended leads))
  rw [source] at ran
  exact ran

section

variable (source : op.source = .cue) (turn : s.tmc.state = .turn) (due : s.tmc.positionTimer = some 0)
  (disabled : s.cu.enabled .trayJam = false)

include source turn due disabled

/-- JAMMED frees the marker of a stale record, or without an active show, and no more (R175). -/
theorem jam_frees (goesOn : s.ce.active = false ∨ s.ce.serviceMarker ≠ some false) :
    Ran { s.jammedOut with ce := { s.ce with serviceMarker := none } } [(.jam, argPair 1 s.tmc.reportedP)]
      (s.run fun k => k.putTmc k.tmc.positionExpiry) :=
  positionTimerExpiry_jams calm service arbiter source turn due disabled
    (.cons (handled_deliver_cue (u := s.jammedOut) (Ce.takeOutcome_frees (result := .jammed) (.inr goesOn.symm)))
      (.cons (handled_select_nothing (.inl s.tmc.jammedFrom_state)) (.nil _ _)))

variable (active : s.ce.active = true) (marker : s.ce.serviceMarker = some false)

include active marker

/-- JAMMED halts the show; with no CUE request pending there is nothing to withdraw (R175, R189). -/
theorem jam_halts (empty : s.ca.slots.cue = none) :
    Ran { s.jammedOut with ce := { haltedFor s.ce .jammed with serviceMarker := none }, pu := s.pu.dropRead }
      [(.jam, argPair 1 s.tmc.reportedP), haltEntry s.ce 5] (s.run fun k => k.putTmc k.tmc.positionExpiry) :=
  positionTimerExpiry_jams calm service arbiter source turn due disabled
    (.cons (handled_deliver_cue (u := s.jammedOut) (Ce.takeOutcome_jammed active marker))
      (.cons (handled_select_nothing (.inl s.tmc.jammedFrom_state))
        (.cons handled_dropRead (.cons (handled_withdraw_nothing (by exact empty)) (.nil _ _)))))

/-- JAMMED halts the show, and the CUE request pending is withdrawn (R145, R175, R189). -/
theorem jam_withdraws (waits : s.ca.slots.cue ≠ none) :
    Ran { s.jammedOut with ce := { haltedFor s.ce .jammed with serviceMarker := none, pendingMarker := none }
                           ca := { s.ca.empty .cue with inService := none }, pu := s.pu.dropRead }
      [(.jam, argPair 1 s.tmc.reportedP), haltEntry s.ce 5, (.requestsDiscarded, 0x0902)]
      (s.run fun k => k.putTmc k.tmc.positionExpiry) :=
  positionTimerExpiry_jams calm service arbiter source turn due disabled
    (.cons (handled_deliver_cue (u := s.jammedOut) (Ce.takeOutcome_jammed active marker))
      (.cons (handled_select_nothing (.inl s.tmc.jammedFrom_state))
        (.cons handled_dropRead (.cons (handled_withdraw (by exact waits))
          (.cons (handled_deliver_cue (Ce.takeOutcome_frees (.inl rfl)))
            (.cons (handled_slotEmpty_cue_idle rfl (by simp [haltedFor, Ce.unmarked, freesPending])) (.nil _ _)))))))

omit active marker in
/-- No operation is in service behind a jam (R139). -/
theorem jam_idle : (s.run fun k => k.putTmc k.tmc.positionExpiry).ca.inService = none := by
  by_cases goesOn : s.ce.active = false ∨ s.ce.serviceMarker ≠ some false
  · rw [(jam_frees calm service arbiter source turn due disabled goesOn).ca]
    rfl
  · rw [not_or, Bool.not_eq_false, not_not] at goesOn
    obtain ⟨active, marker⟩ := goesOn
    by_cases empty : s.ca.slots.cue = none
    · rw [(jam_halts calm service arbiter source turn due disabled active marker empty).ca]
      rfl
    · rw [(jam_withdraws calm service arbiter source turn due disabled active marker empty).ca]

end

end

end Sys2Proof.Machine
end

section
/-! ## The CUE change that CUTOFF_FORCE ends (04, 07, 09) -/

namespace Sys2Proof.Machine

open Sys2Proof.Safety

/-! ### The entry, whatever the Cutoff Unit has handed the lamp before -/

theorem Cu.entryNotices_waits (cu : Cu) : ∀ n ∈ cu.entryNotices, n.immediate = false := by
  have one {skip : Bool} {n : Notice} (waits : n.immediate = false) : ∀ m ∈ spare skip n, m.immediate = false := by
    cases skip <;> simp [spare, waits]
  simp only [Cu.entryNotices_eq, List.forall_mem_append]
  exact ⟨⟨⟨⟨⟨one rfl, one rfl⟩, one rfl⟩, one rfl⟩, by simp [Notice.immediate]⟩, by simp [Notice.immediate]⟩

/-- FORCED enters cutoff (R75, R84): the lamp is told of its imposition where that is new (R77). -/
theorem Cu.force_lays {cu : Cu} (enabled : cu.enabled .forced = true) (flag : cu.flag = false) :
    ∃ (cu' : Cu) (skip : Bool) (i : LampImposition), cu'.flag = true ∧ cu'.traySel = cu.traySel ∧
      cu.force = ((cu', .log .cutoffEnter 6 :: (spare skip (.lampImposition i) ++ cu'.entryNotices)), .done) := by
  have forced : cu.force = (cu.take .forced, .done) := by rw [Cu.force, if_pos enabled, Cu.arrive, if_pos enabled]
  rw [forced, Cu.take, if_pos (by simp [flag])]
  unfold Cu.handLamp
  dsimp only
  split
  · exact ⟨{ cu with flag := true, causes := cu.causes ||| Cause.bit .forced }, true, .none, rfl, rfl, rfl⟩
  · exact ⟨{ cu with flag := true, causes := cu.causes ||| Cause.bit .forced, lampHanded := _ }, false, _, rfl, rfl, rfl⟩

/-- The lamp alone is told of its imposition, and the fan then has to hear of the lamp. -/
theorem Stretch.lampLaid (u : State) (skip : Bool) (i : LampImposition) : ∃ u' events, u' = { u with lc := u'.lc } ∧
    Stretch (spare skip (.lampImposition i)) u u' events (Lc.fanNotices u.lc u'.lc) := by
  cases skip with
  | true =>
    refine ⟨u, [], rfl, ?_⟩
    rw [fanNotices_eq_nil rfl rfl rfl]
    exact .nil u
  | false => exact ⟨_, _, rfl, .one (handled_lampImposition u i)⟩

/-- Lamp and fan hear of an entry: of the hold that it ends, and of the lamp. -/
theorem Stretch.heard (u : State) (before : Lc) (skip : Bool) (inTime : Nat) : ∃ lc fc events,
    Stretch (Lc.fanNotices before u.lc ++ spare skip (.release inTime)) u { u with lc := lc, fc := fc } events [] := by
  cases skip with
  | true => exact ⟨_, _, _, (Stretch.fanHears u before).append (.nil _)⟩
  | false => exact ⟨_, _, _, (Stretch.fanHears u before).append (.one (handled_release _ inTime))⟩

/-- What an entry that ends an operation leaves to tell (R24). -/
theorem State.laidRest_ends {u : State} {op : Operation} (held : u.cu.traySel ≠ .ignore) (mechanism : u.tmc.op = some op) :
    u.laidRest = spare (!u.releases) (.release u.tmc.inTime) ++ [.outcome op .abortedCutoff] ++ u.cutRest := by
  have due : u.cutOutcome = [.outcome op .abortedCutoff] := by simp [State.cutOutcome, held, mechanism]
  rw [State.laidRest, u.trayCut_queue, due]

/-- Lamp and fan hear of the entry, and the arbiter takes the outcome of the operation that it ends (R139). -/
theorem Stretch.aborts {u : State} (before : Lc) {op : Operation} (arbiter : u.ca.inService = some op) : ∃ lc fc events,
    Stretch (Lc.fanNotices before u.lc ++ (spare (!u.releases) (.release u.tmc.inTime) ++ [.outcome op .abortedCutoff]))
      u.laid { u.laid with lc := lc, fc := fc, ca := { u.laid.ca with inService := none } } events (afterAbort op) := by
  obtain ⟨lc, fc, events, hears⟩ := Stretch.heard u.laid before (!u.releases) u.tmc.inTime
  have served : u.laid.ca.inService = some op := (Ca.cutoff_service _ _).trans arbiter
  have ended := hears.append (.one (handled_outcome (u := { u.laid with lc := lc, fc := fc }) served .abortedCutoff))
  rw [List.append_assoc] at ended
  exact ⟨lc, fc, _, ended⟩

section

variable {s : State} {op : Operation} (ready : Ready s) (enabled : s.cu.enabled .forced = true) (flag : s.cu.flag = false)
  (held : s.cu.traySel ≠ .ignore) (mechanism : s.tmc.op = some op) (arbiter : s.ca.inService = some op)

include ready enabled flag held mechanism arbiter

/-- Where the outcome of a CUTOFF_FORCE has been handed back: the requests are discarded, and the show is halted. -/
theorem cutoffForce_aborts : ∃ (left : Nat) (k : State), 400 ≤ left ∧ Shut k ∧
    k.ca = { (s.ca.cutoff s.cu.traySel).1 with inService := none } ∧ k.ce = (s.ce.halt .cutoff).1 ∧
    k.notices = s.cutRest ++ afterAbort op ∧
      s.run (State.takeRow 0x3A dirCutoffForce) = (State.drain left k).settle := by
  obtain ⟨cu, skip, i, entered, sel, forces⟩ := Cu.force_lays enabled flag
  obtain ⟨dd, -, acts⟩ := row_stands_cu (code := 0x3A) (owner := dirCutoffForce) (result := .done) ready
    (cu, .log .cutoffEnter 6 :: (spare skip (.lampImposition i) ++ cu.entryNotices))
    fun k same => by rw [dirCutoffForce, same, forces]
  obtain ⟨queued, -⟩ := queued_waiting (ns := spare skip (.lampImposition i) ++ cu.entryNotices)
    (List.forall_mem_append.mpr ⟨by cases skip <;> simp [spare, Notice.immediate], cu.entryNotices_waits⟩)
  rw [queuedOf_log, queued] at acts
  obtain ⟨u, told, same, lamp⟩ := Stretch.lampLaid { s with cu := cu, dd := dd.answer 0x3A .done } skip i
  have cutoff : u.cu = cu := by rw [same]
  have mine : u.tmc = s.tmc ∧ u.ca = s.ca ∧ u.ce = s.ce := by rw [same]; exact ⟨rfl, rfl, rfl⟩
  obtain ⟨tmc, ca, ce⟩ := mine
  have laid := lamp.append (.laying u)
  rw [State.laidRest_ends (by rw [cutoff, sel]; exact held) (tmc ▸ mechanism), cutoff] at laid
  obtain ⟨lc, fc, later, aborts⟩ := Stretch.aborts s.lc (ca ▸ arbiter)
  have room : Config.cascadeFuel = 512 := rfl
  have lamps := spare_length skip (.lampImposition i)
  have six := cu.entryNotices_length
  have fans : (Lc.fanNotices s.lc u.lc).length ≤ 1 := by unfold Lc.fanNotices; split <;> simp
  have release := spare_length (!u.releases) (.release u.tmc.inTime)
  obtain ⟨one, k₁, stands₁, left₁, drains₁⟩ := laid.drains (fuel := Config.cascadeFuel) (rest := [])
    (by rw [List.length_append, room]; omega) (by rw [List.append_nil]; exact acts.act)
  rw [List.length_append] at left₁
  obtain ⟨two, k₂, stands₂, left₂, drains₂⟩ := aborts.drains (fuel := one) (rest := u.cutRest)
    (by simp only [List.length_append, List.length_singleton]; omega)
    (by simpa only [List.nil_append, List.append_assoc] using stands₁)
  simp only [List.length_append, List.length_singleton] at left₂
  have closed : u.arbiterOpen = false := by simp [State.arbiterOpen, cutoff, entered, sel, held]
  have rest : u.cutRest = s.cutRest := by rw [State.cutRest, State.cutRest, cutoff, sel, ca, ce]
  refine ⟨two, k₂, by omega, ⟨?_, ?_⟩, ?_, ?_, rest ▸ stands₂.notices,
    by rw [State.run, State.carry, drains₁, drains₂]⟩
  · rw [State.arbiterOpen, stands₂.cu]
    exact closed
  · rw [stands₂.ce]
    exact Ce.halt_inactive _ _
  · rw [stands₂.ca, ← ca, ← sel, ← cutoff]
    rfl
  · rw [stands₂.ce, ← ce]
    rfl

end

/-! ### What the entry still has to tell (R139, R143, R175) -/

/-- The engine's markers behind a notice. -/
def Ce.told (ce : Ce) : Notice → Ce
  | .deliver .cue result => ce.unmarked result
  | .slotEmpty .cue => markerMoved ce .cue
  | _ => ce

/-- A notice that the entry leaves, with the arbiter closed and no show active. -/
inductive CutTail : Notice → Prop
  | select : CutTail .select
  | dropRead : CutTail .dropRead
  | deposit (slot : Nat) : CutTail (.deposit .run (.changeTo slot))
  | discarded (source : Source) : CutTail (.deliver source .discarded)
  | aborted : CutTail (.deliver .cue .abortedCutoff)
  | slotEmpty (source : Source) : CutTail (.slotEmpty source)

theorem CutTail.follows {n : Notice} (tail : CutTail n) : n.follows false = true := by cases tail <;> rfl

theorem RunRest.cutTail {n : Notice} (rest : RunRest n) : CutTail n := by
  obtain rfl | ⟨slot, rfl⟩ := rest
  · exact .select
  · exact .deposit slot

/-- A discarded record of the channels makes no notice (R156, R159). -/
theorem Rcu.takeOutcome_discarded (u : Rcu) (n : Nat) : (u.takeOutcome .discarded n).2 = [] := by
  have pending : OpOutcome.discarded.ofPending = true := rfl
  rw [Rcu.takeOutcome, if_pos pending]
  unfold Rcu.settleMarker
  (repeat' split) <;> rfl

theorem Rcu.slotEmptied_deposits (u : Rcu) : ∀ n ∈ u.slotEmptied.2, ∃ slot, n = .deposit .run (.changeTo slot) := by
  unfold Rcu.slotEmptied
  split <;> exact Rcu.choose_deposits _

/-- Such a notice reaches the engine's markers alone, and leads to a selection or to another channel's change at most. -/
theorem CutTail.handle {n : Notice} (tail : CutTail n) {k : State} (shut : Shut k) :
    Shut (State.handle n k) ∧ (State.handle n k).ce = k.ce.told n ∧
      ∃ made, (State.handle n k).notices = k.notices ++ made ∧ ∀ m ∈ made, RunRest m := by
  refine ⟨shut.step (handle_winds shut.idle tail.follows fun _ => shut.closed), ?_⟩
  have told (result : OpOutcome) : State.handle (.deliver .cue result) k = k.putCe (k.ce.unmarked result, []) := by
    rw [State.handle, State.deliver, Ce.takeOutcome_frees (.inr (.inr shut.idle))]
  cases tail with
  | select =>
    rw [State.handle, select_closed k shut.closed]
    exact ⟨rfl, [], by simp, nofun⟩
  | dropRead => exact ⟨rfl, [], by simp [State.handle], nofun⟩
  | deposit slot =>
    simp only [State.handle, State.deposit]
    split
    · have waits : queuedOf (if (k.ca.slot .run).isNone then [Notice.dirty 6] else []) = [] := by split <;> rfl
      rw [afterDeposit_closed (by simpa [State.arbiterOpen] using shut.closed)]
      exact ⟨by simp [Ce.told], [], by rw [State.putCa_notices, waits], nofun⟩
    · exact ⟨rfl, [], by simp, nofun⟩
  | discarded source =>
    cases source with
    | cue => rw [told]; exact ⟨by simp [Ce.told], [], by simp [State.putCe_notices], nofun⟩
    | run =>
      exact ⟨by simp [State.handle, State.deliver, Ce.told], [],
        by simp [State.handle, State.deliver, State.putRcu_notices, Rcu.takeOutcome_discarded], nofun⟩
    | _ => exact ⟨rfl, [], by simp [State.handle, State.deliver], nofun⟩
  | aborted => rw [told]; exact ⟨by simp [Ce.told], [], by simp [State.putCe_notices], nofun⟩
  | slotEmpty source =>
    cases source with
    | cue =>
      have moved : State.handle (.slotEmpty .cue) k = k.putCe (markerMoved k.ce .cue, []) := by
        rw [State.handle, State.slotEmptied, Ce.slotEmptied_idle fun h => Ce.running_inactive shut.idle h.1]
      rw [moved]
      exact ⟨by simp [Ce.told], [], by simp [State.putCe_notices], nofun⟩
    | run =>
      exact ⟨by simp [State.handle, State.slotEmptied, Ce.told], _, State.putRcu_notices k k.rcu.slotEmptied,
        fun m hm => .inr (Rcu.slotEmptied_deposits _ m (List.mem_filter.mp hm).1)⟩
    | _ => exact ⟨rfl, [], by simp [State.handle, State.slotEmptied], nofun⟩

/-- What arbiter and engine leave to tell. -/
theorem State.cutRest_tail (s : State) : ∀ n ∈ s.cutRest, CutTail n := by
  refine List.forall_mem_append.mpr ⟨fun n hn => ?_, fun n hn => by rw [Ce.halt_queue _ n hn]; exact .dropRead⟩
  obtain ⟨member, waits⟩ := List.mem_filter.mp hn
  unfold Ca.cutoff at member
  split at member
  · cases member
  · simp only [List.mem_append, List.mem_flatMap, List.mem_cons, List.not_mem_nil, or_false] at member
    rcases member with (⟨source, -, told⟩ | rfl | rfl) | ⟨source, -, told⟩
    · unfold deliverNotice at told
      split at told
      · rw [List.mem_singleton.mp told]
        exact .discarded source
      · cases told
    · cases waits
    · cases waits
    · unfold slotEmptyNotice at told
      split at told
      · rw [List.mem_singleton.mp told]
        exact .slotEmpty source
      · cases told

/-- A CUE record that waits is discarded (R143). -/
theorem State.cutRest_discards {s : State} (held : s.cu.traySel ≠ .ignore) (waits : s.ca.slots.cue ≠ none) :
    .deliver .cue .discarded ∈ s.cutRest := by
  have holds : .cue ∈ s.ca.holders :=
    List.mem_filter.mpr ⟨by decide, Option.isSome_iff_ne_none.mpr waits⟩
  have taken : ¬ (s.cu.traySel = .ignore ∨ s.ca.holders = []) := fun h =>
    h.elim held fun empty => by simp [empty] at holds
  refine List.mem_append_left _ (List.mem_filter.mpr ⟨?_, rfl⟩)
  rw [Ca.cutoff, if_neg taken]
  refine List.mem_append_left _ (List.mem_append_left _ (List.mem_flatMap.mpr ⟨.cue, holds, ?_⟩))
  simp [deliverNotice, Source.notified]

section

variable {k : State} {n : Notice} {first rest : List Notice} {left : Nat}

/-- A marker that a notice frees, and that those of kind `C` behind it leave free, is free at the end. -/
theorem drain_frees {free : Ce → Prop} {C : Notice → Prop} (kind : ∀ n, C n → CutTail n) (made : ∀ n, RunRest n → C n)
    (here : CutTail n) (frees : ∀ ce : Ce, free (ce.told n)) (stays : ∀ m, C m → ∀ ce : Ce, free ce → free (ce.told m))
    (before : ∀ m ∈ first, CutTail m) (after : ∀ m ∈ rest, C m) (enough : first.length < left)
    (queue : k.notices = first ++ n :: rest) (shut : Shut k) : free (State.drain left k).ce := by
  have reached := drain_brings (P := Shut) (Q := fun t => Shut t ∧ free t.ce) (C := C)
    (fun _ _ _ h => ⟨h.closed, h.idle⟩) (fun _ _ _ h => ⟨⟨h.1.closed, h.1.idle⟩, h.2⟩)
    (n := n) (fun t shut => ?here) (fun m hm t h => ?after) first rest (fun m hm t shut => ?before) after left enough queue shut
  case here =>
    obtain ⟨still, ce, ns, notices, kinds⟩ := here.handle shut
    exact ⟨⟨still, ce ▸ frees _⟩, ns, notices, fun m hm => made m (kinds m hm)⟩
  case after =>
    obtain ⟨still, ce, ns, notices, kinds⟩ := (kind m hm).handle h.1
    exact ⟨⟨still, ce ▸ stays m hm _ h.2⟩, ns, notices, fun m hm => made m (kinds m hm)⟩
  case before =>
    obtain ⟨still, -, ns, notices, kinds⟩ := (before m hm).handle shut
    exact ⟨still, ns, notices, fun m hm => made m (kinds m hm)⟩
  exact reached.2

end

section

variable {s : State} {op : Operation} (ready : Ready s) (enabled : s.cu.enabled .forced = true) (flag : s.cu.flag = false)
  (held : s.cu.traySel ≠ .ignore) (mechanism : s.tmc.op = some op) (arbiter : s.ca.inService = some op)
  (source : op.source = .cue)

include ready enabled flag held mechanism arbiter source

/-- CUTOFF_FORCE ends the CUE change in service and discards the record pending: both markers are free, and an active show
is halted (R143, R175, R189). -/
theorem cutoffForce_cue {t : State} (run : exec .cutoffForce s = .next t) :
    t.ca.inService = none ∧ t.ca.slots.cue = none ∧ t.ce.serviceMarker = none ∧
      (s.ca.slots.cue ≠ none → t.ce.pendingMarker = none) ∧
      ∃ pending service, t.ce = { (s.ce.halt .cutoff).1 with pendingMarker := pending, serviceMarker := service } := by
  obtain rfl := Host.Outcome.next.inj run
  obtain ⟨left, k, enough, shut, ca, ce, notices, ends⟩ := cutoffForce_aborts ready enabled flag held mechanism arbiter
  have tail : afterAbort op = [.deliver .cue .abortedCutoff, .select] := by rw [afterAbort, source]; rfl
  rw [tail] at notices
  have few := s.cutRest_length
  have kinds : ∀ n ∈ k.notices, CutTail n := by
    rw [notices]
    exact List.forall_mem_append.mpr ⟨s.cutRest_tail, by simp [CutTail.aborted, CutTail.select]⟩
  have wound := drain_wound left shut.idle shut.closed fun n hn => (kinds n hn).follows
  rw [ends, State.settle_ca, State.settle_ce]
  refine ⟨wound.service (by rw [ca]), wound.slots .cue nofun (by rw [ca]; exact Ca.cutoff_empties held .cue), ?service,
    fun waits => ?pending, by rw [← ce]; exact wound.engine⟩
  case service =>
    refine drain_frees (free := fun ce => ce.serviceMarker = none) (C := RunRest) (fun _ => RunRest.cutTail) (fun _ h => h)
      .aborted (fun ce => rfl) ?_ s.cutRest_tail (by simp [RunRest]) (by omega) notices shut
    rintro _ (rfl | ⟨slot, rfl⟩) ce free <;> exact free
  case pending =>
    obtain ⟨first, rest, split⟩ := List.append_of_mem (State.cutRest_discards held waits)
    have queue : k.notices = first ++ .deliver .cue .discarded :: (rest ++ [.deliver .cue .abortedCutoff, .select]) := by
      rw [notices, split, List.append_assoc, List.cons_append]
    rw [queue] at kinds
    obtain ⟨before, after⟩ := List.forall_mem_append.mp kinds
    refine drain_frees (free := fun ce => ce.pendingMarker = none) (fun _ h => h) (fun _ => RunRest.cutTail)
      (.discarded .cue) (fun ce => rfl) ?_ before (List.forall_mem_cons.mp after).2 ?_ queue shut
    · intro m tail ce free
      cases tail with
      | discarded source => cases source <;> first | rfl | exact free
      | slotEmpty source => cases source <;> simp [Ce.told, markerMoved, free]
      | _ => exact free
    · have length := congrArg List.length split
      simp only [List.length_append, List.length_cons] at length
      omega

end

end Sys2Proof.Machine
end

section
/-! ## The show directives and the outcomes of a CUE change, as commands (09) -/

namespace Sys2Proof.Machine

open Sys2Proof.Safety

section

variable {s : State} {op : Operation}

/-- A GOTO_SLOT that preempts a CUE change frees its marker (R142, R175). -/
theorem gotoSlot_ousts_cue {slot : Byte} (ready : Ready s) (ousts : Ousts s slot op) (source : op.source = .cue) :
    Took 0x11 .done s
      { s with ca := { s.ca with inService := some ⟨.changeTo slot.toNat, .directive, s.ca.levels.directive⟩ }
               tmc := (s.tmc.preempt ⟨.changeTo slot.toNat, .directive, s.ca.levels.directive⟩).1
               ce := { s.ce with serviceMarker := none } }
      [(.preempted, argPair 1 s.tmc.p)] (s.run (State.takeRow 0x11 (dirGotoSlot slot))) := by
  have took := ousts.took rfl ready (u' := { s with
      ca := { s.ca with inService := some ⟨.changeTo slot.toNat, .directive, s.ca.levels.directive⟩ }
      tmc := (s.tmc.preempt ⟨.changeTo slot.toNat, .directive, s.ca.levels.directive⟩).1
      ce := { s.ce with serviceMarker := none } }) (later := []) fun dd => by
    rw [source]
    exact .cons (handled_deliver_cue (Ce.takeOutcome_frees (.inl rfl))) (.nil _ _)
  rw [source] at took
  exact took

/-- The show after a CUTOFF_FORCE: halted if it was active, and otherwise as it was (R189). -/
theorem halted_cutoff {ce t : Ce} {pending service : Option Bool}
    (same : t = { (ce.halt .cutoff).1 with pendingMarker := pending, serviceMarker := service }) :
    (ce.active = true → t.showState = .halted ∧ t.reason = .cutoff ∧ t.queue = []) ∧
      (ce.active = false → t.showState = ce.showState ∧ t.reason = ce.reason) := by
  subst same
  refine ⟨fun active => Ce.halt_active active, fun idle => ?_⟩
  rw [Ce.halt_idle idle]
  exact ⟨rfl, rfl⟩

end

/-! ### O42 -/

/-- Settles O42: each directive of the show, and each outcome of a CUE change in service. -/
theorem showDirectives : Obligations.ShowDirectives := by
  refine ⟨?start, ?passage, ?lead, ?outcomes⟩
  case start =>
    rintro lo hi s ready i rfl
    refine ⟨_, rfl, fun busy => ?_, fun idle uncut large => ?_, fun idle uncut inside => ?_⟩
    · exact showStart_refused ready (if_pos busy)
    · exact showStart_refused ready ((if_neg (by simp [idle, uncut])).trans (if_pos large))
    · have took := showStart_took ready idle uncut (lo := lo) (hi := hi) inside
      refine ⟨took.ce, took.fetches rfl, took.answered rfl fun p hp => ?_⟩
      cases p <;> simp [Part.same, Pu.askRead, Pu.forgetRead] at hp ⊢
  case passage =>
    intro s ready
    refine ⟨⟨_, rfl, fun still => ?_, fun running => ?_⟩, ⟨_, rfl, fun still => ?_, fun paused loading => ?_⟩, ?stop⟩
    · exact (showPause_answered ready (if_neg still)).2.2 rfl
    · obtain ⟨ce, answered, -⟩ := showPause_answered ready (if_pos running)
      exact ⟨ce, answered⟩
    · exact showResume_refused ready still
    · have took := showResume_took ready paused loading
      refine ⟨took.ce, took.answered rfl fun p hp => ?_⟩
      cases p <;> simp [Part.same] at hp ⊢
    case stop =>
      by_cases empty : s.ca.slots.cue = none
      · have took := showStop_took ready empty
        refine ⟨_, rfl, ?_, ?_, ?_, ?_, ?_, ?_, took.unread s.pu.dropRead_request,
          fun _ => ⟨took.ce, took.answered rfl fun p hp => ?_⟩, fun waits => absurd empty waits⟩
        case refine_7 => cases p <;> simp [Part.same, Pu.dropRead_window] at hp ⊢
        all_goals rw [took.ce]; rfl
      · have took := showStop_withdraws ready empty
        refine ⟨_, rfl, ?_, ?_, ?_, ?_, ?_, ?_, took.unread s.pu.dropRead_request, fun none => absurd none empty,
          fun _ => ⟨took.ca, by rw [took.ce], took.answered rfl fun p hp => ?_⟩⟩
        case refine_7 => cases p <;> simp [Part.same, Pu.dropRead_window] at hp ⊢
        all_goals rw [took.ce]; rfl
  case lead =>
    intro enable extra s ready
    refine ⟨_, rfl, fun large => ?_, fun small nobody => ?_⟩
    · exact showLead_refused ready large
    · have took := showLead_took (extra := extra) ready small nobody
      refine ⟨took.ce, took.answered rfl fun p hp => ?_⟩
      cases p <;> simp [Part.same] at hp ⊢
  case outcomes =>
    rintro s calm op service source arbiter p rfl
    refine ⟨fun settle due empty => ?_, fun turn due disabled => ?_, fun ready _ flag enabled held => ?_,
      fun slot ready sound slots _ unmasked level homed phase uncut _ inside far => ?_⟩
    · have ran := settleEnd_cue calm service arbiter source settle due empty
      have entry : s.tmc.settledEntry op =
          (if s.tmc.gate = .empty then .emptySlot else .changeDone, argPair 1 (if s.tmc.homed then s.tmc.p else 0xFF)) := by
        rw [Tmc.settledEntry, source]
        rfl
      rw [entry] at ran
      refine ⟨_, rfl, ran.ca, ran.ce, ran.effect rfl fun p hp => ?_⟩
      cases p <;> simp [Part.same, State.freed] at hp ⊢
    · refine ⟨_, rfl, ?_, fun goesOn => ?_, fun active marker empty => ?_, fun active marker waits => ?_⟩
      · exact jam_idle calm service arbiter source turn due disabled
      · have ran := jam_frees calm service arbiter source turn due disabled goesOn
        refine ⟨ran.ca, ran.ce, ran.effect rfl fun p hp => ?_⟩
        cases p <;> simp [Part.same, State.jammedOut] at hp ⊢
      · have ran := jam_halts calm service arbiter source turn due disabled active marker empty
        refine ⟨ran.ca, ran.ce, ran.effect rfl fun p hp => ?_⟩
        cases p <;> simp [Part.same, State.jammedOut, Pu.dropRead_window] at hp ⊢
      · have ran := jam_withdraws calm service arbiter source turn due disabled active marker waits
        refine ⟨ran.ca, ran.ce, ran.effect rfl fun p hp => ?_⟩
        cases p <;> simp [Part.same, State.jammedOut, Pu.dropRead_window] at hp ⊢
    · obtain ⟨idle, empty, marker, pending, _, _, same⟩ :=
        cutoffForce_cue ready enabled flag held service arbiter source rfl
      obtain ⟨halted, kept⟩ := halted_cutoff same
      exact ⟨_, rfl, idle, empty, marker, pending, halted, kept⟩
    · have ousts : Ousts s slot op := ⟨sound, service, arbiter, slots, unmasked, level, homed, phase, uncut, inside, far⟩
      have took := gotoSlot_ousts_cue ready ousts source
      rw [if_pos homed]
      refine ⟨_, rfl, took.ce, took.ca, took.answered rfl fun p hp => ?_⟩
      cases p <;> simp [Part.same] at hp ⊢

end Sys2Proof.Machine
end

section
/-! ## A DELAY at its fire instant (09): its slide change is granted, and a record that follows at once may preempt it -/

namespace Sys2Proof.Machine

open Sys2Proof.Safety

/-- A DELAY of no time with a GOTO of slot 20, and record 4 as its NEXT. -/
def changeAtOnce : List Byte := [0x11, 0, 0, 0, 20, 0, 0xFF, 0xFF, 0, 0, 0, 0, 4, 0, 5, 0]

/-- The state of `runBehindCue` with a DELAY of no time as the current record: it changes the slide, and the DELAY staged
behind it triggers run channel 1, whose source has a lower level than the CUE source. -/
def runBehindDelay : State :=
  { runBehindCue with
    ce := { runBehindCue.ce with
      queue := [⟨3, changeAtOnce, true, .sequential⟩, ⟨4, triggerAtOnce, true, .next⟩] } }

/-- The first DELAY's slide change is one that is granted at once. -/
theorem runBehindDelay_grants : Grants { runBehindDelay with ce := dueAs runBehindDelay.ce runBehindDelay.tmc.outTime changeAtOnce } where
  slide := rfl
  marker := rfl
  slots := by intro source; cases source <;> rfl
  unmasked := rfl
  free := ⟨rfl, rfl, rfl, show (80 : Nat) ≠ 0 by decide⟩
  uncut := .inl rfl
  inTray := by
    intro slot change
    obtain rfl : 20 = slot := OpKind.changeTo.inj change
    decide
  moves := fun here => absurd here.2.1 (by decide)
  trigger := fun trigger => absurd trigger (by decide)

/-- The second DELAY is due as soon as it is current, and the channel's change preempts the CUE source's in DARKEN. -/
theorem runBehindDelay_preempts :
    (runBehindDelay.carry fun k => k.putCe (k.ce.fireInstantReached k.tmc.outTime k.cueSlotFree)).tmc.op =
      some ⟨.changeTo 40, .run, 0⟩ := by decide

/-- Refutes O44: of a DELAY whose slide change is granted at its fire instant the statement says, whatever record follows,
that the change is the mechanism's operation at the end of the command. A DELAY of no time passes on in the same command,
and a DELAY staged behind it that is due at once may trigger a run channel (R152, R172 to R174, R176). Where the RUN source
has the lower level, the channel's request preempts the change just granted (R22, R141, R142). The clause on the mechanism
in `ComesDue` lacks the condition that no record behind the first issues an action in the same command. -/
theorem not_timeline : ¬ Obligations.Timeline := by
  intro h
  obtain ⟨⟨t, runs, -, fires⟩, -⟩ := h runBehindDelay rfl
  obtain ⟨-, due⟩ := fires changeAtOnce rfl _ rfl
  obtain ⟨⟨-, -, granted⟩, -⟩ := due rfl (by decide)
  obtain ⟨service, -⟩ := granted runBehindDelay_grants _ rfl
  obtain rfl : t = runBehindDelay.run fun k => k.putCe (k.ce.fireInstantReached k.tmc.outTime k.cueSlotFree) :=
    (Host.Outcome.next.inj runs).symm
  rw [State.run, State.settle_tmc, runBehindDelay_preempts] at service
  exact absurd service (by decide)

end Sys2Proof.Machine
end
